-- ==== Sys2Proof/Word.lean ====
section
/-! DEFINITION. The two word types of the manual and their plainest arithmetic: the dword of a register or of a
table entry (R300, R329) and the octet of a frame or of a memory (R10). -/

namespace Sys2Proof

/-- A register or table dword (R300). -/
abbrev Word := BitVec 32

/-- An octet of a frame, or a byte of a memory (R10). -/
abbrev Byte := BitVec 8

/-- Bits `[hi:lo]` of a number, as the manual writes bit ranges (00_scope, Numbers). -/
def bitsOf (n hi lo : Nat) : Nat := n / 2 ^ lo % 2 ^ (hi + 1 - lo)

/-- The number `n` with its bits `[hi:lo]` replaced by the low bits of `v`. -/
def withBits (n hi lo v : Nat) : Nat :=
  n - bitsOf n hi lo * 2 ^ lo + v % 2 ^ (hi + 1 - lo) * 2 ^ lo

/-- Ceiling division, the `ceiling` of the manual's formulas; by zero it is zero. -/
def ceilDiv (a b : Nat) : Nat := if b = 0 then 0 else (a + b - 1) / b

/-- A number of `w` bits read as two's complement. -/
def toSigned (w n : Nat) : Int :=
  if n % 2 ^ w < 2 ^ (w - 1) then (n % 2 ^ w : Nat) else ((n % 2 ^ w : Nat) : Int) - (2 ^ w : Nat)

/-- The two's complement code of an integer in `w` bits. -/
def ofSigned (w : Nat) (i : Int) : Nat := (i % ((2 ^ w : Nat) : Int)).toNat

/-- An integer held within `[lo, hi]`: the saturation of R163 and R219, and the bounds of R24. -/
def clampInt (lo hi i : Int) : Int := if i < lo then lo else if hi < i then hi else i

/-- The octets of a number, most significant first: network order (R10). -/
def beOctets : Nat → Nat → List Byte
  | 0, _ => []
  | k + 1, n => BitVec.ofNat 8 (n / 256 ^ k) :: beOctets k n

/-- The bytes of a number, least significant first: the little-endian order of R10. -/
def leBytes : Nat → Nat → List Byte
  | 0, _ => []
  | k + 1, n => BitVec.ofNat 8 n :: leBytes k (n / 256)

/-- The number that octets in network order spell. -/
def beNum (l : List Byte) : Nat := l.foldl (fun a b => a * 256 + b.toNat) 0

/-- The number that little-endian bytes spell. -/
def leNum (l : List Byte) : Nat := l.foldr (fun b a => b.toNat + 256 * a) 0

/-- `n` octets from position `k`; positions past the end give no octet. -/
def slice (l : List Byte) (k n : Nat) : List Byte := (l.drop k).take n

/-- The list with its `n` octets from position `k` replaced by `v`. -/
def splice (l : List Byte) (k n : Nat) (v : List Byte) : List Byte := l.take k ++ v ++ l.drop (k + n)

end Sys2Proof
end

