-- ==== Sys2Proof/Syntax.lean ====
section
/-! DEFINITION. The commands and events of the block: one constructor of `Instr` for each row of
spec/opcode_table.json, in the table's order. The table gives a row no operand words, so the operands are the model's
(log 1): the unit that the row names, the data that a host access carries, the octets that a frame carries, and the
readings that come from outside the package or from physical upsets. What the manual lets the device find in its own
state is no operand: an XCI command acts on the request that the sequencer holds (R305, R310). -/

namespace Sys2Proof

/-- The access path of a dword write (R328, R332): PF BAR0, VF BAR0, BAR2, or DMA region 0x4. -/
inductive Space where
  | bar0
  | vfBar0
  | bar2
  | dma4
  deriving DecidableEq, Repr

/-- A parity upset that a reading finds: the region or table number of the manual's own table, and the index. -/
structure Upset where
  table : Nat
  index : Nat
  deriving DecidableEq, Repr

/-- What the scrubber finds in the three copies of a triplicated field (R337): canonical BAR0 offset, bits, copies. -/
structure TripUpset where
  addr : Nat
  hi : Nat
  lo : Nat
  copy0 : Nat
  copy1 : Nat
  copy2 : Nat
  deriving DecidableEq, Repr

/-- What the enumeration of a CXL port meets at the attached device (R267, R268). Capacity is in bytes, latency in ns;
`width` and `speed` are coded as CXM_PORT_STATUS codes them, width 3 for a link narrower than x4. -/
structure CxlDevice where
  trained : Bool
  usable : Bool
  type3 : Bool
  ready : Bool
  width : Nat
  speed : Nat
  mhd : Bool
  head : Nat
  capacity : Nat
  latMin : Nat
  latMean : Nat
  latMax : Nat
  deriving DecidableEq, Repr

/-- The end of one BIST unit (R395, R398): group, unit, and for a failure what the record of R398 holds. -/
structure UnitEnd where
  group : Nat
  unit : Nat
  spare : Bool
  passed : Bool
  location : Nat
  inst : Nat
  element : Nat
  bit : Nat
  failBits : Nat
  expected : Nat
  observed : Nat
  deriving DecidableEq, Repr

/-- A TAP instruction of R404. -/
inductive TapInstr where
  | bypass
  | idcode
  | sample
  | extest
  | clamp
  | highz
  | privateScan
  deriving DecidableEq, Repr

/-- The writes of the host to the PCIe side of a function (R295, R299, R301, R304): VF Enable with NumVFs, MSI-X Enable of a function,
an MSI-X mask of a vector, the power-management state of a function (0 D0, 3 D3hot), its largest payload and read request in
octets, the AER uncorrectable status bits to clear, the base address of a BAR (of the PF, or of all VFs), and the address and
data of an entry of its MSI-X table in BAR4. -/
inductive CfgWrite where
  | sriov (enable : Bool) (numVfs : Nat)
  | msixEnable (fn : Nat) (enable : Bool)
  | msixMask (fn vec : Nat)
  | power (fn d : Nat)
  | deviceControl (fn payload readRequest : Nat)
  | aerStatus (fn : Nat) (clear : Nat)
  | bar (vf : Bool) (n addr : Nat)
  | msixEntry (fn vec addr data : Nat)
  deriving DecidableEq, Repr

/-- The items that a function's configuration space shows (R295, R299, R301). The offsets of the capabilities are not in the
spec: a read names its item (log 74). -/
inductive CfgItem where
  | vendorId
  | deviceId
  | revisionId
  | classCode
  | subsystemVendorId
  | subsystemId
  | bar (n : Nat)
  | linkSpeed
  | linkWidth
  | payload
  | readRequest
  | tags
  | aerStatus
  | powerState
  | msixEnable
  | msixSize
  | serialLow
  | serialHigh
  | totalVfs
  | firstVfOffset
  | vfStride
  | numVfs
  | vfEnable
  | offered (name : String)
  deriving DecidableEq, Repr

/-- Where a read of the host goes: BAR0, BAR2 or BAR4 of a function (R299), or an item of its configuration space. -/
inductive ReadSpace where
  | bar0
  | bar2
  | bar4
  | config (item : CfgItem)
  deriving DecidableEq, Repr

/-- The commands and events of the block, in the order of spec/opcode_table.json. -/
inductive Instr where
  /-- PORn low for `lowNs` ns (R434). -/
  | powerOnReset (lowNs : Nat := 1000)
  /-- RSTn low for `cycles` cycles of the always-on oscillator (R434). -/
  | coldReset (cycles : Nat := 25)
  | resetRelease
  | startupEntry
  | refclkLoss
  /-- The oldest transfer from island `src` to island `dst` is delivered (R14). -/
  | crossingDelivery (src dst : Nat)
  | replicaCorrection
  /-- The last byte of a frame at port `p`: octets from DA to the last before the FCS. -/
  | frameReceived (p : Nat) (octets : List Byte) (fcsOk : Bool)
  /-- The next descriptor is classified; `upsets` are the SID entries it finds with a parity error (R96). -/
  | classify (upsets : List Upset)
  | unpackFrame (upsets : List Upset)
  | videoPacketStore
  /-- The next copy that reached port `p`'s island is enqueued. -/
  | frameEnqueue (p : Nat)
  | stageCellReadDone (fid cell : Nat) (parityError : Bool)
  /-- `upsets` are the operative Clauses that the look-ahead of R114 finds with a parity error. -/
  | transmissionSelection (p : Nat) (upsets : List Nat := [])
  | txFrameDone (p : Nat)
  | ageExpiry (p : Nat)
  | depthSample
  | dmaPoolCellsAvailable (ch : Nat)
  | linkUp (p : Nat)
  | linkDown (p : Nat)
  | retrain (p : Nat)
  | verifyMpacketRx (p : Nat)
  | respondMpacketRx (p : Nat)
  | verifyTimeout (p : Nat)
  /-- A fragment at port `p`'s pMAC: `start` for SMD-S, with the frame number `frameNo` that its SMD codes and, for
  SMD-C, the fragment count; `last` when it ends with the FCS rather than an mCRC. -/
  | continuationFragmentRx (p : Nat) (start : Bool) (frameNo count : Nat) (octets : List Byte) (last crcOk : Bool)
  | pauseFrameRx (p : Nat) (octets : List Byte)
  | pauseQuantaExpiry (p c : Nat)
  | pauseWatchdog (p c : Nat)
  | lldpduTx (p : Nat)
  | lldpduRx (p : Nat) (octets : List Byte)
  | partnerTtlExpiry (p : Nat)
  /-- The measured transmit and receive rates of the window in Mb/s, and whether the partner reports itself
  synchronised. -/
  | utilisationWindow (p txRate rxRate : Nat) (partnerSynced : Bool)
  /-- The LLDPDU that carries the shed TLV, from the partner's port (R58); that of a REQUEST has the source address `sa`. -/
  | shedRequestRx (p sa : Nat) (octets : List Byte)
  | shedAcceptRx (p : Nat) (octets : List Byte)
  | shedRefuseRx (p : Nat) (octets : List Byte)
  | shedNoack (p : Nat)
  | shedInstant (p : Nat)
  | shedLockCheck (p : Nat) (locked : Bool)
  | shedFailRetrain (p : Nat) (up : Bool)
  | shedForcedWiden (p : Nat)
  | standbyWidenRetry (p : Nat)
  | blockClr (p : Nat)
  /-- `more`: under PLCA, the sender goes on in its transmit opportunity (R65). -/
  | panelFrameRx (t : Nat) (octets : List Byte) (fcsOk : Bool) (more : Bool := false)
  /-- `carrier`: another node is sending when the port would begin (R64). -/
  | panelFrameTx (t : Nat) (carrier : Bool := false) (echoNs : Nat := 0)
  | panelCollision (t : Nat)
  | panelBackoffExpiry (t : Nat) (carrier : Bool := false) (echoNs : Nat := 0)
  | plcaBeaconRx (t : Nat)
  | plcaToTimer (t : Nat)
  /-- A dword write at an offset of the SID region. -/
  | sidEntryWrite (off : Nat) (data : Word)
  | streamBind
  | streamUnbind
  | unblockFilter (index : Nat)
  | clearMarkRed (index : Nat)
  | recoveryResetTimer (f : Nat)
  | latentTest (f : Nat)
  | latentResetPeriod (f : Nat)
  /-- A dword write at an offset of the Sentence region. -/
  | clauseWrite (off : Nat) (data : Word)
  /-- A write of the SEN admin register number `reg` (0 SEN_ADMIN_LEN to 6 SEN_ADMIN_RESV) of port `p`. -/
  | senAdminWrite (p reg : Nat) (data : Word)
  /-- `upsets` are the admin-bank Clauses of the named port found with a parity error. -/
  | sentenceStage (upsets : List Nat)
  | sentenceArm
  | sentenceAbort
  /-- `parityError`: the reading of the Clause that starts finds one. -/
  | sentenceSwap (p : Nat) (parityError : Bool := false)
  | cycleStart (p : Nat)
  /-- The next Clause of port `p` starts; `parityError` says its reading finds one. -/
  | clauseBoundary (p : Nat) (parityError : Bool)
  | holdInForce (p : Nat)
  | senEnableClear (p dropLate : Nat)
  /-- A dword write at an offset of the sub-queue region. -/
  | subqEntryWrite (off : Nat) (data : Word)
  | qshPoolWrite (p : Nat) (dma : Bool) (value : Nat)
  | queueDisableFlush (p cbsEn : Nat)
  /-- The fixing of window `k` of sum `sum`; `upsets` are the operative Clauses of the deadline port that it reads with a parity
  error. -/
  | windowFix (sum k : Nat) (upsets : List Nat := [])
  /-- The cutoff of the batch of engine `e` whose deadline instant is `d` ns after the epoch. -/
  | batchCutoff (e d : Nat)
  | allotmentStart (e d : Nat) (upsets : List Upset)
  | allotmentDone (e d : Nat)
  | mixDeadlineEnqueue (e d : Nat)
  | rowFetchDone (tile d : Nat) (ok : Bool)
  | rebalance (m : Nat)
  | mixBankWrite (off : Nat) (data : Word)
  | mixLiveEntryWrite (off : Nat) (data : Word)
  | mixCommit
  | mixWithdraw
  | mixStatus
  | placementLoad
  | mixActivation
  | mixDrainEnd
  | mixPoolReturn (group : Nat)
  | ringJoin
  | ringLeave
  | ringLeaveDone
  | ringCycleStart
  | ringRoundStart
  | syncFrameTx
  /-- A Concord frame at PORT_E (`fromE`) or PORT_W: octets from DA to the last before the FCS. -/
  | syncFrameRx (fromE : Bool) (octets : List Byte)
  | syncCollectionEnd
  | coldstartEntry
  | coldstartFail
  | syncMeasurementClose
  | syncSilenceTimeout
  | contributionCutoff
  | trainLaunch
  /-- `busy`: another frame is still in transmission on the outgoing port when the first octet is due (R214). -/
  | trainFrameRx (fromE : Bool) (octets : List Byte) (fcsOk stomped busy : Bool)
  | trainWindowEnd
  | beaconTx
  | ringPortDown (portE : Bool)
  | ringWrapEnd (portE : Bool)
  | managerTakeover
  | contributionEntryWrite (off : Nat) (data : Word)
  | ringRemote
  | ringRemoteDone (slot : Nat)
  | incrementWrite (data : Word)
  | slewStart (count : Word)
  | slewEnd
  | stepGo (mode : Nat)
  /-- `upsets` are the ports on which the reading of the Clause taken up finds a parity error. -/
  | networkTimeStep (upsets : List Nat := [])
  | ppsOutEdge
  | ppsOutFall
  /-- `highNs`: how long PPS_IN stays high, in ns. -/
  | ppsInEdge (highNs : Nat)
  | syncTx (p : Nat)
  | syncRx (p : Nat) (octets : List Byte)
  | ptpMessageRx (p : Nat) (octets : List Byte)
  | syncTimeout
  | pdelayReqTx (p : Nat)
  | pdelayReqRx (p : Nat) (octets : List Byte)
  | pdelayRespRx (p : Nat) (octets : List Byte)
  | pdelayTimeout (p : Nat)
  | delayStale (p : Nat)
  /-- `residual`: pin stamp minus compensated stamp of the probe, in 2^-16 ns, as the PMA measures it (R260). -/
  | probeTx (p : Nat) (residual : Int)
  | probeRx (p : Nat) (octets : List Byte) (residual : Int)
  | calStart
  | calResult
  | cxmEnum (c : Nat)
  | enumerationDone (c : Nat) (dev : CxlDevice)
  /-- A failed read at port `c`: poison or an error completion, or no response within 100 µs. -/
  | cxlReadFail (c off : Nat) (poison : Bool)
  | cxlLinkDown (c : Nat)
  | cxmEntryWrite (off : Nat) (data : Word)
  | delayRecordWritten (line : Nat) (ok : Bool)
  | delayRecordFetch (line : Nat)
  | delayRecordDue (line : Nat)
  | dmaDoorbell (ch : Nat) (tail : Nat)
  | descriptorFetch (ch : Nat)
  | cqSlotFree (ch tail : Nat)
  | dmaBurst
  | beatError (ch : Nat)
  | descriptorComplete (ch : Nat) (readBackOk : Bool)
  | dmaPause (ch : Nat)
  | dmaPaused (ch : Nat)
  | dmaResume (ch : Nat)
  | dmaChannelDisable (ch : Nat)
  | perstnAssert
  | pcieHotReset
  | flr (fn : Nat)
  | hifVfDmaWrite (v : Nat) (data : Word)
  | mailboxDoorbell (fn : Nat)
  | commandDispatch
  | identify
  | stateSet
  | checkpointConfig
  | roleReport
  | resetWarm
  | warmReset
  | warmResetDone
  | blockReset
  | blockResetDone
  | powerState
  | standbyEntryPhase
  | hostWake
  | wakeTimer
  | standbyExitDone
  | measure
  /-- A dword write: access path, issuing function, offset as received, data, and byte enables (15 all set). In DMA
  region 0x4 `fn` is the channel whose page is written. -/
  | registerWrite (space : Space) (fn addr : Nat) (data : Word) (be : Nat)
  | rcRead (fn addr : Nat) (space : ReadSpace := .bar0)
  /-- A write of 1 to lock bit `bit` of REG lock register `reg` (0 SYS, 1 ENG, 2 PORT_L, 3 PORT_H). -/
  | lockSet (reg bit : Nat)
  /-- A pass of the scrubber with the copies that it finds upset, and the upsets that strike after it. -/
  | triplicateScrub (upsets : List TripUpset) (later : List TripUpset := [])
  | wideReadStart (addr : Nat)
  | wideCaptureDone
  | wideReadLastWord
  | wideReadRelease
  | aliveToggle
  | aliveStopIdle
  /-- ROLE_ACTIVE changes and keeps its new level for `stableNs` ns (R347). -/
  | roleActiveRise (stableNs : Nat := 100)
  | roleActiveFall (stableNs : Nat := 100)
  | checkpointCapture
  | checkpointWriteDone (ok : Bool)
  | takeoverHeadersRead
  | takeoverBodyLoaded
  | takeoverTimeout
  | takeoverPlacementDone
  /-- A write to FLT_CAUSE register `i`. -/
  | faultCauseClear (i : Nat) (data : Word)
  | fltForce (data : Word)
  | firstRearm
  | irqHoldoffEnd
  /-- Readings of the six rails: voltage in units of 100 µV and current in units of 100 mA. -/
  | supplySample (readings : List (Nat × Nat))
  /-- Readings of the sensors, in °C, by sensor number. -/
  | thermalSample (readings : List (Nat × Int))
  /-- The power monitor's sum over 1 ms, in W. -/
  | powerSample (watts : Nat) (rails : List (Nat × Nat) := [])
  /-- The move of the target that the smallest timing margin asks for (-1 down, 0 none, 1 up), whether that margin
  is below the low threshold, and whether the AVSBus transactions answered. -/
  | avsIteration (move : Int) (low : Bool) (answered : Bool) (failures : Nat := 3)
  | avsRetry (answered : Bool)
  | bistRun
  | bistWaveStart (baseline : Nat)
  | bistWaveDone (ends : List UnitEnd)
  | bistRunDone
  | bistResult
  | fuseBurn
  | fuseBurnDone (readBacks : List Bool)
  | keyLoad
  | keyClear
  | tapInstruction (i : TapInstr)
  | scanUnlock (value : Nat)
  | scanOpen
  | scanChainsConnect
  | lifecycleAdvance
  /-- `failed`: the CXL ports whose wipe failed. -/
  | lifecycleWipeDone (failed : List Nat)
  | wakeFilterEntryWrite (off : Nat) (data : Word)
  | plcaBeaconLoss (t : Nat)
  | beaconRx (fromE : Bool) (octets : List Byte)
  | perstnRelease
  | pcieLinkDown
  /-- The link trains at generation `gen` (1 for 2.5 GT/s to 6 for 64 GT/s) and `width` lanes (R295). -/
  | pcieLinkUp (gen : Nat := 6) (width : Nat := 16)
  | pcieUncorrectableError (bit : Nat) (fn : Nat := 0)
  | pcieConfigurationWrite (w : CfgWrite)
  | msixVectorUnmask (fn vec : Nat)
  | fltCauseRead (i : Nat)
  | wakeOutFall
  deriving DecidableEq, Repr

end Sys2Proof
end

