-- ==== Sys2Proof/Config.lean ====
section
/-! DEFINITION. What one implementation fixes, and the free values: constants without a body, so that no proof can
see a value of them. Each is named in the assumption log. -/

namespace Sys2Proof

/-- FREE VALUE (log 4): the hardware random source of R64 and R222, and the NONCE that R211 draws at RING_JOIN.
The argument is the draw number that `State.draws` counts. -/
opaque Config.random : Nat → BitVec 32

/-- FREE VALUE (log 5): the residual error of a port island's replica of network time after a correction, in units of
2^-32 ns. R18 bounds it by 0.5 ns; the model clips the constant to that bound. -/
opaque Config.replicaError : Nat → BitVec 32

/-- FREE VALUE (log 6): the AVSBus status code of a failed transaction, which the manual leaves to the AVSBus specification
(R389), by the number of the failure. -/
opaque Config.avsStatus : Nat → BitVec 4

/-- FREE VALUE (log 7): contents of a memory the manual leaves unstated while a BIST group's test patterns stand in it
(R397). -/
opaque Config.testPattern : Nat → BitVec 32

/-- FREE VALUE (log 21): the time in ns that the checks of a MIX_COMMIT take; R195 bounds it by 2 ms, and the model clips the
constant to that bound. -/
opaque Config.commitNs : Nat → BitVec 32

/-- FREE VALUE (log 30): the residual of a probe that arrives, pin stamp minus compensated stamp in 2^-16 ns, where the row that brings the probe
does not carry the measurement (R260). -/
opaque Config.probeResidual : Nat → BitVec 32

/-- FREE VALUE (log 31): a byte of raw stage memory or of an engine store that no raw write has set and that holds no sample
of a context: the manual gives neither the cells' order nor what unallocated blocks hold (R277). -/
opaque Config.rawByte : Nat → BitVec 8

/-- FREE VALUE (log 32): how many bytes of a CXL port's mapped range a life-cycle wipe has set to zero when a write of it fails
(R408), by the number of the draw. -/
opaque Config.wipedBytes : Nat → BitVec 37

/-- FREE VALUE (log 65): how many of the codewords that a port has received since its FEC counters were last brought up to date
were corrected, or proved uncorrectable (R70), by the number of the draw; the model clips it to the codewords that the line
carried, and no row of the table tells of a codeword. -/
opaque Config.fecCodewords : Nat → BitVec 64

/-- FREE VALUE (log 65): a port's FEC had uncorrectable codewords in the last 1 ms (R69), by port and local time. -/
opaque Config.fecDegraded : Nat → Nat → Bool

/-- FREE VALUE (log 61): the load of a CXL port over the last 1 ms in percent of its usable bandwidth (R294), by port, by
direction (0 write, 1 read) and local time; the model clips the constant to 100. -/
opaque Config.cxlLoad : Nat → Nat → Nat → BitVec 8

end Sys2Proof
end

