-- ==== Sys2Proof/Machine/State.lean ====
section
/-! DEFINITION. The state of the block as plain data. Register fields live in `regs` (a sparse map from the key of
a field, 32 times its register's canonical BAR0 offset plus its lowest bit, to its value; an unlisted field reads its
reset value), table entries in `tabs` (a sparse map from BAR2 dword
number to dword; an unlisted dword reads zero). What the manual gives the device besides registers and tables is held
in the structures below. Local device time is counted in 1/1,600 ns (an octet at 800 Gb/s is 16 of them, a core cycle
1,000, a tick of the 1 GHz tick 1,600, a control-island cycle 4,000); network time in units of 2^-32 ns (R240). -/

namespace Sys2Proof.Machine

/-- A sparse map in one canonical form: keys strictly rising, no entry equal to what an unlisted key reads as. -/
abbrev SMap (α : Type) := List (Nat × α)

/-- The access codes of R11 and R331; a suffix d, l or t marks the manual's D, L and T. -/
inductive Access where
  | ro
  | rw
  | rwd
  | rwl
  | rwt
  | rwdl
  | rwdt
  | rwlt
  | rwdlt
  | w1c
  | wo
  | rc
  deriving DecidableEq, Repr

/-- A register field: canonical BAR0 offset of its register for unit 0 and index 0, stride from unit to unit and from
index to index, its bits, its reset value and its access code. -/
structure Field where
  addr : Nat
  us : Nat
  st : Nat
  hi : Nat
  lo : Nat
  rst : Nat
  acc : Access
  deriving DecidableEq, Repr

/-- A register of a window: its offset there, the stride and number of its instances, and its fields. -/
structure RegInfo where
  off : Nat
  st : Nat
  n : Nat
  fields : List Field
  deriving DecidableEq, Repr

/-- The three parts of R1, fixed by fuses. -/
inductive Variant where
  | zt5120
  | zt2560
  | zt1280
  deriving DecidableEq, Repr

/-- The five operating states of R28 and R31. -/
inductive OpState where
  | startup
  | test
  | operational
  | recovery
  | safe
  deriving DecidableEq, Repr

/-- Where the reset sequence stands (R27, R434): held in reset, wiping after release, or running in an operating
state. -/
inductive Phase where
  | held
  | wiping
  | running
  deriving DecidableEq, Repr

/-- One repair of R399: an engine island (or a port island), the logical unit, the physical island serving. -/
structure Repair where
  engine : Bool
  logical : Nat
  physical : Nat
  deriving DecidableEq, Repr

/-- The fuses (R5, R374, R399, R402, R405); `portMap` and `engineMap` give the physical island that serves a logical port
island or engine island from manufacture on (an unlisted one: the island of the same number), and a repair overrides them. -/
structure Fuses where
  variant : Variant
  portMap : SMap Nat
  engineMap : SMap Nat
  lifecycle : Nat
  owner : Nat
  serial : Nat
  repairs : List Repair
  recordsUsed : Nat
  deriving DecidableEq, Repr

/-- The pool a frame's cells belong to (R139). -/
inductive Pool where
  | ingress
  | mix
  | dma
  | control
  deriving DecidableEq, Repr

/-- When a mixed copy must have begun (R120): the deadline port, period and phase of its sum, the number of the window that
built it, and the sum's next deadline instant in ns as the Sentences now stand. -/
structure MixDue where
  port : Nat
  period : Nat
  phase : Nat
  k : Nat
  next : Nat
  deriving DecidableEq, Repr

/-- A frame in stage memory: octets from DA to the last before the FCS, the recognised tags of R46, the cells it
holds, and the number of uses that still need them (R149), whether a parity error spoils
it (R21), whether its samples are to be unpacked (R159), of a copy in a panel port's buffer the frame it was copied from, of a received
frame the gates that each port applied when its last byte arrived (R83), and of a mixed frame in a panel port's buffer the engine
island that built it and when it must have begun (R120). -/
structure Frame where
  id : Nat
  port : Nat
  octets : List Byte
  pool : Pool
  island : Nat
  cells : Nat
  arrival : Nat
  tagged : Bool
  tci : Nat
  rtag : Option Nat
  uses : Nat
  parity : Bool
  unpack : Bool
  source : Option Nat := none
  gates : List Nat := []
  due : Option (Nat × MixDue) := none
  deriving DecidableEq, Repr

/-- Where a queued copy comes from (R129): a forwarded copy, a mixed frame of an output group with its engine island and
the deadline instant it must begin before, a DMA-built frame of a channel, a delay-line record, or a link-local control
frame of a kind. -/
inductive Origin where
  | forwarded
  | mixed (group island : Nat) (due : MixDue)
  | host (ch : Nat)
  | replay (line : Nat)
  | control (kind : Nat)
  deriving DecidableEq, Repr

/-- A copy of a frame on its way to an egress port, or queued there: the tag actions and values of its ESH, its length
after editing counting the FCS, and when it was enqueued. -/
structure Copy where
  id : Nat
  fid : Nat
  port : Nat
  tc : Nat
  subq : Nat
  vlanAct : Nat
  tci : Nat
  rtagAct : Nat
  seq : Option Nat
  da : Option Nat
  setDei : Bool
  len : Nat
  cells : Nat
  origin : Origin
  enq : Nat
  enqNs : Nat
  cycle : Option Nat
  readDone : Bool
  deferred : Bool
  held : Bool
  deriving DecidableEq, Repr

/-- A sub-queue's dynamic state (R136, R138): frames oldest first, the finish tag of the head in 2^-16 octet per unit
weight, the token count in 1/1,600,000,000 bit and the local time it stands for. -/
structure SubQ where
  q : List Copy
  tag : Nat
  tokens : Int
  at' : Nat
  deriving DecidableEq, Repr

/-- The frame in transmission on a port: the copy, its edited octets, when it began, when its last octet and gap end,
the octets of it already sent in earlier fragments, whether all that is left leaves now, the fragment count that a
continuation fragment carries (R44), whether it must end with an invalid FCS (R21), and whether its gate closed under it
(R118). -/
structure Tx where
  copy : Copy
  octets : List Byte
  begin' : Nat
  stop : Nat
  sent : Nat
  whole : Bool
  frag : Nat
  badFcs : Bool
  overrun : Bool
  deriving DecidableEq, Repr

/-- A pre-empted frame's Ellipsis, with the fragment count that its next fragment carries (R44). -/
structure Ellipsis where
  copy : Copy
  octets : List Byte
  sent : Nat
  frag : Nat
  badFcs : Bool
  deriving DecidableEq, Repr

/-- The frame that a pMAC is reassembling (R44), and the local time of its time-stamp point, after its SMD-S (R247). -/
structure Partial where
  frameNo : Nat
  count : Nat
  octets : List Byte
  point : Nat
  deriving DecidableEq, Repr

/-- A width change under the shed exchange (R59 to R62): the sequence, target width in lanes, instant in ns, Reason,
whether this port requested it, whether it is agreed, whether it is the forced widening of R62. -/
structure Shed where
  seq : Nat
  width : Nat
  instant : Nat
  reason : Nat
  requester : Bool
  agreed : Bool
  forced : Bool
  deriving DecidableEq, Repr

/-- A PTP, Pdelay or probe exchange's four stamps in 2^-16 ns. -/
structure Stamps where
  t1 : Int
  t2 : Int
  t3 : Int
  t4 : Int
  deriving DecidableEq, Repr

/-- A stamp of a probe: the probe's number, its pin stamp in 2^-16 ns, and how many width changes and steps had gone before
(R249). -/
structure PinStamp where
  seq : Nat
  at' : Int
  side : Nat
  deriving DecidableEq, Repr

/-- A Pdelay exchange that this port started (R257): its sequenceId, the local time it falls incomplete, t1, t2 and t4 as
they become known, and the sides of t1 and t4 (R249). -/
structure PdOpen where
  seq : Nat
  until' : Nat
  t1 : Option Int
  t2 : Option Int
  t4 : Option Int
  side : Nat
  side4 : Nat
  deriving DecidableEq, Repr

/-- A network port's time-stamp unit state beside its TSU registers (R253 to R262): sequence numbers, exchanges kept, newest
first, delays averaged, own and partner's probe stamps, local times of the last accepted results, the residual of the
probe that is due, the local time of the last pin stamp sent, whether its next probe carries STEPPED, the RX_SEQ of the
partner's last STEPPED probe, the count of width changes and steps with the local times of the latest, and the sides of t2 of
the Pdelay_Resps not yet sent, by frame. -/
structure TsuDyn where
  syncSeq : Nat
  pdSeq : Nat
  pdOpen : Option PdOpen
  pdHist : List Stamps
  pdMeans : List Int
  pdDelay : Int
  pdLast : Nat
  prSeq : Nat
  prSent : List PinStamp
  prGot : List PinStamp
  prLastRx : Option Nat
  prLastTx : Option Nat
  prHist : List Stamps
  prDelays : List Int
  prDelay : Int
  prAccepted : Nat
  prLast : Nat
  prResid : Int
  stepped : Bool
  partnerStep : Option Nat
  side : Nat
  sides : List Nat
  resps : List (Nat × Nat)
  deriving DecidableEq, Repr

/-- A network port's Sentence state beside its SEN registers (R101, R108, R110): change time C and the instant at which
SENTENCE_ARM fixed it, C of the operative Sentence, the start of the last cycle taken up, and the last Clause start taken
up, all in ns of network time; the starts of the latest two cycles in which a parity error of an operative Clause was
counted. -/
structure SenDyn where
  change : Nat
  armed : Nat
  operC : Nat
  cycle : Nat
  clause : Nat
  faulty : List Nat
  deriving DecidableEq, Repr

/-- A network port's dynamic state beside its registers (`shed` is the width change asked for or agreed, `shedPrior` one agreed
for an earlier instant, `shedNow` the width in lanes of the change that is under way, `fecAt` the local time to which the FEC
counters are brought up): the control queue, the Concord and probe frames that are due
(R132), the gates in force since the credits were last brought up to date, the queues by class * 1,024 + sub-queue, and
by class the virtual time, the credit in 1/1,600,000,000 bit with its local time, the occupancy in cells, flow control
and the samples; the frame in transmission and the Ellipsis; the residuals of the port
island's replicas of network time and of ring time in 2^-32 ns. -/
structure PortDyn where
  ctrl : List Copy
  due : List Copy
  gates : Nat
  subqs : SMap SubQ
  vtime : SMap Nat
  credit : SMap (Int × Nat)
  occupancy : SMap Nat
  tx : Option Tx
  ellipsis : Option Ellipsis
  rxPart : Option Partial
  rxBegan : Option Nat
  verifyTries : Nat
  verifyDue : Option Nat
  pauseEnd : SMap Nat
  pauseFrom : SMap Nat
  ignoreFc : List Nat
  lowRun : Nat
  shed : Option Shed
  shedPrior : Option Shed
  shedNow : Option Nat
  shedSeq : Nat
  doneAt : Option Nat
  standbyWidth : Nat
  partnerTtl : Option Nat
  ingHeld : Nat
  sampleCount : SMap Nat
  depthLast : SMap Nat
  depthMax : SMap Nat
  delayLast : SMap Nat
  delayMax : SMap Nat
  delaySum : SMap Nat
  delayCount : SMap Nat
  sen : SenDyn
  tsu : TsuDyn
  fecAt : Nat
  replica : Int
  ringReplica : Int
  deriving DecidableEq, Repr

/-- A port island's pools (R139): cells in use in each pool and cells that a raised pool still has to receive. -/
structure IslandDyn where
  ingUsed : Nat
  mixUsed : Nat
  dmaUsed : Nat
  ctrlUsed : Nat
  mixOwed : Nat
  dmaOwed : Nat
  deriving DecidableEq, Repr

/-- What a crossing carries (R14). -/
inductive Cargo where
  | descriptor (fid : Nat)
  | copy (c : Copy)
  deriving DecidableEq, Repr

/-- A transfer on the crossing from island `src` to island `dst`, and the local time it is delivered (R14, R17). -/
structure Transfer where
  src : Nat
  dst : Nat
  due : Nat
  cargo : Cargo
  deriving DecidableEq, Repr

/-- A descriptor at the classifier: the frame, its ingress port, and the core cycle in which it was delivered (R73). -/
structure Arrived where
  fid : Nat
  port : Nat
  cycle : Nat
  deriving DecidableEq, Repr

/-- A flow meter's tokens in 1/1,024 octet and the local time to which they are refilled (R85). -/
structure MeterDyn where
  c : Nat
  e : Nat
  last : Nat
  deriving DecidableEq, Repr

/-- A recovery function's history (bit i set: RECOV_SEQ − i seen), the local time its reset timer ends, and the latent
window counts (R90 to R93). -/
structure RecDyn where
  history : Nat
  timer : Option Nat
  accepted : Nat
  discarded : Nat
  latent : Bool
  deriving DecidableEq, Repr

/-- An unpacking that waits: the frame, the binding range, the network time of the frame's last byte (R157), and the local time at
which the samples reach the engine islands (R14). -/
structure Unpack where
  fid : Nat
  base : Nat
  count : Nat
  arrival : Nat
  due : Nat
  deriving DecidableEq, Repr

/-- A video packet that waits to be written to a picture store (R273). -/
structure VideoJob where
  fid : Nat
  input : Nat
  deriving DecidableEq, Repr

/-- A delay-line capture that waits to be written (R274). -/
structure Capture where
  fid : Nat
  line : Nat
  arrival : Nat
  deriving DecidableEq, Repr

/-- An allocated channel context (R156, R158, R193): its ring slots (sample and lap tag), FRESH, and the media indices that
a cutoff has found absent (R159). -/
structure CtxDyn where
  slots : SMap (Int × Nat)
  fresh : Nat
  absentRead : List Nat
  deriving DecidableEq, Repr

/-- A picture in a store's slot (R160, R273): its RTP timestamp, the pgroups received of each row as a bit set, the marker,
and whether it is complete. -/
structure Picture where
  slot : Nat
  ts : Nat
  rows : SMap Nat
  marker : Bool
  complete : Bool
  deriving DecidableEq, Repr

/-- What a tile shows in one output picture (R168, R169): its sum, the picture, the tile's dwords as they were chosen, and
the sources: gain, video input, and the slot used (none: black). -/
structure TileChoice where
  sum : Nat
  tile : Nat
  picture : Nat
  entry : List Nat
  sources : List (Int × Nat × Option Nat)
  deriving DecidableEq, Repr

/-- A frame that a batch has built (R176, R177): output group, its window and period start, bank, octets before the FCS. -/
structure Built where
  group : Nat
  k : Nat
  bank : Nat
  octets : List Byte
  deriving DecidableEq, Repr

/-- Where a batch stands (R172). -/
inductive BatchStage where
  | fixed
  | cut
  | running
  | done
  deriving DecidableEq, Repr

/-- A sum or a tile of a batch: its index, the sum it serves, the window and the bank. -/
structure Member where
  idx : Nat
  sum : Nat
  k : Nat
  bank : Nat
  deriving DecidableEq, Repr

/-- A source row in a tile's buffer (R161): the tile, the video input, the slot of its store, the row, the crop's first pixel and
width, and its octets. -/
structure RowBuf where
  tile : Nat
  input : Nat
  slot : Nat
  row : Nat
  left : Nat
  width : Nat
  octets : List Byte
  deriving DecidableEq, Repr

/-- A batch (R172): engine, deadline instant in ns, its sums and tiles, blocks, stage, the samples found present at the
cutoff (context, media index, sample); of the sums at its deadline instant those that produce no output, those of them that
are late (R175) and those that count nothing (R159); of its video sums the tiles without their rows and the rows of the
others; the end of the allotment in ns, and the frames it built. -/
structure Batch where
  e : Nat
  d : Nat
  sums : List Member
  tiles : List Member
  blocks : Nat
  stage : BatchStage
  inputs : List (Nat × Int × Int)
  silent : List Nat
  late : List Nat
  quiet : List Nat
  black : List Nat
  rows : List RowBuf
  allotEnd : Nat
  built : List Built
  deriving DecidableEq, Repr

/-- A placement (R178): the engine of each sum and of each tile. -/
structure Placement where
  sums : List (Nat × Nat)
  tiles : List (Nat × Nat)
  deriving DecidableEq, Repr

/-- A sum or tile of a bank that rebalancing has moved (R26, R179): the engine that still computes its windows which began before
`since` ns. -/
structure Moved where
  bank : Nat
  tile : Bool
  idx : Nat
  engine : Nat
  since : Nat
  deriving DecidableEq, Repr

/-- A mix commit that awaits its activation (R197): A_eff in ms, its bank, its placement, whether the placement has
been loaded into the engine islands. -/
structure Commit where
  aeff : Nat
  bank : Nat
  place : Placement
  loaded : Bool
  deriving DecidableEq, Repr

/-- Cells of a Mix pool that an output group has reserved (R139, R141, R199): its group, port island, cells, deadline port,
period and phase, and, once its bank is the old one, the ns after which its next deadline instant returns them. -/
structure Reserve where
  bank : Nat
  group : Nat
  island : Nat
  cells : Nat
  port : Nat
  period : Nat
  phase : Nat
  old : Option Nat
  deriving DecidableEq, Repr

/-- The mix fabric beside its registers and tables: the pending commit; the placements of the banks; whether a bank has been
activated, and whether the operative one lacks a placement (R357); A_eff of the last activation, the end of a drain in ns,
the last commit's reason and status; the moves whose old windows may last; reservations; allocated contexts and the store blocks of contexts (by index) and of
tiles (by 2^20 plus 2^16 times the bank plus the index); batches, the windows whose cutoff has decided that they are not computed
(sum, window, deadline instant), row fetches done (tile, deadline instant, the CXL ports that were mapped then), what waits
to be unpacked or stored; pictures by video input; choices; and the old gains (sum, context, gain) while a ramp runs. -/
structure MixS where
  pending : Option Commit
  placed : SMap Placement
  activated : Bool
  unplaced : Bool
  lastAeff : Nat
  drainEnd : Option Nat
  lastReason : Nat
  lastStatus : Nat
  moved : List Moved
  reserved : List Reserve
  ctxs : SMap CtxDyn
  store : SMap (List Nat)
  batches : List Batch
  decided : List (Nat × Nat × Nat)
  fetched : List (Nat × Nat × List Nat)
  unpack : List Unpack
  video : List VideoJob
  pictures : SMap (List Picture)
  choices : List TileChoice
  ramp : Option (List (Nat × Nat × Int))
  deriving DecidableEq, Repr

/-- A sync frame as received (R211, R225): sender, FLAGS, precedence, CYCLE; ORIGIN, CORRECTION, the link delay of the
arrival port, its deviation and its ingress stamp in ring time, all in 2^-16 ns. -/
structure SyncRec where
  sender : Nat
  flags : Nat
  precedence : Nat
  cycle : Nat
  origin : Nat
  correction : Int
  delay : Int
  dev : Int
  arrival : Int
  deriving DecidableEq, Repr

/-- A command slot of the train (R236, R237): its fields as the train carries them, and the round in which the manager
filled it. -/
structure Slot where
  state : Nat
  target : Nat
  seq : Nat
  words : List Nat
  since : Nat
  deriving DecidableEq, Repr

/-- The ring beside its registers. `rt` is ring time in 2^-32 ns as RATE and STEER advance it, with what is left of it in
1,600ths of a unit, `slew` the correction that
the last 10 µs of the cycle add; `cycle` and `round` were the last taken up. Then: the terms for the next cycle and the
one published, the membership and its counts (`listenFrom` is the first cycle spent whole in LISTEN without a sync frame), the sync frames of this cycle and the last, what was applied, the round's
train as a worker and as the manager sees it, the contributions, the command slots, the requests taken as a
target and the answers that wait, each with its slot and SEQ, the whole rounds for which the ring ports have been quiet or up, the
ports (true: PORT_E) heard, and down, in this round, whether its beacons are sent, the contribution entries as they stood when the
round began (R217: channel, context, gain), the last cycle in whose slot the node sent, the local time before which no frame
that starts arriving is forwarded (R216), whether the last train was folded, the manager from which a split parted the node (R233),
and whether a frame of this round's circuit 1 passed while the node was not OPERATIONAL (R362). -/
structure ConS where
  hasTime : Bool
  rt : Int
  rest : Int
  slew : Int
  cycle : Nat
  round : Nat
  nonce : Nat
  rateNext : Option Int
  steerNext : Option Int
  steerPub : Int
  listenFrom : Nat
  backoff : Nat
  csStart : Nat
  answered : Bool
  collectEnd : Option Nat
  collected : List SyncRec
  adopted : Option Nat
  activeNext : Bool
  integrateNext : Bool
  inLimit : Nat
  seen : List Nat
  accepted : List SyncRec
  rejected : Nat
  prev : List SyncRec
  prevO : Int
  applied : Int
  wasActive : Bool
  closed : Bool
  silence : Nat
  noPeer : Nat
  peerHeard : Bool
  dupHold : Bool
  leaving : Bool
  trainMissed : Nat
  trainSeen : Bool
  steerTaken : Bool
  mgrRef : Option (Nat × Nat)
  mgrLast : Option (Nat × Nat)
  wrapSeen : Bool
  yielding : Bool
  launchTime : Option Nat
  doneAdd : List Nat
  doneRead : List Nat
  back0 : List Nat
  back1 : List Nat
  overrun : Bool
  body : List Byte
  contrib : SMap (List Int)
  slots : List Slot
  slotSeq : Nat
  remote : List (Nat × List Nat)
  answers : List (Nat × List Nat)
  quietW : Nat
  quietE : Nat
  upW : Nat
  upE : Nat
  heard : List Bool
  downed : List Bool
  beaconSent : Bool
  entries : List (Nat × Nat × Int)
  slotDone : Option Nat
  resumeAt : Nat
  folded : Bool
  splitFrom : Option (Nat × Nat)
  readOff : Bool
  deriving DecidableEq, Repr

/-- A two-step Sync that awaits its Follow_Up (R254): sequenceId, receive stamp, correctionField, local time of arrival,
and the port's count of width changes and steps. -/
structure SyncWait where
  seq : Nat
  rx : Int
  corr : Int
  at' : Nat
  side : Nat
  deriving DecidableEq, Repr

/-- A step that waits for its microsecond (R243): the instant in ns, MODE, seconds and nanoseconds. -/
structure StepWait where
  at' : Nat
  mode : Nat
  secs : Nat
  ns : Nat
  deriving DecidableEq, Repr

/-- An end of an even advance of network time: its local time, network time there in 2^-32 ns, the increment before it. -/
structure TimeMark where
  lt : Nat
  nt : Nat
  inc : Nat
  deriving DecidableEq, Repr

/-- Network time and the pins it drives (R240 to R246): the counter with what is left of it in 1,600ths of its last bit, the
increment, and until which local time the one before it still counts (R241); `slewLeft` counts 1,600ths of a tick; `past` are the
marks of the last millisecond, oldest first; `syncFrom` is when TIMEOUT began to run before any Sync (R255). -/
structure TimeS where
  nt : Nat
  rest : Nat
  inc : Nat
  oldInc : Nat
  oldUntil : Nat
  past : List TimeMark
  tempInc : Nat
  slewLeft : Nat
  step : Option StepWait
  ppsFall : Option Nat
  ppsInTime : Nat
  ppsInNew : Bool
  offsets : List Int
  lastSync : Option Nat
  syncFrom : Nat
  twoStep : Option SyncWait
  rxRecord : Nat
  deriving DecidableEq, Repr

/-- A DMA descriptor as fetched (R280). -/
structure Desc where
  index : Nat
  prio : Nat
  irq : Bool
  cmpConst : Bool
  op : Nat
  tag : Nat
  inner : Nat
  middle : Nat
  outer : Nat
  src : Nat
  dst : Nat
  srcM : Int
  srcO : Int
  dstM : Int
  dstO : Int
  fill : Nat
  deriving DecidableEq, Repr

/-- A DMA channel beside its registers (R280, R285, R287 to R290): the descriptor it runs, loop-order bytes done, those
confirmed good, its end status and flags, PHASE, the bytes of the frame being built with the cells held for it and their
island, and whether it waits for a write to TAIL. -/
structure ChDyn where
  desc : Option Desc
  done : Nat
  good : Nat
  status : Option Nat
  mismatch : Option Nat
  discarded : Bool
  phase : Bool
  row : List Byte
  building : Bool
  cells : Nat
  island : Nat
  stalled : Bool
  deriving DecidableEq, Repr

/-- A CXL port beside its registers (R267 to R270): mapped bytes, units of 64 bytes known to be poisoned, units whose failed read
CXL_READ_FAIL has reported and no requester has met yet, the memory device's contents at listed addresses, the local time at which
CXLc_PERSTn is released, low while there is none (R433), and the local times of the last read and the last write (R294). -/
structure CxlPort where
  mapped : Nat
  poison : List Nat
  late : List Nat
  mem : List Host.Cell
  perstAt : Option Nat
  readAt : Option Nat
  writeAt : Option Nat
  deriving DecidableEq, Repr

/-- A delay line beside its entry (R274, R275): the records read into cells, each with its frame and due time in ns, the
slot of the oldest record that is still to be read, and how many records are to be read from there on. -/
structure LineDyn where
  staged : List (Nat × Nat)
  next : Nat
  left : Nat
  deriving DecidableEq, Repr

/-- The sequencer's command (R310): source (0 PF, 1 to 15 VF, 16 remote), request words, whether its response is to be
discarded (R317). -/
structure Cmd where
  src : Nat
  words : List Nat
  discard : Bool
  deriving DecidableEq, Repr

/-- The PCIe side of the functions (R295, R299): the generation and width of the link (0 while it is down), by function the
largest payload and read request, the AER uncorrectable status by function and bit, the base addresses (key `barKey`), and the
address and data of the MSI-X table's entries (key `vecKey`). -/
structure PcieS where
  gen : Nat
  width : Nat
  sizes : SMap (Nat × Nat)
  aer : List (Nat × Nat)
  bars : SMap Nat
  msix : SMap (Nat × Nat)
  deriving DecidableEq, Repr

/-- The host island (R295 to R318): waiting requests by source, the command in execution, parked commands, rotation
position, MSI-X enables, unmasked vectors and pending bits by function and vector, the vectors sent, SR-IOV, and the link. -/
structure HostS where
  waiting : SMap (List Nat)
  cur : Option Cmd
  parked : List Cmd
  last : Nat
  msixEnable : List Nat
  unmasked : List (Nat × Nat)
  pendingVec : List (Nat × Nat)
  sent : List (Nat × Nat)
  vfEnable : Bool
  numVfs : Nat
  d3 : List Nat
  linkUp : Bool
  perst : Bool
  answering : Bool
  readData : Nat
  mem : List Host.Cell
  pcie : PcieS
  deriving DecidableEq, Repr

/-- The wide-read window (R340): the address of the capture in progress, and the words held. -/
structure WideS where
  busy : Option Nat
  words : List Nat
  deriving DecidableEq, Repr

/-- A history record (R370). -/
structure HistRec where
  ts : Nat
  first : Bool
  lostBefore : Bool
  sameCycle : Bool
  sev : Nat
  src : Nat
  info : Nat
  cycle : Nat
  deriving DecidableEq, Repr

/-- The fault collector beside its registers (R366 to R372). `seen` holds the sources whose cause bit a read has
returned since it was set, `last` the control-island cycle of each source's last event, plus one (R368). -/
structure FltS where
  history : List HistRec
  first : Option HistRec
  lost : Bool
  seen : List Nat
  holdEnd : Option Nat
  during : Bool
  last : SMap Nat
  deriving DecidableEq, Repr

/-- The three power states of R380. -/
inductive PowerState where
  | run
  | doze
  | standby
  deriving DecidableEq, Repr

/-- The PWR block beside its registers (R376 to R390): the transition that runs with its next phase and start, the warm and the
block reset, a block reset that waits for a warm reset's end (R378), the state that an accepted STATE_SET takes after the automatic
transitions of its cycle (R33), the exit that waits, WAKE_OUT, the consecutive out-of-window supply samples, armed thermal sources,
AVS stops, failed transactions in a row, samples of low margin in a row and whether PWR_AVS_MARGIN was raised for them. -/
structure PwrS where
  state : PowerState
  entry : Option (Nat × Nat)
  exit : Option Nat
  wakeOut : Option Nat
  warnRun : List Nat
  failRun : List Nat
  warmAt : Option (Bool × Nat)
  warmRun : Option (Bool × Nat)
  blockRun : Option (Nat × Nat × Nat)
  blockWait : Bool
  setAfter : Option OpState
  s3Wait : Bool
  avsTarget : Int
  avsFails : Nat
  avsRow : Nat
  avsLowRun : Nat
  avsTold : Bool
  thermWarn : Bool
  thermCrit : Bool
  watts : Nat
  deriving DecidableEq, Repr

/-- A checkpoint write in progress (R353): slot, FINAL flag, capture time in ns, and the sections captured, by slot offset. -/
structure CkptWrite where
  slot : Nat
  final : Bool
  cap : Nat
  image : List (Nat × List Byte)
  deriving DecidableEq, Repr

/-- A takeover in progress (R356): the network time in ns at step 1, the local time at which the level was taken, the usable
slots whose bodies are still to be read, best first, and whether a usable slot has been found. -/
structure Takeover where
  nt : Nat
  since : Nat
  slots : List Nat
  found : Bool
  deriving DecidableEq, Repr

/-- The mirror pair beside its registers (R345 to R360): the filtered level of ROLE_ACTIVE, the level of ALIVE and the local
time of its next edge, the idles of R346, whether the control island's heartbeat is missing, the write and the takeover in
progress, takeovers and checkpoints written since power-on (R314), and a placement that runs after release (R357). -/
structure PairS where
  roleLevel : Bool
  alive : Bool
  aliveNext : Option Nat
  forcedIdle : Bool
  hung : Bool
  writing : Option CkptWrite
  takeover : Option Takeover
  takeovers : Nat
  written : Nat
  placing : Bool
  deriving DecidableEq, Repr

/-- A BIST unit of the run's list (R395): group, logical unit (for a spare, its physical island), whether it is a
spare, its state (0 pending, 1 running, 2 passed, 3 failed, 4 aborted, 5 not run). -/
structure BistUnit where
  group : Nat
  unit : Nat
  spare : Bool
  state : Nat
  deriving DecidableEq, Repr

/-- A life-cycle transition in progress (R407): its start, the target, the authorisation value, the CXL ports still to be wiped with the
bytes that were mapped when it was accepted, and the ports whose wipe has failed. -/
structure Transition where
  start : Nat
  target : Nat
  value : Nat
  ports : List (Nat × Nat)
  failed : List Nat
  deriving DecidableEq, Repr

/-- The BST block beside its registers (R393 to R410): the run (local time of its start, REPAIR, start of the wave that runs),
its units in order, waves in a row that fitted nothing, result records by group (words 1 to 13), soft repairs not yet fused,
the spares tried in the run (1 engine or 0 port, logical unit, spare), spares that have failed, the mask, keys by slot, the
failure counts, the TAP, a pending scan opening and how far it is, the life-cycle transition, the units of memory groups that hold test patterns (16 times the group plus the unit) with the number of the
patterns, and the start of a fuse burn with
the repairs that it fuses. -/
structure BstS where
  run : Option (Nat × Bool × Nat)
  units : List BistUnit
  emptyTries : Nat
  results : SMap (List Nat)
  soft : List Repair
  repairOf : List (Nat × Nat × Nat)
  badSpares : List (Bool × Nat)
  mask : Nat
  keys : SMap Nat
  authFails : Nat
  unlockFails : Nat
  unlocked : Bool
  tap : TapInstr
  scanPending : Bool
  scanWiped : Bool
  scanOpen : Bool
  advance : Option Transition
  tested : List Nat
  pattern : Nat
  burning : Option (Nat × List Repair)
  deriving DecidableEq, Repr

/-- Panel port state beside its registers (R63 to R68): the frames of the two queues in the port's own buffer, the frame in
transmission with the local time at which its transmission and gap end (none in back-off), the attempts made, the local
time at which a back-off ends, whether the port waits for carrier, the local time at which the gap after a received frame
ends, the node whose transmit opportunity it is, the frames sent in the present opportunity, and the level of T1S_ED when last
sampled (R438). -/
structure PanelDyn where
  high : List Nat
  low : List Nat
  tx : Option (Nat × Option Nat)
  attempts : Nat
  backoff : Option Nat
  defer : Bool
  gapEnd : Nat
  opportunity : Nat
  burst : Nat
  energy : Bool
  deriving DecidableEq, Repr

/-- A write to SID_UNBLOCK that waits until every frame of its core cycle has been filtered (R84): that cycle, whether it names a
meter, the index. -/
structure Unblock where
  cycle : Nat
  meter : Bool
  index : Nat
  deriving DecidableEq, Repr

/-- A collection of dword writes to one entry (R74, R186, R217, R272): the entry's first dword number and the writes. -/
structure Collect where
  entry : Nat
  writes : List (Nat × Word)
  deriving DecidableEq, Repr

/-- The reset and board pins: the level of TESTMODE, the port groups whose SD_ZCAL ball lacks its resistor (R421), the level of RSTn,
the local time of the last release of the resets (R434), the local time before which no release takes effect (REFCLK has then run for
1 ms, R432), and whether the lanes have calibrated since power-on (R374). -/
structure BoardS where
  testmode : Bool
  noZcal : List Nat
  rstLow : Bool
  released : Nat
  holdUntil : Nat
  calibrated : Bool
  deriving DecidableEq, Repr

/-- What the spec gives the machine, and the queue of waiting commands, oldest first. -/
structure State where
  pending : List Instr
  fuses : Fuses
  lifecycle : Nat
  owner : Nat
  op : OpState
  phase : Phase
  porLow : Bool
  lt : Nat
  time : TimeS
  regs : SMap Nat
  tabs : SMap Word
  sidCol : Option Collect
  mixCol : Option Collect
  conCol : Option Collect
  cxmCol : Option Collect
  bad : List (Nat × Nat)
  flt : FltS
  host : HostS
  wide : WideS
  frames : SMap Frame
  nextId : Nat
  xing : List Transfer
  inbox : List Arrived
  unblocks : List Unblock
  arrived : SMap (List Copy)
  ports : SMap PortDyn
  islands : SMap IslandDyn
  panels : SMap PanelDyn
  meters : SMap MeterDyn
  recs : SMap RecDyn
  captures : List Capture
  lines : SMap LineDyn
  mix : MixS
  con : ConS
  cxl : SMap CxlPort
  raw : SMap Byte
  chans : SMap ChDyn
  lastCh : SMap Nat
  pwr : PwrS
  pair : PairS
  bst : BstS
  board : BoardS
  draws : Nat
  copies : List TripUpset
  deriving DecidableEq, Repr

/-- The reasons a command can fault: none, since the manual gives every command an effect in every state, if only to be
discarded (R6, R29). -/
inductive Fault where
  deriving DecidableEq, Repr

/-- The reasons a command can be refused. -/
inductive Refusal where
  /-- Raised by `exec` for a command whose meaning has not been written. Safe: nothing is claimed of it. -/
  | notModelled (mnemonic : String)
  deriving DecidableEq, Repr

def SenDyn.reset : SenDyn := ⟨0, 0, 0, 0, 0, []⟩

def TsuDyn.reset : TsuDyn :=
  { syncSeq := 0, pdSeq := 0, pdOpen := none, pdHist := [], pdMeans := [], pdDelay := 0, pdLast := 0, prSeq := 0,
    prSent := [], prGot := [], prLastRx := none, prLastTx := none, prHist := [], prDelays := [], prDelay := 0, prAccepted := 0, prLast := 0,
    prResid := 0, stepped := false, partnerStep := none, side := 0, sides := [], resps := [] }

def PortDyn.reset : PortDyn :=
  { ctrl := [], due := [], gates := 0xFF, subqs := [], vtime := [], credit := [], occupancy := [], tx := none, ellipsis := none, rxPart := none, rxBegan := none,
    verifyTries := 0, verifyDue := none, pauseEnd := [], pauseFrom := [], ignoreFc := [], lowRun := 0, shed := none,
    shedPrior := none, shedNow := none, shedSeq := 0, doneAt := none, standbyWidth := 0, partnerTtl := none, ingHeld := 0,
    sampleCount := [], depthLast := [], depthMax := [], delayLast := [], delayMax := [], delaySum := [],
    delayCount := [], sen := SenDyn.reset, tsu := TsuDyn.reset, fecAt := 0, replica := 0, ringReplica := 0 }

def IslandDyn.reset : IslandDyn := ⟨0, 0, 0, 0, 0, 0⟩
def SubQ.reset : SubQ := ⟨[], 0, 0, 0⟩
def PanelDyn.reset : PanelDyn := ⟨[], [], none, 0, none, false, 0, 0, 0, false⟩
def MeterDyn.reset : MeterDyn := ⟨0, 0, 0⟩
def RecDyn.reset : RecDyn := ⟨0, none, 0, 0, false⟩
def LineDyn.reset : LineDyn := ⟨[], 0, 0⟩
def CxlPort.reset : CxlPort := ⟨0, [], [], [], none, none, none⟩
def ChDyn.reset : ChDyn := ⟨none, 0, 0, none, none, false, false, [], false, 0, 0, false⟩

def CtxDyn.reset : CtxDyn := ⟨[], 0, []⟩

def MixS.reset : MixS :=
  { pending := none, placed := [], activated := false, unplaced := false, lastAeff := 0, drainEnd := none,
    lastReason := 0, lastStatus := 0, moved := [], reserved := [], ctxs := [], store := [], batches := [], decided := [], fetched := [],
    unpack := [], video := [], pictures := [], choices := [], ramp := none }

def Slot.free : Slot := ⟨0, 0, 0, [], 0⟩

def ConS.reset : ConS :=
  { hasTime := false, rt := 0, rest := 0, slew := 0, cycle := 0, round := 0, nonce := 0, rateNext := none, steerNext := none,
    steerPub := 0, listenFrom := 0, backoff := 0, csStart := 0, answered := false, collectEnd := none, collected := [],
    adopted := none, activeNext := false, integrateNext := false, inLimit := 0, seen := [], accepted := [], rejected := 0,
    prev := [], prevO := 0, applied := 0, wasActive := false, closed := false, silence := 0, noPeer := 0,
    peerHeard := false, dupHold := false, leaving := false, trainMissed := 0, trainSeen := false, steerTaken := false,
    mgrRef := none, mgrLast := none, wrapSeen := false, yielding := false, launchTime := none, doneAdd := [], doneRead := [], back0 := [], back1 := [],
    overrun := false, body := [], contrib := [], slots := List.replicate 8 Slot.free, slotSeq := 0, remote := [], answers := [],
    quietW := 0, quietE := 0, upW := 0, upE := 0, heard := [], downed := [], beaconSent := false, entries := [],
    slotDone := none, resumeAt := 0, folded := false, splitFrom := none, readOff := false }

/-- Network time after power-on or cold reset: 0:000000000 with increment 0x01_0000_0000 (R240). -/
def TimeS.reset : TimeS :=
  { nt := 0, rest := 0, inc := 0x1_0000_0000, oldInc := 0x1_0000_0000, oldUntil := 0, past := [], tempInc := 0x1_0000_0000, slewLeft := 0, step := none, ppsFall := none,
    ppsInTime := 0, ppsInNew := false, offsets := [], lastSync := none, syncFrom := 0, twoStep := none, rxRecord := 0 }

def PcieS.reset : PcieS := ⟨0, 0, [], [], [], []⟩

def HostS.reset : HostS :=
  { waiting := [], cur := none, parked := [], last := 16, msixEnable := [], unmasked := [], pendingVec := [], sent := [],
    vfEnable := false, numVfs := 0, d3 := [], linkUp := false, perst := false, answering := false, readData := 0,
    mem := [], pcie := PcieS.reset }

def FltS.reset : FltS := ⟨[], none, false, [], none, false, []⟩

def PwrS.reset : PwrS :=
  { state := .run, entry := none, exit := none, wakeOut := none, warnRun := [], failRun := [], warmAt := none,
    warmRun := none, blockRun := none, setAfter := none, s3Wait := false, avsTarget := 750, avsFails := 0, avsRow := 0, avsLowRun := 0, avsTold := false, blockWait := false,
    thermWarn := false, thermCrit := false, watts := 0 }

def PairS.reset : PairS :=
  { roleLevel := false, alive := false, aliveNext := none, forcedIdle := false, hung := false, writing := none,
    takeover := none, takeovers := 0, written := 0, placing := false }

def BstS.reset : BstS :=
  { run := none, units := [], emptyTries := 0, results := [], soft := [], repairOf := [], badSpares := [], mask := 0,
    keys := [], authFails := 0, unlockFails := 0, unlocked := false, tap := .bypass, scanPending := false,
    scanWiped := false, scanOpen := false, advance := none, tested := [], pattern := 0, burning := none }

/-- The fuses of the machine's part: a ZT5120 as shipped, BLANK, with no repair (log 3). -/
def Fuses.reset : Fuses := ⟨.zt5120, [], [], 0, 0, 0, [], 0⟩

/-- The board as R421 requires it, with RSTn high and the lanes not calibrated. -/
def BoardS.reset : BoardS := ⟨false, [], false, 0, 0, false⟩

/-- The machine in power-on reset, PORn low: what R374 gives after power-on, before the release of R27. -/
def State.reset : State :=
  { pending := [], fuses := Fuses.reset, lifecycle := 0, owner := 0, op := .startup, phase := .held, porLow := true,
    lt := 0, time := TimeS.reset, regs := [], tabs := [], sidCol := none, mixCol := none, conCol := none,
    cxmCol := none, bad := [], flt := FltS.reset, host := HostS.reset, wide := ⟨none, []⟩, frames := [], nextId := 0,
    xing := [], inbox := [], unblocks := [], arrived := [], ports := [], islands := [], panels := [], meters := [], recs := [],
    captures := [], lines := [], mix := MixS.reset, con := ConS.reset, cxl := [], raw := [], chans := [], lastCh := [],
    pwr := PwrS.reset, pair := PairS.reset, bst := BstS.reset, board := BoardS.reset, draws := 0, copies := [] }

end Sys2Proof.Machine
end

