-- ==== Sys2Proof/Machine/Fields.lean ====
section
/-! DEFINITION. The register fields of the spec's register tables, one constant each, under the spec's names: canonical
BAR0 offset of the register for unit 0, stride from unit to unit and from index to index, bits, reset value and access
code (R11, R331). Written from the tables of R69-R71, R97, R127, R151, R182, R239, R264, R265, R293, R294, R319, R344,
R365, R391, R392 and R411. A mailbox register of function fn is kept at offset fn * 2^24 (R303). -/

namespace Sys2Proof.Machine

-- PRT_CTL (R69)
def F.PRT_CTL.RETRAIN : Field := ⟨0x100000, 0x10000, 0, 8, 8, 0, .wo⟩
def F.PRT_CTL.IFACE : Field := ⟨0x100000, 0x10000, 0, 7, 6, 0, .rwdt⟩
def F.PRT_CTL.MODE : Field := ⟨0x100000, 0x10000, 0, 3, 2, 0, .rwdt⟩
def F.PRT_CTL.LOOPBACK : Field := ⟨0x100000, 0x10000, 0, 1, 1, 0, .rwd⟩
def F.PRT_CTL.ENABLE : Field := ⟨0x100000, 0x10000, 0, 0, 0, 0, .rw⟩
-- PRT_LANE (R69)
def F.PRT_LANE.LANE_MAP : Field := ⟨0x100004, 0x10000, 0, 15, 8, 0xe4, .rwdl⟩
def F.PRT_LANE.TX_POL : Field := ⟨0x100004, 0x10000, 0, 7, 4, 0, .rwdl⟩
def F.PRT_LANE.RX_POL : Field := ⟨0x100004, 0x10000, 0, 3, 0, 0, .rwdl⟩
-- PRT_MAXLEN (R69)
def F.PRT_MAXLEN.MAXLEN : Field := ⟨0x100008, 0x10000, 0, 13, 0, 0x5f2, .rwd⟩
-- PRT_STATUS (R69)
def F.PRT_STATUS.HELD : Field := ⟨0x10000c, 0x10000, 0, 23, 16, 0, .ro⟩
def F.PRT_STATUS.STATE_IDLE : Field := ⟨0x10000c, 0x10000, 0, 9, 9, 0, .ro⟩
def F.PRT_STATUS.FEC_DEGRADED : Field := ⟨0x10000c, 0x10000, 0, 8, 8, 0, .ro⟩
def F.PRT_STATUS.LANE_LOCK : Field := ⟨0x10000c, 0x10000, 0, 7, 4, 0, .ro⟩
def F.PRT_STATUS.WIDTH : Field := ⟨0x10000c, 0x10000, 0, 2, 1, 0, .ro⟩
def F.PRT_STATUS.LINK_UP : Field := ⟨0x10000c, 0x10000, 0, 0, 0, 0, .ro⟩
-- PRT_MM_CTL (R69)
def F.PRT_MM_CTL.PREEMPTABLE : Field := ⟨0x100010, 0x10000, 0, 23, 16, 0x3f, .rwdt⟩
def F.PRT_MM_CTL.VERIFY_TIME : Field := ⟨0x100010, 0x10000, 0, 14, 8, 0xa, .rwd⟩
def F.PRT_MM_CTL.ADD_FRAG : Field := ⟨0x100010, 0x10000, 0, 3, 2, 0, .rwd⟩
def F.PRT_MM_CTL.VERIFY_DIS : Field := ⟨0x100010, 0x10000, 0, 1, 1, 0, .rwd⟩
def F.PRT_MM_CTL.PREEMPT_EN : Field := ⟨0x100010, 0x10000, 0, 0, 0, 0, .rwd⟩
-- PRT_MM_STATUS (R69)
def F.PRT_MM_STATUS.PARTNER_ADD_FRAG : Field := ⟨0x100014, 0x10000, 0, 5, 4, 0, .ro⟩
def F.PRT_MM_STATUS.ACTIVE : Field := ⟨0x100014, 0x10000, 0, 3, 3, 0, .ro⟩
def F.PRT_MM_STATUS.VERIFY_STATE : Field := ⟨0x100014, 0x10000, 0, 2, 0, 0, .ro⟩
-- PRT_TAG (R69)
def F.PRT_TAG.TPID : Field := ⟨0x100018, 0x10000, 0, 15, 0, 0x8100, .rwd⟩
-- PRT_FC (R69)
def F.PRT_FC.WDG_TIME : Field := ⟨0x10001c, 0x10000, 0, 31, 16, 0x14, .rwd⟩
def F.PRT_FC.PFC_HONOUR : Field := ⟨0x10001c, 0x10000, 0, 15, 8, 0, .rwd⟩
def F.PRT_FC.FC_MODE : Field := ⟨0x10001c, 0x10000, 0, 1, 0, 0, .rwd⟩
-- PRT_SHED_CTL (R69)
def F.PRT_SHED_CTL.BLOCK_CLR : Field := ⟨0x100100, 0x10000, 0, 24, 24, 0, .wo⟩
def F.PRT_SHED_CTL.HIGH_PCT : Field := ⟨0x100100, 0x10000, 0, 23, 16, 0x50, .rw⟩
def F.PRT_SHED_CTL.LOW_PCT : Field := ⟨0x100100, 0x10000, 0, 15, 8, 0x28, .rw⟩
def F.PRT_SHED_CTL.MAX_WIDTH : Field := ⟨0x100100, 0x10000, 0, 4, 3, 2, .rwt⟩
def F.PRT_SHED_CTL.MIN_WIDTH : Field := ⟨0x100100, 0x10000, 0, 2, 1, 2, .rwt⟩
def F.PRT_SHED_CTL.SHED_EN : Field := ⟨0x100100, 0x10000, 0, 0, 0, 0, .rw⟩
-- PRT_SHED_STATUS (R69)
def F.PRT_SHED_STATUS.FAIL_RUN : Field := ⟨0x100104, 0x10000, 0, 9, 8, 0, .ro⟩
def F.PRT_SHED_STATUS.IN_TRANSITION : Field := ⟨0x100104, 0x10000, 0, 4, 4, 0, .ro⟩
def F.PRT_SHED_STATUS.BLOCKED : Field := ⟨0x100104, 0x10000, 0, 3, 3, 0, .ro⟩
def F.PRT_SHED_STATUS.PINNED : Field := ⟨0x100104, 0x10000, 0, 2, 2, 0, .ro⟩
def F.PRT_SHED_STATUS.WIDTH : Field := ⟨0x100104, 0x10000, 0, 1, 0, 2, .ro⟩
-- PRT_WAKE_CTL (R69)
def F.PRT_WAKE_CTL.MATCH_VALID : Field := ⟨0x100200, 0x10000, 0, 19, 19, 0, .w1c⟩
def F.PRT_WAKE_CTL.MATCHED : Field := ⟨0x100200, 0x10000, 0, 18, 16, 0, .ro⟩
def F.PRT_WAKE_CTL.WAKE_PORT : Field := ⟨0x100200, 0x10000, 0, 8, 8, 0, .rw⟩
def F.PRT_WAKE_CTL.FILTER_EN : Field := ⟨0x100200, 0x10000, 0, 7, 0, 0, .rw⟩
-- PRT_PARTNER (R69)
def F.PRT_PARTNER.PART_CODE : Field := ⟨0x100204, 0x10000, 0, 31, 16, 0, .ro⟩
def F.PRT_PARTNER.REVISION : Field := ⟨0x100204, 0x10000, 0, 15, 8, 0, .ro⟩
def F.PRT_PARTNER.MIN_WIDTH : Field := ⟨0x100204, 0x10000, 0, 7, 6, 0, .ro⟩
def F.PRT_PARTNER.CONCORD : Field := ⟨0x100204, 0x10000, 0, 4, 4, 0, .ro⟩
def F.PRT_PARTNER.SHED : Field := ⟨0x100204, 0x10000, 0, 3, 3, 0, .ro⟩
def F.PRT_PARTNER.PROBE : Field := ⟨0x100204, 0x10000, 0, 2, 2, 0, .ro⟩
def F.PRT_PARTNER.MM : Field := ⟨0x100204, 0x10000, 0, 1, 1, 0, .ro⟩
def F.PRT_PARTNER.VALID : Field := ⟨0x100204, 0x10000, 0, 0, 0, 0, .ro⟩
-- PRT_PARTNER_EXT (R69)
def F.PRT_PARTNER_EXT.RING_NODE : Field := ⟨0x100208, 0x10000, 0, 23, 16, 0xff, .ro⟩
def F.PRT_PARTNER_EXT.TRANS_TIME : Field := ⟨0x100208, 0x10000, 0, 15, 0, 0, .ro⟩
-- RX_FRAMES_OK (R70)
def F.RX_FRAMES_OK : Field := ⟨0x100400, 0x10000, 0, 63, 0, 0, .rc⟩
-- RX_OCTETS_OK (R70)
def F.RX_OCTETS_OK : Field := ⟨0x100408, 0x10000, 0, 63, 0, 0, .rc⟩
-- TX_FRAMES (R70)
def F.TX_FRAMES : Field := ⟨0x100410, 0x10000, 0, 63, 0, 0, .rc⟩
-- TX_OCTETS (R70)
def F.TX_OCTETS : Field := ⟨0x100418, 0x10000, 0, 63, 0, 0, .rc⟩
-- RX_FCS_ERR (R70)
def F.RX_FCS_ERR : Field := ⟨0x100420, 0x10000, 0, 31, 0, 0, .rc⟩
-- RX_UNDERSIZE (R70)
def F.RX_UNDERSIZE : Field := ⟨0x100428, 0x10000, 0, 31, 0, 0, .rc⟩
-- RX_OVERSIZE (R70)
def F.RX_OVERSIZE : Field := ⟨0x100430, 0x10000, 0, 31, 0, 0, .rc⟩
-- RX_DISABLED_DROP (R70)
def F.RX_DISABLED_DROP : Field := ⟨0x100438, 0x10000, 0, 31, 0, 0, .rc⟩
-- RX_STATE_DISCARD (R70)
def F.RX_STATE_DISCARD : Field := ⟨0x100440, 0x10000, 0, 31, 0, 0, .rc⟩
-- RX_ASSEMBLY_ERR (R70)
def F.RX_ASSEMBLY_ERR : Field := ⟨0x100448, 0x10000, 0, 31, 0, 0, .rc⟩
-- RX_PAUSE (R70)
def F.RX_PAUSE : Field := ⟨0x100450, 0x10000, 0, 31, 0, 0, .rc⟩
-- TX_PREEMPTIONS (R70)
def F.TX_PREEMPTIONS : Field := ⟨0x100458, 0x10000, 0, 31, 0, 0, .rc⟩
-- TX_LINK_ABORT (R70)
def F.TX_LINK_ABORT : Field := ⟨0x100460, 0x10000, 0, 31, 0, 0, .rc⟩
-- TX_OVERSIZE_DROP (R70)
def F.TX_OVERSIZE_DROP : Field := ⟨0x100468, 0x10000, 0, 31, 0, 0, .rc⟩
-- RX_PARITY_DROP (R70)
def F.RX_PARITY_DROP : Field := ⟨0x100470, 0x10000, 0, 31, 0, 0, .rc⟩
-- TX_PARITY_ABORT (R70)
def F.TX_PARITY_ABORT : Field := ⟨0x100478, 0x10000, 0, 31, 0, 0, .rc⟩
-- PAUSE_WDG_DISCARD (R70)
def F.PAUSE_WDG_DISCARD : Field := ⟨0x100480, 0x10000, 0, 31, 0, 0, .rc⟩
-- FEC_CORRECTED (R70)
def F.FEC_CORRECTED : Field := ⟨0x100488, 0x10000, 0, 63, 0, 0, .rc⟩
-- FEC_UNCORRECTED (R70)
def F.FEC_UNCORRECTED : Field := ⟨0x100490, 0x10000, 0, 31, 0, 0, .rc⟩
-- SHED_DONE (R70)
def F.SHED_DONE : Field := ⟨0x100498, 0x10000, 0, 31, 0, 0, .rc⟩
-- SHED_FAIL (R70)
def F.SHED_FAIL : Field := ⟨0x1004a0, 0x10000, 0, 31, 0, 0, .rc⟩
-- SHED_NOACK (R70)
def F.SHED_NOACK : Field := ⟨0x1004a8, 0x10000, 0, 31, 0, 0, .rc⟩
-- SHED_CONFLICT (R70)
def F.SHED_CONFLICT : Field := ⟨0x1004b0, 0x10000, 0, 31, 0, 0, .rc⟩
-- SHED_FORCED_WIDEN (R70)
def F.SHED_FORCED_WIDEN : Field := ⟨0x1004b8, 0x10000, 0, 31, 0, 0, .rc⟩
-- WAKE_MATCH (R70)
def F.WAKE_MATCH : Field := ⟨0x1004c0, 0x10000, 0, 31, 0, 0, .rc⟩
-- PARTNER_BAD_TLV (R70)
def F.PARTNER_BAD_TLV : Field := ⟨0x1004c8, 0x10000, 0, 31, 0, 0, .rc⟩
-- STATE_IDLE_FRAMES (R70)
def F.STATE_IDLE_FRAMES : Field := ⟨0x1004d0, 0x10000, 0, 31, 0, 0, .rc⟩
-- PNL_CTL (R71)
def F.PNL_CTL.BURST_TIMER : Field := ⟨0xb0000, 0, 0x100, 23, 16, 0x80, .rwd⟩
def F.PNL_CTL.HIGH_PCP : Field := ⟨0xb0000, 0, 0x100, 6, 4, 4, .rw⟩
def F.PNL_CTL.WAKE : Field := ⟨0xb0000, 0, 0x100, 3, 3, 0, .rw⟩
def F.PNL_CTL.PLCA_EN : Field := ⟨0xb0000, 0, 0x100, 1, 1, 0, .rwd⟩
def F.PNL_CTL.ENABLE : Field := ⟨0xb0000, 0, 0x100, 0, 0, 0, .rw⟩
-- PNL_PLCA (R71)
def F.PNL_PLCA.MAX_BURST : Field := ⟨0xb0004, 0, 0x100, 31, 24, 0, .rwd⟩
def F.PNL_PLCA.TO_TIMER : Field := ⟨0xb0004, 0, 0x100, 23, 16, 0x20, .rwd⟩
def F.PNL_PLCA.NODE_COUNT : Field := ⟨0xb0004, 0, 0x100, 15, 8, 8, .rwd⟩
def F.PNL_PLCA.NODE_ID : Field := ⟨0xb0004, 0, 0x100, 7, 0, 0xff, .rwd⟩
-- PNL_STATUS (R71)
def F.PNL_STATUS.DEFERRING : Field := ⟨0xb0008, 0, 0x100, 2, 2, 0, .ro⟩
def F.PNL_STATUS.ENERGY : Field := ⟨0xb0008, 0, 0x100, 1, 1, 0, .ro⟩
def F.PNL_STATUS.PLCA_OK : Field := ⟨0xb0008, 0, 0x100, 0, 0, 0, .ro⟩
-- PNL_RX_FRAMES (R71)
def F.PNL_RX_FRAMES : Field := ⟨0xb000c, 0, 0x100, 31, 0, 0, .rc⟩
-- PNL_TX_FRAMES (R71)
def F.PNL_TX_FRAMES : Field := ⟨0xb0010, 0, 0x100, 31, 0, 0, .rc⟩
-- PNL_COLLISIONS (R71)
def F.PNL_COLLISIONS : Field := ⟨0xb0014, 0, 0x100, 31, 0, 0, .rc⟩
-- PNL_EXCESS_COLL (R71)
def F.PNL_EXCESS_COLL : Field := ⟨0xb0018, 0, 0x100, 31, 0, 0, .rc⟩
-- PNL_DROPS (R71)
def F.PNL_DROPS : Field := ⟨0xb001c, 0, 0x100, 31, 0, 0, .rc⟩
-- SID_CTL (R97)
def F.SID_CTL.ENABLE : Field := ⟨0xa0000, 0, 0, 0, 0, 0, .rw⟩
-- SID_IPMASK (R97)
def F.SID_IPMASK.SRC_PORT_IGN : Field := ⟨0xa0004, 0, 0, 3, 3, 0, .rwdl⟩
def F.SID_IPMASK.DSCP_IGN : Field := ⟨0xa0004, 0, 0, 2, 2, 0, .rwdl⟩
def F.SID_IPMASK.SRC_IP_IGN : Field := ⟨0xa0004, 0, 0, 1, 1, 0, .rwdl⟩
def F.SID_IPMASK.VID_IGN : Field := ⟨0xa0004, 0, 0, 0, 0, 0, .rwdl⟩
-- SID_UNBLOCK (R97)
def F.SID_UNBLOCK.TARGET : Field := ⟨0xa0008, 0, 0, 31, 31, 0, .wo⟩
def F.SID_UNBLOCK.INDEX : Field := ⟨0xa0008, 0, 0, 15, 0, 0, .wo⟩
-- SID_STATUS (R97)
def F.SID_STATUS.FULL_BUCKETS : Field := ⟨0xa000c, 0, 0, 21, 18, 0, .ro⟩
def F.SID_STATUS.ID_USED : Field := ⟨0xa000c, 0, 0, 17, 0, 0, .ro⟩
-- SID_DEFAULT (R97)
def F.SID_DEFAULT.DEFAULT_EN : Field := ⟨0xa0100, 0, 4, 31, 31, 0, .rw⟩
def F.SID_DEFAULT.ISH : Field := ⟨0xa0100, 0, 4, 15, 0, 0, .rw⟩
-- SID_DEFAULT_PNL (R97)
def F.SID_DEFAULT_PNL.DEFAULT_EN : Field := ⟨0xa0200, 0, 4, 31, 31, 0, .rw⟩
def F.SID_DEFAULT_PNL.ISH : Field := ⟨0xa0200, 0, 4, 15, 0, 0, .rw⟩
-- SID_NOMATCH_DROP (R97)
def F.SID_NOMATCH_DROP : Field := ⟨0xa0300, 0, 0, 31, 0, 0, .rc⟩
-- SID_DISABLED_DROP (R97)
def F.SID_DISABLED_DROP : Field := ⟨0xa0304, 0, 0, 31, 0, 0, .rc⟩
-- SID_DISCARD_DROP (R97)
def F.SID_DISCARD_DROP : Field := ⟨0xa0308, 0, 0, 31, 0, 0, .rc⟩
-- SID_PARITY_DROP (R97)
def F.SID_PARITY_DROP : Field := ⟨0xa030c, 0, 0, 31, 0, 0, .rc⟩
-- SID_RTAG_NO_SEQ (R97)
def F.SID_RTAG_NO_SEQ : Field := ⟨0xa0310, 0, 0, 31, 0, 0, .rc⟩
-- SID_COLLECT_ABORT (R97)
def F.SID_COLLECT_ABORT : Field := ⟨0xa0314, 0, 0, 31, 0, 0, .rc⟩
-- SID_FANOUT_DROP (R97)
def F.SID_FANOUT_DROP : Field := ⟨0xa0318, 0, 0, 31, 0, 0, .rc⟩
-- SEN_CTL (R127)
def F.SEN_CTL.DROP_LATE : Field := ⟨0x101000, 0x10000, 0, 15, 8, 0, .rw⟩
def F.SEN_CTL.ENABLE : Field := ⟨0x101000, 0x10000, 0, 0, 0, 0, .rw⟩
-- SEN_STATUS (R127)
def F.SEN_STATUS.CLAUSE : Field := ⟨0x101004, 0x10000, 0, 27, 16, 0, .ro⟩
def F.SEN_STATUS.PAST_END : Field := ⟨0x101004, 0x10000, 0, 8, 8, 0, .ro⟩
def F.SEN_STATUS.IN_EXT : Field := ⟨0x101004, 0x10000, 0, 7, 7, 0, .ro⟩
def F.SEN_STATUS.TRUNCATING : Field := ⟨0x101004, 0x10000, 0, 6, 6, 0, .ro⟩
def F.SEN_STATUS.HOLD : Field := ⟨0x101004, 0x10000, 0, 5, 5, 0, .ro⟩
def F.SEN_STATUS.ADMIN_STATE : Field := ⟨0x101004, 0x10000, 0, 3, 2, 0, .ro⟩
def F.SEN_STATUS.OPER_BANK : Field := ⟨0x101004, 0x10000, 0, 1, 1, 0, .ro⟩
def F.SEN_STATUS.OPER_VALID : Field := ⟨0x101004, 0x10000, 0, 0, 0, 0, .ro⟩
-- SEN_PREEMPT (R127)
def F.SEN_PREEMPT.HOLD_ADVANCE : Field := ⟨0x101008, 0x10000, 0, 15, 0, 0, .rw⟩
-- SEN_DEFAULT (R127)
def F.SEN_DEFAULT.GATES : Field := ⟨0x10100c, 0x10000, 0, 7, 0, 0xff, .rw⟩
-- SEN_SKIPPED (R127)
def F.SEN_SKIPPED.SKIPPED : Field := ⟨0x101010, 0x10000, 0, 31, 0, 0, .ro⟩
-- SEN_ADMIN_LEN (R127)
def F.SEN_ADMIN_LEN : Field := ⟨0x101100, 0x10000, 0, 12, 0, 1, .rw⟩
-- SEN_OPER_LEN (R127)
def F.SEN_OPER_LEN : Field := ⟨0x101200, 0x10000, 0, 12, 0, 0, .ro⟩
-- SEN_ADMIN_CYCLE (R127)
def F.SEN_ADMIN_CYCLE : Field := ⟨0x101104, 0x10000, 0, 31, 0, 0x1e848, .rw⟩
-- SEN_OPER_CYCLE (R127)
def F.SEN_OPER_CYCLE : Field := ⟨0x101204, 0x10000, 0, 31, 0, 0, .ro⟩
-- SEN_ADMIN_EXT (R127)
def F.SEN_ADMIN_EXT : Field := ⟨0x101108, 0x10000, 0, 31, 0, 0, .rw⟩
-- SEN_OPER_EXT (R127)
def F.SEN_OPER_EXT : Field := ⟨0x101208, 0x10000, 0, 31, 0, 0, .ro⟩
-- SEN_ADMIN_BASE_NS (R127)
def F.SEN_ADMIN_BASE_NS : Field := ⟨0x10110c, 0x10000, 0, 29, 0, 0, .rw⟩
-- SEN_OPER_BASE_NS (R127)
def F.SEN_OPER_BASE_NS : Field := ⟨0x10120c, 0x10000, 0, 29, 0, 0, .ro⟩
-- SEN_ADMIN_BASE_SL (R127)
def F.SEN_ADMIN_BASE_SL : Field := ⟨0x101110, 0x10000, 0, 31, 0, 0, .rw⟩
-- SEN_OPER_BASE_SL (R127)
def F.SEN_OPER_BASE_SL : Field := ⟨0x101210, 0x10000, 0, 31, 0, 0, .ro⟩
-- SEN_ADMIN_BASE_SH (R127)
def F.SEN_ADMIN_BASE_SH : Field := ⟨0x101114, 0x10000, 0, 15, 0, 0, .rw⟩
-- SEN_OPER_BASE_SH (R127)
def F.SEN_OPER_BASE_SH : Field := ⟨0x101214, 0x10000, 0, 15, 0, 0, .ro⟩
-- SEN_ADMIN_RESV (R127)
def F.SEN_ADMIN_RESV : Field := ⟨0x101118, 0x10000, 0, 19, 0, 0, .rw⟩
-- SEN_OPER_RESV (R127)
def F.SEN_OPER_RESV : Field := ⟨0x101218, 0x10000, 0, 19, 0, 0, .ro⟩
-- SEN_CHANGE_TIME (R127)
def F.SEN_CHANGE_TIME : Field := ⟨0x101300, 0x10000, 0, 79, 0, 0, .ro⟩
-- SEN_CYCLE_START (R127)
def F.SEN_CYCLE_START : Field := ⟨0x101310, 0x10000, 0, 79, 0, 0, .ro⟩
-- SEN_SWAPS (R127)
def F.SEN_SWAPS : Field := ⟨0x101400, 0x10000, 0, 31, 0, 0, .rc⟩
-- SEN_LATE_DROP (R127)
def F.SEN_LATE_DROP : Field := ⟨0x101404, 0x10000, 0, 31, 0, 0, .rc⟩
-- SEN_GUARD_DEFER (R127)
def F.SEN_GUARD_DEFER : Field := ⟨0x101408, 0x10000, 0, 31, 0, 0, .rc⟩
-- SEN_OVERRUN (R127)
def F.SEN_OVERRUN : Field := ⟨0x10140c, 0x10000, 0, 31, 0, 0, .rc⟩
-- SEN_TIME_STEP (R127)
def F.SEN_TIME_STEP : Field := ⟨0x101410, 0x10000, 0, 31, 0, 0, .rc⟩
-- SEN_PARITY_CLAUSE (R127)
def F.SEN_PARITY_CLAUSE : Field := ⟨0x101414, 0x10000, 0, 31, 0, 0, .rc⟩
-- SEN_HOLD_PREEMPT (R127)
def F.SEN_HOLD_PREEMPT : Field := ⟨0x101418, 0x10000, 0, 31, 0, 0, .rc⟩
-- QSH_CTL (R151)
def F.QSH_CTL.CBS_EN : Field := ⟨0x102000, 0x10000, 0, 15, 8, 0, .rw⟩
def F.QSH_CTL.ENABLE : Field := ⟨0x102000, 0x10000, 0, 0, 0, 0, .rw⟩
-- QSH_AGE (R151)
def F.QSH_AGE.AGE_TIME : Field := ⟨0x102004, 0x10000, 0, 31, 0, 0x1388, .rw⟩
-- QSH_SAMPLE (R151)
def F.QSH_SAMPLE.DELAY_K : Field := ⟨0x102008, 0x10000, 0, 4, 0, 0xa, .rw⟩
-- QSH_ING_LIMIT (R151)
def F.QSH_ING_LIMIT.ING_LIMIT : Field := ⟨0x10200c, 0x10000, 0, 15, 0, 0x3f80, .rw⟩
-- QSH_STATUS (R151)
def F.QSH_STATUS.ING_HELD : Field := ⟨0x102010, 0x10000, 0, 15, 0, 0, .ro⟩
-- QSH_IDLE_SLOPE (R151)
def F.QSH_IDLE_SLOPE : Field := ⟨0x102100, 0x10000, 0x10, 31, 0, 0, .rw⟩
-- QSH_HI_CREDIT (R151)
def F.QSH_HI_CREDIT : Field := ⟨0x102104, 0x10000, 0x10, 31, 0, 0x6060, .rw⟩
-- QSH_CLASS_LIMIT (R151)
def F.QSH_CLASS_LIMIT : Field := ⟨0x102108, 0x10000, 0x10, 20, 0, 0x2000, .rw⟩
-- QSH_CREDIT (R151)
def F.QSH_CREDIT : Field := ⟨0x10210c, 0x10000, 0x10, 31, 0, 0, .ro⟩
-- QSH_POOL_MIX (R151)
def F.QSH_POOL_MIX : Field := ⟨0x102200, 0x10000, 0, 15, 0, 0, .rw⟩
-- QSH_POOL_DMA (R151)
def F.QSH_POOL_DMA : Field := ⟨0x102204, 0x10000, 0, 15, 0, 0, .rw⟩
-- QSH_POOL_FREE (R151)
def F.QSH_POOL_FREE : Field := ⟨0x102208, 0x10000, 0, 15, 0, 0xfe00, .ro⟩
-- QSH_POOL_MIX_USED (R151)
def F.QSH_POOL_MIX_USED : Field := ⟨0x10220c, 0x10000, 0, 15, 0, 0, .ro⟩
-- QSH_POOL_DMA_USED (R151)
def F.QSH_POOL_DMA_USED : Field := ⟨0x102210, 0x10000, 0, 15, 0, 0, .ro⟩
-- QSH_POOL_CTRL_USED (R151)
def F.QSH_POOL_CTRL_USED : Field := ⟨0x102214, 0x10000, 0, 9, 0, 0, .ro⟩
-- QSH_POOL_LOW (R151)
def F.QSH_POOL_LOW : Field := ⟨0x102218, 0x10000, 0, 15, 0, 0xfe00, .rc⟩
-- ING_NOCELL_DROP (R151)
def F.ING_NOCELL_DROP : Field := ⟨0x102400, 0x10000, 0, 31, 0, 0, .rc⟩
-- ING_LIMIT_DROP (R151)
def F.ING_LIMIT_DROP : Field := ⟨0x102404, 0x10000, 0, 31, 0, 0, .rc⟩
-- QSH_TAIL_DROP (R151)
def F.QSH_TAIL_DROP : Field := ⟨0x102408, 0x10000, 0, 31, 0, 0, .rc⟩
-- QSH_AGE_DROP (R151)
def F.QSH_AGE_DROP : Field := ⟨0x10240c, 0x10000, 0, 31, 0, 0, .rc⟩
-- QSH_LINKDOWN_FLUSH (R151)
def F.QSH_LINKDOWN_FLUSH : Field := ⟨0x102410, 0x10000, 0, 31, 0, 0, .rc⟩
-- QSH_SUBQ_INVALID_DROP (R151)
def F.QSH_SUBQ_INVALID_DROP : Field := ⟨0x102414, 0x10000, 0, 31, 0, 0, .rc⟩
-- QSH_DISABLED_DROP (R151)
def F.QSH_DISABLED_DROP : Field := ⟨0x102418, 0x10000, 0, 31, 0, 0, .rc⟩
-- QSH_DMA_POOL_WAIT (R151)
def F.QSH_DMA_POOL_WAIT : Field := ⟨0x10241c, 0x10000, 0, 31, 0, 0, .rc⟩
-- MIX_CTL (R183)
def F.MIX_CTL.REBAL_EN : Field := ⟨0x80000, 0, 0, 8, 8, 0, .rw⟩
def F.MIX_CTL.ENABLE : Field := ⟨0x80000, 0, 0, 0, 0, 0, .rw⟩
-- MIX_STATUS (R183)
def F.MIX_STATUS.COMMIT_PENDING : Field := ⟨0x80004, 0, 0, 31, 31, 0, .ro⟩
def F.MIX_STATUS.OPER_BANK : Field := ⟨0x80004, 0, 0, 30, 30, 0, .ro⟩
def F.MIX_STATUS.SUMS_OPER : Field := ⟨0x80004, 0, 0, 16, 0, 0, .ro⟩
-- MIX_REBAL (R183)
def F.MIX_REBAL.MAX_MOVES : Field := ⟨0x80008, 0, 0, 7, 0, 8, .rwt⟩
-- MIX_PINNED_MAP (R183)
def F.MIX_PINNED_MAP : Field := ⟨0x80100, 0, 0, 15, 0, 0, .ro⟩
-- MIX_GATED_MAP (R183)
def F.MIX_GATED_MAP : Field := ⟨0x80104, 0, 0, 15, 0, 0xffff, .ro⟩
-- ENG_ALLOW (R183)
def F.ENG_ALLOW.ALLOW : Field := ⟨0x500000, 0x10000, 0, 31, 0, 0xffffffff, .rwlt⟩
-- ENG_STATUS (R183)
def F.ENG_STATUS.PINNED : Field := ⟨0x500004, 0x10000, 0, 17, 17, 0, .ro⟩
def F.ENG_STATUS.GATED : Field := ⟨0x500004, 0x10000, 0, 16, 16, 1, .ro⟩
def F.ENG_STATUS.STORE_USED : Field := ⟨0x500004, 0x10000, 0, 15, 0, 0, .ro⟩
-- ENG_PARITY (R183)
def F.ENG_PARITY.VALID : Field := ⟨0x500008, 0x10000, 0, 31, 31, 0, .w1c⟩
def F.ENG_PARITY.ADDRESS : Field := ⟨0x500008, 0x10000, 0, 20, 0, 0, .ro⟩
-- ENG_LOAD (R183)
def F.ENG_LOAD.BATCHES : Field := ⟨0x500100, 0x10000, 4, 31, 24, 0, .ro⟩
def F.ENG_LOAD.PINNED_ANY : Field := ⟨0x500100, 0x10000, 4, 23, 23, 0, .ro⟩
def F.ENG_LOAD.MAX_STEPS : Field := ⟨0x500100, 0x10000, 4, 22, 16, 0, .ro⟩
def F.ENG_LOAD.SUMS : Field := ⟨0x500100, 0x10000, 4, 12, 0, 0, .ro⟩
-- ENG_FRAMES_OUT (R183)
def F.ENG_FRAMES_OUT : Field := ⟨0x500200, 0x10000, 0, 31, 0, 0, .rc⟩
-- ENG_ABSENT_SAMPLES (R183)
def F.ENG_ABSENT_SAMPLES : Field := ⟨0x500204, 0x10000, 0, 31, 0, 0, .rc⟩
-- ENG_LATE_SAMPLES (R183)
def F.ENG_LATE_SAMPLES : Field := ⟨0x500208, 0x10000, 0, 31, 0, 0, .rc⟩
-- ENG_TS_REJECT (R183)
def F.ENG_TS_REJECT : Field := ⟨0x50020c, 0x10000, 0, 31, 0, 0, .rc⟩
-- ENG_NO_DEADLINE (R183)
def F.ENG_NO_DEADLINE : Field := ⟨0x500210, 0x10000, 0, 31, 0, 0, .rc⟩
-- ENG_LATE_OUTPUT (R183)
def F.ENG_LATE_OUTPUT : Field := ⟨0x500214, 0x10000, 0, 31, 0, 0, .rc⟩
-- ENG_STORE_PARITY (R183)
def F.ENG_STORE_PARITY : Field := ⟨0x500218, 0x10000, 0, 31, 0, 0, .rc⟩
-- ENG_TABLE_PARITY (R183)
def F.ENG_TABLE_PARITY : Field := ⟨0x50021c, 0x10000, 0, 31, 0, 0, .rc⟩
-- ENG_VIDEO_HOLD (R183)
def F.ENG_VIDEO_HOLD : Field := ⟨0x500220, 0x10000, 0, 31, 0, 0, .rc⟩
-- ENG_VIDEO_BLACK (R183)
def F.ENG_VIDEO_BLACK : Field := ⟨0x500224, 0x10000, 0, 31, 0, 0, .rc⟩
-- ENG_MOVES (R183)
def F.ENG_MOVES : Field := ⟨0x500228, 0x10000, 0, 31, 0, 0, .rc⟩
-- ENG_REBAL_CONFLICT (R183)
def F.ENG_REBAL_CONFLICT : Field := ⟨0x50022c, 0x10000, 0, 31, 0, 0, .rc⟩
-- ENG_GROUP_WITHHELD (R183)
def F.ENG_GROUP_WITHHELD : Field := ⟨0x500230, 0x10000, 0, 31, 0, 0, .rc⟩
-- ENG_UNSENT_DROP (R183)
def F.ENG_UNSENT_DROP : Field := ⟨0x500234, 0x10000, 0, 31, 0, 0, .rc⟩
-- CON_CTL (R239)
def F.CON_CTL.CYCLE : Field := ⟨0x50000, 0, 0, 17, 16, 0, .rwd⟩
def F.CON_CTL.RING_ID : Field := ⟨0x50000, 0, 0, 15, 8, 0, .rwd⟩
def F.CON_CTL.ENABLE : Field := ⟨0x50000, 0, 0, 0, 0, 0, .rw⟩
-- CON_PORTS (R239)
def F.CON_PORTS.PORT_E : Field := ⟨0x50004, 0, 0, 13, 8, 1, .rwdl⟩
def F.CON_PORTS.PORT_W : Field := ⟨0x50004, 0, 0, 5, 0, 0, .rwdl⟩
-- CON_NODE (R239)
def F.CON_NODE.PRECEDENCE : Field := ⟨0x50008, 0, 0, 23, 16, 0xff, .rwd⟩
def F.CON_NODE.REMOTE_EN : Field := ⟨0x50008, 0, 0, 10, 10, 0, .rw⟩
def F.CON_NODE.COLDSTART_EN : Field := ⟨0x50008, 0, 0, 9, 9, 0, .rwd⟩
def F.CON_NODE.SYNC : Field := ⟨0x50008, 0, 0, 8, 8, 0, .rwd⟩
def F.CON_NODE.NODE_ID : Field := ⟨0x50008, 0, 0, 5, 0, 0, .rwd⟩
-- CON_MGR (R239)
def F.CON_MGR.MGR_TIMEOUT : Field := ⟨0x5000c, 0, 0, 15, 8, 4, .rwd⟩
def F.CON_MGR.RANK : Field := ⟨0x5000c, 0, 0, 7, 0, 0xff, .rwd⟩
-- CON_ETYPE (R239)
def F.CON_ETYPE.ETYPE : Field := ⟨0x50010, 0, 0, 15, 0, 0x88b5, .rwdl⟩
-- CON_BUS (R239)
def F.CON_BUS.LAG : Field := ⟨0x50014, 0, 0, 13, 8, 6, .rwd⟩
def F.CON_BUS.CH64 : Field := ⟨0x50014, 0, 0, 4, 0, 0x10, .rwd⟩
-- CON_PHASE (R239)
def F.CON_PHASE.PHASE : Field := ⟨0x50018, 0, 0, 16, 0, 0, .rwd⟩
-- CON_TRAIN (R239)
def F.CON_TRAIN.WINDOW : Field := ⟨0x5001c, 0, 0, 9, 0, 0x3d8, .rwd⟩
-- CON_SYNC (R239)
def F.CON_SYNC.LISTEN : Field := ⟨0x50100, 0, 0, 23, 16, 8, .rwdt⟩
def F.CON_SYNC.OFFSET_LIMIT : Field := ⟨0x50100, 0, 0, 15, 8, 0x10, .rwdt⟩
def F.CON_SYNC.PRECISION : Field := ⟨0x50100, 0, 0, 7, 0, 0x10, .rwdt⟩
-- CON_RATE_LIMIT (R239)
def F.CON_RATE_LIMIT.LIMIT : Field := ⟨0x50104, 0, 0, 19, 0, 0x30d40, .rwdt⟩
-- CON_STATE (R239)
def F.CON_STATE.MGR_NODE : Field := ⟨0x50108, 0, 0, 29, 24, 0, .ro⟩
def F.CON_STATE.LIMIT_RUN : Field := ⟨0x50108, 0, 0, 19, 18, 0, .ro⟩
def F.CON_STATE.STEER_HOLD : Field := ⟨0x50108, 0, 0, 17, 17, 0, .ro⟩
def F.CON_STATE.STEER_PINNED : Field := ⟨0x50108, 0, 0, 16, 16, 0, .ro⟩
def F.CON_STATE.SPLIT : Field := ⟨0x50108, 0, 0, 15, 15, 0, .ro⟩
def F.CON_STATE.WRAP_E : Field := ⟨0x50108, 0, 0, 14, 14, 0, .ro⟩
def F.CON_STATE.WRAP_W : Field := ⟨0x50108, 0, 0, 13, 13, 0, .ro⟩
def F.CON_STATE.E_DOWN : Field := ⟨0x50108, 0, 0, 12, 12, 0, .ro⟩
def F.CON_STATE.W_DOWN : Field := ⟨0x50108, 0, 0, 11, 11, 0, .ro⟩
def F.CON_STATE.MANAGER : Field := ⟨0x50108, 0, 0, 10, 10, 0, .ro⟩
def F.CON_STATE.JOINED : Field := ⟨0x50108, 0, 0, 9, 9, 0, .ro⟩
def F.CON_STATE.STATE : Field := ⟨0x50108, 0, 0, 2, 0, 0, .ro⟩
-- CON_CORR (R239)
def F.CON_CORR.OFFSET : Field := ⟨0x5010c, 0, 0, 31, 0, 0, .ro⟩
-- CON_RATE (R239)
def F.CON_RATE.RATE : Field := ⟨0x50110, 0, 0, 31, 0, 0, .ro⟩
-- CON_STEER (R239)
def F.CON_STEER.STEER : Field := ⟨0x50114, 0, 0, 31, 0, 0, .ro⟩
-- CON_LOOP (R239)
def F.CON_LOOP.FOLDED : Field := ⟨0x50118, 0, 0, 31, 31, 0, .ro⟩
def F.CON_LOOP.LOOP : Field := ⟨0x50118, 0, 0, 16, 0, 0, .ro⟩
-- CON_ACCEPT (R239)
def F.CON_ACCEPT.K : Field := ⟨0x5011c, 0, 0, 22, 21, 0, .ro⟩
def F.CON_ACCEPT.USED : Field := ⟨0x5011c, 0, 0, 20, 16, 0, .ro⟩
def F.CON_ACCEPT.REJECTED : Field := ⟨0x5011c, 0, 0, 15, 8, 0, .ro⟩
def F.CON_ACCEPT.ACCEPTED : Field := ⟨0x5011c, 0, 0, 7, 0, 0, .ro⟩
-- CON_REJECT (R239)
def F.CON_REJECT.REJECTS : Field := ⟨0x50200, 0, 4, 31, 0, 0, .rc⟩
-- TRAIN_FCS_ERR (R239)
def F.TRAIN_FCS_ERR : Field := ⟨0x50300, 0, 0, 31, 0, 0, .rc⟩
-- TRAIN_POISON_RX (R239)
def F.TRAIN_POISON_RX : Field := ⟨0x50304, 0, 0, 31, 0, 0, .rc⟩
-- TRAIN_FOREIGN (R239)
def F.TRAIN_FOREIGN : Field := ⟨0x50308, 0, 0, 31, 0, 0, .rc⟩
-- TRAIN_COLLIDE (R239)
def F.TRAIN_COLLIDE : Field := ⟨0x5030c, 0, 0, 31, 0, 0, .rc⟩
-- TRAIN_LATE (R239)
def F.TRAIN_LATE : Field := ⟨0x50310, 0, 0, 31, 0, 0, .rc⟩
-- TRAIN_OVERRUN (R239)
def F.TRAIN_OVERRUN : Field := ⟨0x50314, 0, 0, 31, 0, 0, .rc⟩
-- TRAIN_MISSED (R239)
def F.TRAIN_MISSED : Field := ⟨0x50318, 0, 0, 31, 0, 0, .rc⟩
-- SYNC_LATE (R239)
def F.SYNC_LATE : Field := ⟨0x5031c, 0, 0, 31, 0, 0, .rc⟩
-- SYNC_FOREIGN (R239)
def F.SYNC_FOREIGN : Field := ⟨0x50320, 0, 0, 31, 0, 0, .rc⟩
-- SYNC_NO_DELAY (R239)
def F.SYNC_NO_DELAY : Field := ⟨0x50324, 0, 0, 31, 0, 0, .rc⟩
-- CS_ATTEMPTS (R239)
def F.CS_ATTEMPTS : Field := ⟨0x50328, 0, 0, 31, 0, 0, .rc⟩
-- CS_YIELD (R239)
def F.CS_YIELD : Field := ⟨0x5032c, 0, 0, 31, 0, 0, .rc⟩
-- CS_IGNORED (R239)
def F.CS_IGNORED : Field := ⟨0x50330, 0, 0, 31, 0, 0, .rc⟩
-- CS_FAILED (R239)
def F.CS_FAILED : Field := ⟨0x50334, 0, 0, 31, 0, 0, .rc⟩
-- LIMIT_EXCEED (R239)
def F.LIMIT_EXCEED : Field := ⟨0x50338, 0, 0, 31, 0, 0, .rc⟩
-- PASSIVE_ENTRIES (R239)
def F.PASSIVE_ENTRIES : Field := ⟨0x5033c, 0, 0, 31, 0, 0, .rc⟩
-- WRAP_EVENTS (R239)
def F.WRAP_EVENTS : Field := ⟨0x50340, 0, 0, 31, 0, 0, .rc⟩
-- MGR_TAKEOVERS (R239)
def F.MGR_TAKEOVERS : Field := ⟨0x50344, 0, 0, 31, 0, 0, .rc⟩
-- CONTRIB_ABSENT (R239)
def F.CONTRIB_ABSENT : Field := ⟨0x50348, 0, 0, 31, 0, 0, .rc⟩
-- STEER_CONFLICT (R239)
def F.STEER_CONFLICT : Field := ⟨0x5034c, 0, 0, 31, 0, 0, .rc⟩
-- REMOTE_DONE (R239)
def F.REMOTE_DONE : Field := ⟨0x50350, 0, 0, 31, 0, 0, .rc⟩
-- REMOTE_FAILED (R239)
def F.REMOTE_FAILED : Field := ⟨0x50354, 0, 0, 31, 0, 0, .rc⟩
-- CON_SECTION (R239)
def F.CON_SECTION : Field := ⟨0x50800, 0, 4, 31, 0, 0, .ro⟩
-- NTM_CTL (R265)
def F.NTM_CTL.GM_SYNCED : Field := ⟨0x40000, 0, 0, 16, 16, 0, .rw⟩
def F.NTM_CTL.SLAVE_PORT : Field := ⟨0x40000, 0, 0, 13, 8, 0, .rwd⟩
def F.NTM_CTL.ROLE : Field := ⟨0x40000, 0, 0, 5, 4, 0, .rwd⟩
def F.NTM_CTL.PPS_IN_EN : Field := ⟨0x40000, 0, 0, 3, 3, 0, .rw⟩
def F.NTM_CTL.PPS_OUT_EN : Field := ⟨0x40000, 0, 0, 2, 2, 0, .rw⟩
def F.NTM_CTL.ENABLE : Field := ⟨0x40000, 0, 0, 0, 0, 0, .rw⟩
-- NTM_STATUS (R265)
def F.NTM_STATUS.IN_LIMIT_RUN : Field := ⟨0x40004, 0, 0, 11, 8, 0, .ro⟩
def F.NTM_STATUS.STEP_WAIT : Field := ⟨0x40004, 0, 0, 3, 3, 0, .ro⟩
def F.NTM_STATUS.SLEWING : Field := ⟨0x40004, 0, 0, 2, 2, 0, .ro⟩
def F.NTM_STATUS.SYNC_TIMEOUT : Field := ⟨0x40004, 0, 0, 1, 1, 0, .ro⟩
def F.NTM_STATUS.SYNCED : Field := ⟨0x40004, 0, 0, 0, 0, 0, .ro⟩
-- NTM_INC_FRAC (R265)
def F.NTM_INC_FRAC : Field := ⟨0x40008, 0, 0, 31, 0, 0, .rw⟩
-- NTM_INC_INT (R265)
def F.NTM_INC_INT : Field := ⟨0x4000c, 0, 0, 7, 0, 1, .rw⟩
-- NTM_TEMP_FRAC (R265)
def F.NTM_TEMP_FRAC : Field := ⟨0x40010, 0, 0, 31, 0, 0, .rw⟩
-- NTM_TEMP_INT (R265)
def F.NTM_TEMP_INT : Field := ⟨0x40014, 0, 0, 7, 0, 1, .rw⟩
-- NTM_TEMP_COUNT (R265)
def F.NTM_TEMP_COUNT : Field := ⟨0x40018, 0, 0, 31, 0, 0, .rw⟩
-- NTM_STEP_CTL (R265)
def F.NTM_STEP_CTL.MODE : Field := ⟨0x4001c, 0, 0, 1, 1, 0, .wo⟩
def F.NTM_STEP_CTL.GO : Field := ⟨0x4001c, 0, 0, 0, 0, 0, .wo⟩
-- NTM_STEP_NS (R265)
def F.NTM_STEP_NS : Field := ⟨0x40100, 0, 0, 29, 0, 0, .rw⟩
-- NTM_STEP_SL (R265)
def F.NTM_STEP_SL : Field := ⟨0x40104, 0, 0, 31, 0, 0, .rw⟩
-- NTM_STEP_SH (R265)
def F.NTM_STEP_SH : Field := ⟨0x40108, 0, 0, 15, 0, 0, .rw⟩
-- NTM_PTP (R265)
def F.NTM_PTP.DOMAIN : Field := ⟨0x4010c, 0, 0, 31, 24, 0, .rwdl⟩
def F.NTM_PTP.SYNC_LOG : Field := ⟨0x4010c, 0, 0, 23, 20, 0xd, .rwdl⟩
def F.NTM_PTP.TRANSPORT : Field := ⟨0x4010c, 0, 0, 17, 16, 0, .rwdl⟩
-- NTM_SYNC (R265)
def F.NTM_SYNC.LIMIT : Field := ⟨0x40110, 0, 0, 31, 16, 0x64, .rw⟩
def F.NTM_SYNC.TIMEOUT : Field := ⟨0x40110, 0, 0, 15, 0, 0x177, .rw⟩
-- NTM_PPS (R265)
def F.NTM_PPS : Field := ⟨0x40114, 0, 0, 9, 0, 0x64, .rw⟩
-- NTM_PPS_OFFSET (R265)
def F.NTM_PPS_OFFSET : Field := ⟨0x40118, 0, 0, 31, 0, 0, .rw⟩
-- NTM_RX_BASE_L (R265)
def F.NTM_RX_BASE_L : Field := ⟨0x40200, 0, 0, 31, 12, 0, .rwd⟩
-- NTM_RX_BASE_H (R265)
def F.NTM_RX_BASE_H : Field := ⟨0x40204, 0, 0, 31, 0, 0, .rwd⟩
-- NTM_RX_SIZE (R265)
def F.NTM_RX_SIZE : Field := ⟨0x40208, 0, 0, 4, 0, 6, .rwd⟩
-- NTM_RX_HEAD (R265)
def F.NTM_RX_HEAD : Field := ⟨0x4020c, 0, 0, 15, 0, 0, .ro⟩
-- NTM_RX_TAIL (R265)
def F.NTM_RX_TAIL : Field := ⟨0x40210, 0, 0, 15, 0, 0, .rw⟩
-- NTM_TIME (R265)
def F.NTM_TIME : Field := ⟨0x40300, 0, 0, 111, 0, 0, .ro⟩
-- NTM_PPS_IN_TIME (R265)
def F.NTM_PPS_IN_TIME : Field := ⟨0x40310, 0, 0, 111, 0, 0, .rc⟩
-- NTM_STEP_COUNT (R265)
def F.NTM_STEP_COUNT : Field := ⟨0x40400, 0, 0, 31, 0, 0, .rc⟩
-- NTM_RX_DROP (R265)
def F.NTM_RX_DROP : Field := ⟨0x40404, 0, 0, 31, 0, 0, .rc⟩
-- NTM_PPS_IN_EDGES (R265)
def F.NTM_PPS_IN_EDGES : Field := ⟨0x40408, 0, 0, 31, 0, 0, .rc⟩
-- NTM_PPS_IN_OVERRUN (R265)
def F.NTM_PPS_IN_OVERRUN : Field := ⟨0x4040c, 0, 0, 31, 0, 0, .rc⟩
-- NTM_SYNC_LOST_EVENTS (R265)
def F.NTM_SYNC_LOST_EVENTS : Field := ⟨0x40410, 0, 0, 31, 0, 0, .rc⟩
-- TSU_CTL (R266)
def F.TSU_CTL.PDELAY_LOG : Field := ⟨0x103000, 0x10000, 0, 15, 12, 0, .rw⟩
def F.TSU_CTL.DELAY_SRC : Field := ⟨0x103000, 0x10000, 0, 8, 8, 1, .rw⟩
def F.TSU_CTL.PROBE_EN : Field := ⟨0x103000, 0x10000, 0, 5, 5, 0, .rw⟩
def F.TSU_CTL.PDELAY_EN : Field := ⟨0x103000, 0x10000, 0, 4, 4, 0, .rw⟩
def F.TSU_CTL.PTP_ROLE : Field := ⟨0x103000, 0x10000, 0, 1, 0, 0, .rw⟩
-- TSU_STATUS (R266)
def F.TSU_STATUS.CAL_CONVERGED : Field := ⟨0x103004, 0x10000, 0, 4, 4, 0, .ro⟩
def F.TSU_STATUS.SOURCE : Field := ⟨0x103004, 0x10000, 0, 3, 3, 0, .ro⟩
def F.TSU_STATUS.STALE : Field := ⟨0x103004, 0x10000, 0, 2, 2, 0, .ro⟩
def F.TSU_STATUS.DELAY_VALID : Field := ⟨0x103004, 0x10000, 0, 0, 0, 0, .ro⟩
-- TSU_TX_ADJ (R266)
def F.TSU_TX_ADJ : Field := ⟨0x103008, 0x10000, 0, 31, 0, 0, .rw⟩
-- TSU_RX_ADJ (R266)
def F.TSU_RX_ADJ : Field := ⟨0x10300c, 0x10000, 0, 31, 0, 0, .rw⟩
-- TSU_ASYM (R266)
def F.TSU_ASYM : Field := ⟨0x103010, 0x10000, 0, 31, 0, 0, .rw⟩
-- TSU_PROBE (R266)
def F.TSU_PROBE.ETYPE : Field := ⟨0x103014, 0x10000, 0, 31, 16, 0x88b6, .rwd⟩
def F.TSU_PROBE.INTERVAL : Field := ⟨0x103014, 0x10000, 0, 15, 0, 0x3e8, .rwd⟩
-- TSU_CABLE (R266)
def F.TSU_CABLE.VF : Field := ⟨0x103018, 0x10000, 0, 25, 16, 0x2a8, .rw⟩
def F.TSU_CABLE.LENGTH_DM : Field := ⟨0x103018, 0x10000, 0, 15, 0, 0xffff, .ro⟩
-- TSU_LINK_DELAY (R266)
def F.TSU_LINK_DELAY : Field := ⟨0x10301c, 0x10000, 0, 31, 0, 0, .ro⟩
-- TSU_NRR (R266)
def F.TSU_NRR : Field := ⟨0x103020, 0x10000, 0, 31, 0, 0, .ro⟩
-- TSU_TX_CAL (R266)
def F.TSU_TX_CAL : Field := ⟨0x103024, 0x10000, 0, 31, 0, 0, .ro⟩
-- TSU_RX_CAL (R266)
def F.TSU_RX_CAL : Field := ⟨0x103028, 0x10000, 0, 31, 0, 0, .ro⟩
-- SYNC_TX (R266)
def F.SYNC_TX : Field := ⟨0x103100, 0x10000, 0, 31, 0, 0, .rc⟩
-- SYNC_SKIPPED (R266)
def F.SYNC_SKIPPED : Field := ⟨0x103104, 0x10000, 0, 31, 0, 0, .rc⟩
-- SYNC_RX (R266)
def F.SYNC_RX : Field := ⟨0x103108, 0x10000, 0, 31, 0, 0, .rc⟩
-- PDELAY_REQ_TX (R266)
def F.PDELAY_REQ_TX : Field := ⟨0x10310c, 0x10000, 0, 31, 0, 0, .rc⟩
-- PDELAY_RESP_TX (R266)
def F.PDELAY_RESP_TX : Field := ⟨0x103110, 0x10000, 0, 31, 0, 0, .rc⟩
-- PDELAY_LOST (R266)
def F.PDELAY_LOST : Field := ⟨0x103114, 0x10000, 0, 31, 0, 0, .rc⟩
-- PROBE_TX (R266)
def F.PROBE_TX : Field := ⟨0x103118, 0x10000, 0, 31, 0, 0, .rc⟩
-- PROBE_RX (R266)
def F.PROBE_RX : Field := ⟨0x10311c, 0x10000, 0, 31, 0, 0, .rc⟩
-- PROBE_SKIPPED (R266)
def F.PROBE_SKIPPED : Field := ⟨0x103120, 0x10000, 0, 31, 0, 0, .rc⟩
-- PROBE_REJECT (R266)
def F.PROBE_REJECT : Field := ⟨0x103124, 0x10000, 0, 31, 0, 0, .rc⟩
-- EXCHANGE_DROP (R266)
def F.EXCHANGE_DROP : Field := ⟨0x103128, 0x10000, 0, 31, 0, 0, .rc⟩
-- PTP_TO_HOST (R266)
def F.PTP_TO_HOST : Field := ⟨0x10312c, 0x10000, 0, 31, 0, 0, .rc⟩
-- PTP_DISCARD (R266)
def F.PTP_DISCARD : Field := ⟨0x103130, 0x10000, 0, 31, 0, 0, .rc⟩
-- DMA_CTL (R293)
def F.DMA_CTL.CKPT_D63 : Field := ⟨0x60000, 0, 0, 8, 8, 0, .ro⟩
def F.DMA_CTL.ENABLE : Field := ⟨0x60000, 0, 0, 0, 0, 0, .rw⟩
-- DMA_STATUS (R293)
def F.DMA_STATUS.SAFE_HOLD : Field := ⟨0x60004, 0, 0, 16, 16, 0, .ro⟩
def F.DMA_STATUS.RUNNING : Field := ⟨0x60004, 0, 0, 6, 0, 0, .ro⟩
-- DMA_NOT_OWNED (R293)
def F.DMA_NOT_OWNED : Field := ⟨0x60010, 0, 0, 31, 0, 0, .rc⟩
-- DMA_FRAMES_BUILT (R293)
def F.DMA_FRAMES_BUILT : Field := ⟨0x60014, 0, 0, 31, 0, 0, .rc⟩
-- DMA_FRAME_STATE_DISCARD (R293)
def F.DMA_FRAME_STATE_DISCARD : Field := ⟨0x60018, 0, 0, 31, 0, 0, .rc⟩
-- DMA_CH_CTL (R293)
def F.DMA_CH_CTL.PAUSE : Field := ⟨0x60100, 0, 4, 8, 8, 0, .rw⟩
def F.DMA_CH_CTL.ENABLE : Field := ⟨0x60100, 0, 4, 0, 0, 0, .rw⟩
-- DMA_CH_STATUS (R293)
def F.DMA_CH_STATUS.LAST_STATUS : Field := ⟨0x60200, 0, 4, 31, 24, 0, .ro⟩
def F.DMA_CH_STATUS.ERR_PAUSED : Field := ⟨0x60200, 0, 4, 3, 3, 0, .ro⟩
def F.DMA_CH_STATUS.STATE : Field := ⟨0x60200, 0, 4, 2, 0, 0, .ro⟩
-- DMA_CH_TAIL (R293)
def F.DMA_CH_TAIL : Field := ⟨0x60300, 0, 4, 15, 0, 0, .rw⟩
-- DMA_CH_HEAD (R293)
def F.DMA_CH_HEAD.CQ_HEAD : Field := ⟨0x60400, 0, 4, 31, 16, 0, .ro⟩
def F.DMA_CH_HEAD.HEAD : Field := ⟨0x60400, 0, 4, 15, 0, 0, .ro⟩
-- DMA_CH_CQ_TAIL (R293)
def F.DMA_CH_CQ_TAIL : Field := ⟨0x60500, 0, 4, 15, 0, 0, .rw⟩
-- DMA_CH_DESC_L (R293)
def F.DMA_CH_DESC_L.ADDR : Field := ⟨0x60800, 0, 0x10, 31, 12, 0, .rw⟩
def F.DMA_CH_DESC_L.LOG2 : Field := ⟨0x60800, 0, 0x10, 4, 0, 4, .rw⟩
-- DMA_CH_DESC_H (R293)
def F.DMA_CH_DESC_H : Field := ⟨0x60804, 0, 0x10, 31, 0, 0, .rw⟩
-- DMA_CH_CQ_L (R293)
def F.DMA_CH_CQ_L.ADDR : Field := ⟨0x60808, 0, 0x10, 31, 12, 0, .rw⟩
def F.DMA_CH_CQ_L.LOG2 : Field := ⟨0x60808, 0, 0x10, 4, 0, 4, .rw⟩
-- DMA_CH_CQ_H (R293)
def F.DMA_CH_CQ_H : Field := ⟨0x6080c, 0, 0x10, 31, 0, 0, .rw⟩
-- DMA_CH_POS_OM (R293)
def F.DMA_CH_POS_OM.O : Field := ⟨0x60c00, 0, 8, 31, 16, 0, .ro⟩
def F.DMA_CH_POS_OM.M : Field := ⟨0x60c00, 0, 8, 15, 0, 0, .ro⟩
-- DMA_CH_POS_IN (R293)
def F.DMA_CH_POS_IN : Field := ⟨0x60c04, 0, 8, 23, 0, 0, .ro⟩
-- DMA_CH_DONE (R293)
def F.DMA_CH_DONE : Field := ⟨0x60e00, 0, 8, 31, 0, 0, .rc⟩
-- DMA_CH_ERRORS (R293)
def F.DMA_CH_ERRORS : Field := ⟨0x60e04, 0, 8, 31, 0, 0, .rc⟩
-- CXM_CTL (R294)
def F.CXM_CTL.ENUM : Field := ⟨0x70000, 0, 0, 19, 16, 0, .wo⟩
def F.CXM_CTL.ENABLE : Field := ⟨0x70000, 0, 0, 0, 0, 0, .rw⟩
-- CXM_CKPT (R294)
def F.CXM_CKPT.VALID : Field := ⟨0x70004, 0, 0, 31, 31, 0, .ro⟩
def F.CXM_CKPT.PORT : Field := ⟨0x70004, 0, 0, 26, 25, 0, .ro⟩
def F.CXM_CKPT.BASE : Field := ⟨0x70004, 0, 0, 24, 0, 0, .ro⟩
-- CXM_ENTRY_REFUSED (R294)
def F.CXM_ENTRY_REFUSED.REFUSED : Field := ⟨0x70008, 0, 0, 31, 0, 0, .rc⟩
-- CXM_PORT_STATUS (R294)
def F.CXM_PORT_STATUS.HEAD : Field := ⟨0x70100, 0, 0x40, 15, 12, 0, .ro⟩
def F.CXM_PORT_STATUS.MHD : Field := ⟨0x70100, 0, 0x40, 11, 11, 0, .ro⟩
def F.CXM_PORT_STATUS.DEGRADED : Field := ⟨0x70100, 0, 0x40, 10, 10, 0, .ro⟩
def F.CXM_PORT_STATUS.SPEED : Field := ⟨0x70100, 0, 0x40, 8, 8, 0, .ro⟩
def F.CXM_PORT_STATUS.WIDTH : Field := ⟨0x70100, 0, 0x40, 5, 4, 0, .ro⟩
def F.CXM_PORT_STATUS.STATE : Field := ⟨0x70100, 0, 0x40, 2, 0, 0, .ro⟩
-- CXM_PORT_CAP (R294)
def F.CXM_PORT_CAP.REPORTED : Field := ⟨0x70104, 0, 0x40, 31, 16, 0, .ro⟩
def F.CXM_PORT_CAP.MAPPED : Field := ⟨0x70104, 0, 0x40, 15, 0, 0, .ro⟩
-- CXM_PORT_LAT (R294)
def F.CXM_PORT_LAT.MEAN : Field := ⟨0x70108, 0, 0x40, 31, 16, 0, .ro⟩
def F.CXM_PORT_LAT.MIN : Field := ⟨0x70108, 0, 0x40, 15, 0, 0, .ro⟩
-- CXM_PORT_LAT_MAX (R294)
def F.CXM_PORT_LAT_MAX : Field := ⟨0x7010c, 0, 0x40, 15, 0, 0, .ro⟩
-- CXM_PORT_LOAD (R294)
def F.CXM_PORT_LOAD.READ : Field := ⟨0x70110, 0, 0x40, 15, 8, 0, .ro⟩
def F.CXM_PORT_LOAD.WRITE : Field := ⟨0x70110, 0, 0x40, 7, 0, 0, .ro⟩
-- POISON_READS (R294)
def F.POISON_READS : Field := ⟨0x70114, 0, 0x40, 31, 0, 0, .rc⟩
-- READ_TIMEOUTS (R294)
def F.READ_TIMEOUTS : Field := ⟨0x70118, 0, 0x40, 31, 0, 0, .rc⟩
-- LINK_DOWN_EVENTS (R294)
def F.LINK_DOWN_EVENTS : Field := ⟨0x7011c, 0, 0x40, 31, 0, 0, .rc⟩
-- HIF_MB_REQ (R319)
def F.HIF_MB_REQ : Field := ⟨0x0, 0x1000000, 4, 31, 0, 0, .rw⟩
-- HIF_MB_RESP (R319)
def F.HIF_MB_RESP : Field := ⟨0x100, 0x1000000, 4, 31, 0, 0, .ro⟩
-- HIF_MB_DOORBELL (R319)
def F.HIF_MB_DOORBELL.RING : Field := ⟨0x200, 0x1000000, 0, 0, 0, 0, .wo⟩
-- HIF_MB_STATUS (R319)
def F.HIF_MB_STATUS.PARKED : Field := ⟨0x204, 0x1000000, 0, 3, 3, 0, .ro⟩
def F.HIF_MB_STATUS.EXECUTING : Field := ⟨0x204, 0x1000000, 0, 2, 2, 0, .ro⟩
def F.HIF_MB_STATUS.DONE : Field := ⟨0x204, 0x1000000, 0, 1, 1, 0, .w1c⟩
def F.HIF_MB_STATUS.BUSY : Field := ⟨0x204, 0x1000000, 0, 0, 0, 0, .ro⟩
-- HIF_MB_CTL (R319)
def F.HIF_MB_CTL.IRQ_EN : Field := ⟨0x208, 0x1000000, 0, 0, 0, 0, .rw⟩
-- HIF_STATE (R319)
def F.HIF_STATE.FUNCTION : Field := ⟨0x20c, 0x1000000, 0, 11, 8, 0, .ro⟩
def F.HIF_STATE.WIPING : Field := ⟨0x20c, 0x1000000, 0, 7, 7, 0, .ro⟩
def F.HIF_STATE.LIFECYCLE : Field := ⟨0x20c, 0x1000000, 0, 6, 4, 0, .ro⟩
def F.HIF_STATE.OPSTATE : Field := ⟨0x20c, 0x1000000, 0, 2, 0, 0, .ro⟩
-- HIF_CTL (R319)
def F.HIF_CTL.HOT_RESET_ACT : Field := ⟨0x210, 0x1000000, 0, 0, 0, 0, .rwl⟩
-- HIF_DOORBELL_DROP (R319)
def F.HIF_DOORBELL_DROP : Field := ⟨0x214, 0x1000000, 0, 31, 0, 0, .rc⟩
-- HIF_PARTIAL_WRITE (R319)
def F.HIF_PARTIAL_WRITE : Field := ⟨0x218, 0x1000000, 0, 31, 0, 0, .rc⟩
-- HIF_CMDS (R319)
def F.HIF_CMDS : Field := ⟨0x21c, 0x1000000, 0, 31, 0, 0, .rc⟩
-- HIF_VF_DMA (R319)
def F.HIF_VF_DMA.COUNT : Field := ⟨0x300, 0, 4, 11, 8, 0, .rw⟩
def F.HIF_VF_DMA.BASE : Field := ⟨0x300, 0, 4, 5, 0, 0, .rw⟩
-- HIF_VF_ISH (R319)
def F.HIF_VF_ISH.LIMIT : Field := ⟨0x400, 0, 4, 31, 16, 0, .rw⟩
def F.HIF_VF_ISH.BASE : Field := ⟨0x400, 0, 4, 15, 0, 0xffff, .rw⟩
-- REG_LOCK_SYS (R344)
def F.REG_LOCK_SYS.LOCK_SYS : Field := ⟨0x10000, 0, 0, 11, 2, 0, .rwlt⟩
def F.REG_LOCK_SYS.LOCK_HIF : Field := ⟨0x10000, 0, 0, 0, 0, 0, .rwlt⟩
-- REG_LOCK_ENG (R344)
def F.REG_LOCK_ENG.LOCK_ENG : Field := ⟨0x10004, 0, 0, 15, 0, 0, .rwlt⟩
-- REG_LOCK_PORT_L (R344)
def F.REG_LOCK_PORT_L.LOCK_PORT : Field := ⟨0x10008, 0, 0, 31, 0, 0, .rwlt⟩
-- REG_LOCK_PORT_H (R344)
def F.REG_LOCK_PORT_H.LOCK_PORT : Field := ⟨0x1000c, 0, 0, 31, 0, 0, .rwlt⟩
-- REG_WI_STATUS (R344)
def F.REG_WI_STATUS.WRITE_IGNORED : Field := ⟨0x10100, 0, 0, 31, 31, 0, .w1c⟩
def F.REG_WI_STATUS.MORE : Field := ⟨0x10100, 0, 0, 30, 30, 0, .ro⟩
def F.REG_WI_STATUS.SPACE : Field := ⟨0x10100, 0, 0, 29, 28, 0, .ro⟩
def F.REG_WI_STATUS.FUNCTION : Field := ⟨0x10100, 0, 0, 27, 24, 0, .ro⟩
def F.REG_WI_STATUS.CAUSE : Field := ⟨0x10100, 0, 0, 18, 16, 0, .ro⟩
def F.REG_WI_STATUS.CHANNEL : Field := ⟨0x10100, 0, 0, 5, 0, 0, .ro⟩
-- REG_WI_ADDR (R344)
def F.REG_WI_ADDR.ADDRESS : Field := ⟨0x10104, 0, 0, 29, 0, 0, .ro⟩
-- REG_WI_DATA (R344)
def F.REG_WI_DATA.DATA : Field := ⟨0x10108, 0, 0, 31, 0, 0, .ro⟩
-- REG_WI_COUNT (R344)
def F.REG_WI_COUNT.COUNT : Field := ⟨0x1010c, 0, 0, 31, 0, 0, .rc⟩
-- REG_TRIP_STATUS (R344)
def F.REG_TRIP_STATUS.VALID : Field := ⟨0x10200, 0, 0, 31, 31, 0, .w1c⟩
def F.REG_TRIP_STATUS.COPY : Field := ⟨0x10200, 0, 0, 24, 23, 0, .ro⟩
def F.REG_TRIP_STATUS.ADDRESS : Field := ⟨0x10200, 0, 0, 22, 0, 0, .ro⟩
-- REG_TRIP_FATAL (R344)
def F.REG_TRIP_FATAL.VALID : Field := ⟨0x10204, 0, 0, 31, 31, 0, .ro⟩
def F.REG_TRIP_FATAL.ADDRESS : Field := ⟨0x10204, 0, 0, 22, 0, 0, .ro⟩
-- REG_TRIP_CORRECTED (R344)
def F.REG_TRIP_CORRECTED.CORRECTED : Field := ⟨0x10208, 0, 0, 31, 0, 0, .rc⟩
-- REG_TRIP_PASSES (R344)
def F.REG_TRIP_PASSES.PASSES : Field := ⟨0x1020c, 0, 0, 31, 0, 0, .rc⟩
-- WRW_ADDR (R344)
def F.WRW_ADDR.ADDR : Field := ⟨0x10300, 0, 0, 22, 0, 0, .rw⟩
-- WRW_CTL (R344)
def F.WRW_CTL.VALID : Field := ⟨0x10304, 0, 0, 31, 31, 0, .ro⟩
def F.WRW_CTL.BUSY : Field := ⟨0x10304, 0, 0, 30, 30, 0, .ro⟩
def F.WRW_CTL.BAD : Field := ⟨0x10304, 0, 0, 29, 29, 0, .ro⟩
def F.WRW_CTL.RELEASE : Field := ⟨0x10304, 0, 0, 8, 8, 0, .wo⟩
def F.WRW_CTL.WORDS : Field := ⟨0x10304, 0, 0, 3, 0, 0, .ro⟩
-- WRW_DATA (R344)
def F.WRW_DATA.DATA : Field := ⟨0x10320, 0, 4, 31, 0, 0, .ro⟩
-- PAIR_CTL (R365)
def F.PAIR_CTL.UNIT : Field := ⟨0x30800, 0, 0, 8, 8, 0, .rwl⟩
def F.PAIR_CTL.PAIR_EN : Field := ⟨0x30800, 0, 0, 0, 0, 0, .ro⟩
-- PAIR_GEN (R365)
def F.PAIR_GEN.CONFIG_GEN : Field := ⟨0x30804, 0, 0, 31, 0, 0, .rw⟩
-- PAIR_TIMING (R365)
def F.PAIR_TIMING.MAX_AGE : Field := ⟨0x30808, 0, 0, 15, 0, 0xfa, .rwl⟩
-- PAIR_PHASE (R365)
def F.PAIR_PHASE.PHASE : Field := ⟨0x3080c, 0, 0, 16, 0, 0, .rwl⟩
-- PAIR_STATUS (R365)
def F.PAIR_STATUS.LAST_OUTCOME : Field := ⟨0x30810, 0, 0, 31, 24, 0, .ro⟩
def F.PAIR_STATUS.LAST_SLOT : Field := ⟨0x30810, 0, 0, 9, 9, 1, .ro⟩
def F.PAIR_STATUS.WRITING : Field := ⟨0x30810, 0, 0, 5, 5, 0, .ro⟩
def F.PAIR_STATUS.TAKEOVER : Field := ⟨0x30810, 0, 0, 4, 4, 0, .ro⟩
def F.PAIR_STATUS.READY : Field := ⟨0x30810, 0, 0, 3, 3, 0, .ro⟩
def F.PAIR_STATUS.ALIVE_RUN : Field := ⟨0x30810, 0, 0, 2, 2, 0, .ro⟩
def F.PAIR_STATUS.ROLE_STATE : Field := ⟨0x30810, 0, 0, 1, 1, 0, .ro⟩
def F.PAIR_STATUS.ROLE_ACTIVE : Field := ⟨0x30810, 0, 0, 0, 0, 0, .ro⟩
-- PAIR_SEQ (R365)
def F.PAIR_SEQ.SEQ : Field := ⟨0x30814, 0, 0, 31, 0, 0, .ro⟩
-- PAIR_TAKEOVER_NS (R365)
def F.PAIR_TAKEOVER_NS.DURATION : Field := ⟨0x30818, 0, 0, 19, 0, 0, .ro⟩
-- CKPT_WRITTEN (R365)
def F.CKPT_WRITTEN : Field := ⟨0x30820, 0, 0, 31, 0, 0, .rc⟩
-- CKPT_WRITE_FAIL (R365)
def F.CKPT_WRITE_FAIL : Field := ⟨0x30824, 0, 0, 31, 0, 0, .rc⟩
-- CKPT_SKIPPED (R365)
def F.CKPT_SKIPPED : Field := ⟨0x30828, 0, 0, 31, 0, 0, .rc⟩
-- TAKEOVERS (R365)
def F.TAKEOVERS : Field := ⟨0x3082c, 0, 0, 31, 0, 0, .rc⟩
-- TAKEOVER_NO_CKPT (R365)
def F.TAKEOVER_NO_CKPT : Field := ⟨0x30830, 0, 0, 31, 0, 0, .rc⟩
-- STATE_MISMATCH (R365)
def F.STATE_MISMATCH : Field := ⟨0x30834, 0, 0, 31, 0, 0, .rc⟩
-- FLT_CTL (R391)
def F.FLT_CTL.HOLDOFF : Field := ⟨0x20000, 0, 0, 31, 16, 0xa, .rwl⟩
def F.FLT_CTL.FIRST_MIN : Field := ⟨0x20000, 0, 0, 9, 8, 2, .rwl⟩
def F.FLT_CTL.HIST_MIN : Field := ⟨0x20000, 0, 0, 5, 4, 0, .rwl⟩
def F.FLT_CTL.FIRST_REARM : Field := ⟨0x20000, 0, 0, 0, 0, 0, .wo⟩
-- FLT_STATUS (R391)
def F.FLT_STATUS.HIST_DEPTH : Field := ⟨0x20004, 0, 0, 25, 16, 0, .ro⟩
def F.FLT_STATUS.FIRST_VALID : Field := ⟨0x20004, 0, 0, 4, 4, 0, .ro⟩
def F.FLT_STATUS.ANY : Field := ⟨0x20004, 0, 0, 3, 3, 0, .ro⟩
def F.FLT_STATUS.SAFE : Field := ⟨0x20004, 0, 0, 2, 2, 0, .ro⟩
def F.FLT_STATUS.HIGHEST : Field := ⟨0x20004, 0, 0, 1, 0, 0, .ro⟩
-- FLT_FORCE (R391)
def F.FLT_FORCE.KEY : Field := ⟨0x20008, 0, 0, 31, 0, 0, .wo⟩
-- FLT_COUNT_S0 (R391)
def F.FLT_COUNT_S0 : Field := ⟨0x2000c, 0, 0, 31, 0, 0, .rc⟩
-- FLT_COUNT_S1 (R391)
def F.FLT_COUNT_S1 : Field := ⟨0x20010, 0, 0, 31, 0, 0, .rc⟩
-- FLT_COUNT_S2 (R391)
def F.FLT_COUNT_S2 : Field := ⟨0x20014, 0, 0, 31, 0, 0, .rc⟩
-- FLT_COUNT_S3 (R391)
def F.FLT_COUNT_S3 : Field := ⟨0x20018, 0, 0, 31, 0, 0, .rc⟩
-- FLT_HIST_LOST (R391)
def F.FLT_HIST_LOST : Field := ⟨0x2001c, 0, 0, 31, 0, 0, .rc⟩
-- FLT_CAUSE (R391)
def F.FLT_CAUSE : Field := ⟨0x20100, 0, 4, 31, 0, 0, .w1c⟩
-- FLT_LIVE (R391)
def F.FLT_LIVE : Field := ⟨0x20200, 0, 4, 31, 0, 0, .ro⟩
-- FLT_IRQ_EN (R391)
def F.FLT_IRQ_EN : Field := ⟨0x20300, 0, 4, 31, 0, 0, .rw⟩
-- FLT_HIST (R391)
def F.FLT_HIST : Field := ⟨0x20400, 0, 0, 127, 0, 0, .rc⟩
-- FLT_FIRST (R391)
def F.FLT_FIRST : Field := ⟨0x20410, 0, 0, 127, 0, 0, .ro⟩
-- PWR_STATE (R392)
def F.PWR_STATE.TRANSITION : Field := ⟨0x30000, 0, 0, 4, 4, 0, .ro⟩
def F.PWR_STATE.STATE : Field := ⟨0x30000, 0, 0, 1, 0, 0, .ro⟩
-- PWR_RESET_CAUSE (R392)
def F.PWR_RESET_CAUSE : Field := ⟨0x30004, 0, 0, 1, 0, 0, .ro⟩
-- PWR_BUDGET (R392)
def F.PWR_BUDGET : Field := ⟨0x30008, 0, 0, 9, 0, 0x249, .rwl⟩
-- PWR_WARM_COUNT (R392)
def F.PWR_WARM_COUNT : Field := ⟨0x3000c, 0, 0, 31, 0, 0, .rc⟩
-- PWR_BLOCK_COUNT (R392)
def F.PWR_BLOCK_COUNT : Field := ⟨0x30010, 0, 0, 31, 0, 0, .rc⟩
-- PWR_WAKE_CTL (R392)
def F.PWR_WAKE_CTL.HOST_WAKE : Field := ⟨0x30100, 0, 0, 9, 9, 0, .wo⟩
def F.PWR_WAKE_CTL.AUTO_EXIT : Field := ⟨0x30100, 0, 0, 8, 8, 1, .rw⟩
def F.PWR_WAKE_CTL.EN : Field := ⟨0x30100, 0, 0, 4, 0, 0, .rw⟩
-- PWR_WAKE_CAUSE (R392)
def F.PWR_WAKE_CAUSE.PORT : Field := ⟨0x30104, 0, 0, 30, 24, 0, .ro⟩
def F.PWR_WAKE_CAUSE.CAUSE : Field := ⟨0x30104, 0, 0, 5, 0, 0, .w1c⟩
-- PWR_WAKE_AT (R392)
def F.PWR_WAKE_AT : Field := ⟨0x30108, 0, 0, 31, 0, 0, .rw⟩
-- PWR_WAKE_TIMES (R392)
def F.PWR_WAKE_TIMES.EXIT : Field := ⟨0x3010c, 0, 0, 31, 16, 0, .ro⟩
def F.PWR_WAKE_TIMES.ENTRY : Field := ⟨0x3010c, 0, 0, 15, 0, 0, .ro⟩
-- PWR_AVS_CTL (R392)
def F.PWR_AVS_CTL.RAIL : Field := ⟨0x30200, 0, 0, 4, 1, 0, .rwl⟩
def F.PWR_AVS_CTL.AVS_EN : Field := ⟨0x30200, 0, 0, 0, 0, 1, .rwl⟩
-- PWR_AVS_BOUNDS (R392)
def F.PWR_AVS_BOUNDS.MAX_MV : Field := ⟨0x30204, 0, 0, 25, 16, 0x334, .rwt⟩
def F.PWR_AVS_BOUNDS.MIN_MV : Field := ⟨0x30204, 0, 0, 9, 0, 0x2a8, .rwt⟩
-- PWR_AVS_STATUS (R392)
def F.PWR_AVS_STATUS.TARGET_MV : Field := ⟨0x30208, 0, 0, 25, 16, 0x2ee, .ro⟩
def F.PWR_AVS_STATUS.STOPPED : Field := ⟨0x30208, 0, 0, 13, 13, 0, .ro⟩
def F.PWR_AVS_STATUS.PINNED : Field := ⟨0x30208, 0, 0, 12, 12, 0, .ro⟩
def F.PWR_AVS_STATUS.SET_MV : Field := ⟨0x30208, 0, 0, 9, 0, 0x2ee, .ro⟩
-- AVS_CONFLICT (R392)
def F.AVS_CONFLICT : Field := ⟨0x3020c, 0, 0, 31, 0, 0, .rc⟩
-- PWR_RAIL_VI (R392)
def F.PWR_RAIL_VI.I : Field := ⟨0x30300, 0, 8, 31, 16, 0, .ro⟩
def F.PWR_RAIL_VI.V : Field := ⟨0x30300, 0, 8, 15, 0, 0, .ro⟩
-- PWR_RAIL_LIM (R392)
def F.PWR_RAIL_LIM.FAIL_PM : Field := ⟨0x30304, 0, 8, 15, 8, 0x3c, .rw⟩
def F.PWR_RAIL_LIM.WARN_PM : Field := ⟨0x30304, 0, 8, 7, 0, 0x28, .rw⟩
-- PWR_THERM_CTL (R392)
def F.PWR_THERM_CTL.CRIT_C : Field := ⟨0x30400, 0, 0, 15, 8, 0x70, .rwl⟩
def F.PWR_THERM_CTL.WARN_C : Field := ⟨0x30400, 0, 0, 7, 0, 0x64, .rwl⟩
-- PWR_THERM_MAX (R392)
def F.PWR_THERM_MAX.SENSOR : Field := ⟨0x30404, 0, 0, 23, 16, 0, .ro⟩
def F.PWR_THERM_MAX.TEMP : Field := ⟨0x30404, 0, 0, 7, 0, 0, .ro⟩
-- PWR_THERM_SENS (R392)
def F.PWR_THERM_SENS : Field := ⟨0x30440, 0, 4, 7, 0, 0, .ro⟩
-- PWR_XING_DISCARD (R392)
def F.PWR_XING_DISCARD.DISCARDS : Field := ⟨0x30600, 0, 4, 31, 0, 0, .rc⟩
-- BST_STATUS (R411)
def F.BST_STATUS.WAVE : Field := ⟨0x90000, 0, 0, 23, 16, 0, .ro⟩
def F.BST_STATUS.AUTH_FAILS : Field := ⟨0x90000, 0, 0, 11, 8, 0, .ro⟩
def F.BST_STATUS.SCAN_OPEN : Field := ⟨0x90000, 0, 0, 7, 7, 0, .ro⟩
def F.BST_STATUS.WIPING : Field := ⟨0x90000, 0, 0, 6, 6, 0, .ro⟩
def F.BST_STATUS.AUTH_LOCKOUT : Field := ⟨0x90000, 0, 0, 5, 5, 0, .ro⟩
def F.BST_STATUS.RUNNING : Field := ⟨0x90000, 0, 0, 4, 4, 0, .ro⟩
-- BST_KEY_STATUS (R411)
def F.BST_KEY_STATUS.LAST_CLEAR : Field := ⟨0x90004, 0, 0, 19, 16, 0, .ro⟩
def F.BST_KEY_STATUS.LOADED : Field := ⟨0x90004, 0, 0, 15, 0, 0, .ro⟩
-- BST_FUSE (R411)
def F.BST_FUSE.BURN : Field := ⟨0x90008, 0, 0, 31, 31, 0, .wo⟩
def F.BST_FUSE.BURN_BUSY : Field := ⟨0x90008, 0, 0, 16, 16, 0, .ro⟩
def F.BST_FUSE.RECORDS_USED : Field := ⟨0x90008, 0, 0, 3, 0, 0, .ro⟩
-- BST_MAP (R411)
def F.BST_MAP.PRESENT : Field := ⟨0x90100, 0, 4, 31, 31, 0, .ro⟩
def F.BST_MAP.SOFT : Field := ⟨0x90100, 0, 4, 30, 30, 0, .ro⟩
def F.BST_MAP.FUSED : Field := ⟨0x90100, 0, 4, 29, 29, 0, .ro⟩
def F.BST_MAP.PHYSICAL : Field := ⟨0x90100, 0, 4, 3, 0, 0, .ro⟩
-- BST_RUNS (R411)
def F.BST_RUNS : Field := ⟨0x90200, 0, 0, 31, 0, 0, .rc⟩
-- BST_UNITS_FAILED (R411)
def F.BST_UNITS_FAILED : Field := ⟨0x90204, 0, 0, 31, 0, 0, .rc⟩
-- BST_REPAIRS (R411)
def F.BST_REPAIRS : Field := ⟨0x90208, 0, 0, 31, 0, 0, .rc⟩
-- BST_SCAN_REFUSED (R411)
def F.BST_SCAN_REFUSED : Field := ⟨0x9020c, 0, 0, 31, 0, 0, .rc⟩
-- BST_WIPES (R411)
def F.BST_WIPES : Field := ⟨0x90210, 0, 0, 31, 0, 0, .rc⟩

end Sys2Proof.Machine
end

