-- ==== Sys2Proof/Machine/Ops.lean ====
section
/-! DEFINITION. The named operations that every family uses: sparse maps, register fields, units of a variant, time,
random draws, MSI-X vectors and crossings. -/

namespace Sys2Proof.Machine

/-! ### Sparse maps -/

/-- The value at a key, when listed. -/
def SMap.look {α : Type} (m : SMap α) (k : Nat) : Option α :=
  match m with
  | [] => none
  | (j, v) :: r => if j = k then some v else SMap.look r k

/-- The map with `v` at `k`, keys kept rising. -/
def SMap.put {α : Type} (m : SMap α) (k : Nat) (v : α) : SMap α :=
  match m with
  | [] => [(k, v)]
  | (j, w) :: r =>
    if k < j then (k, v) :: (j, w) :: r else if j = k then (k, v) :: r else (j, w) :: SMap.put r k v

/-- The map without `k`. -/
def SMap.del {α : Type} (m : SMap α) (k : Nat) : SMap α :=
  match m with
  | [] => []
  | (j, w) :: r => if j = k then SMap.del r k else (j, w) :: SMap.del r k

/-- The value at a key, `d` when the key is not listed. -/
def SMap.val {α : Type} (m : SMap α) (k : Nat) (d : α) : α := (SMap.look m k).getD d

/-- The map with `v` at `k`, which lists `k` only when `v` differs from the default `d`. -/
def SMap.putD {α : Type} [DecidableEq α] (m : SMap α) (k : Nat) (v d : α) : SMap α :=
  if v = d then SMap.del m k else SMap.put m k v

/-- Keys strictly rising from `lo`. -/
def SMap.rising {α : Type} (lo : Nat) : SMap α → Bool
  | [] => true
  | (k, _) :: r => decide (lo ≤ k) && SMap.rising (k + 1) r

/-- The canonical form: keys strictly rising. -/
def SMap.wf {α : Type} (m : SMap α) : Bool := SMap.rising 0 m

/-! ### Register fields -/

/-- The key of a field of unit `u`, index `i`. -/
def Field.key (f : Field) (u i : Nat) : Nat := (f.addr + f.us * u + f.st * i) * 32 + f.lo

/-- The width of a field in bits. -/
def Field.width (f : Field) : Nat := f.hi + 1 - f.lo

/-- The value of a field of unit `u`, index `i`; unlisted fields hold their reset value. -/
def State.fld (s : State) (f : Field) (u : Nat := 0) (i : Nat := 0) : Nat := SMap.val s.regs (f.key u i) f.rst

/-- The state with a field of unit `u`, index `i` set to the low bits of `v`. -/
def State.setf (s : State) (f : Field) (v : Nat) (u : Nat := 0) (i : Nat := 0) : State :=
  { s with regs := SMap.putD s.regs (f.key u i) (v % 2 ^ f.width) f.rst }

/-- A counter increased by `n`: it saturates at its largest value, except that 64-bit counters wrap (R70). -/
def State.bump (s : State) (f : Field) (u : Nat := 0) (i : Nat := 0) (n : Nat := 1) : State :=
  let v := s.fld f u i + n
  s.setf f (if f.width = 64 then v else min v (2 ^ f.width - 1)) u i

/-- A field read as two's complement. -/
def State.fldS (s : State) (f : Field) (u : Nat := 0) (i : Nat := 0) : Int := toSigned f.width (s.fld f u i)

/-- Bit `b` of a field. -/
def State.fbit (s : State) (f : Field) (b : Nat) (u : Nat := 0) (i : Nat := 0) : Bool :=
  (s.fld f u i).testBit b

/-- A field of one bit is 1. -/
def State.on (s : State) (f : Field) (u : Nat := 0) (i : Nat := 0) : Bool := s.fld f u i = 1

/-- The state with bit `b` of a field set or cleared. -/
def State.setBit (s : State) (f : Field) (b : Nat) (x : Bool) (u : Nat := 0) (i : Nat := 0) : State :=
  s.setf f (withBits (s.fld f u i) b b x.toNat) u i

/-! ### Table dwords of BAR2 -/

/-- First dword numbers of the regions of BAR2 (R326); the mix region starts at 0. -/
def tSid : Nat := 0x1000_0000 / 4
def tSubq : Nat := 0x1200_0000 / 4
def tSen : Nat := 0x1300_0000 / 4
def tWake : Nat := 0x1340_0000 / 4
def tTime : Nat := 0x1340_4000 / 4
def tRing : Nat := 0x1340_8000 / 4
def tCxm : Nat := 0x1342_0000 / 4

/-- The memory unit of R393 that holds a table dword: 16 times its BIST group plus the logical unit. The sum entries and the
ring and CXM regions belong to no memory group. -/
def memUnit (k : Nat) : Option Nat :=
  let x := k % 0x100_0000
  let eng := fun (a n : Nat) => some (32 + (x - a) * 16 / n)
  if k < 0x200_0000 then
    if x < 0x8_0000 then none
    else if x < 0x88_0000 then eng 0x8_0000 0x80_0000
    else if x < 0x8C_0000 then eng 0x88_0000 0x4_0000
    else if x < 0x8E_0000 then eng 0x8C_0000 0x2_0000
    else if 0x90_0000 ≤ x ∧ x < 0xB0_0000 then eng 0x90_0000 0x20_0000
    else none
  else if k < 0x220_0000 then some (32 + (k - 0x200_0000) * 16 / 0x20_0000)
  else if k < 0x240_0000 then some (32 + (k - 0x220_0000) * 16 / 0x20_0000)
  else if k < tSid then none
  else if k < tSubq then some 64
  else if k < tSen then some ((k - tSubq) / (8 * 8192) / 4)
  else if k < tWake then some ((k - tSen) / 0x4000 / 4)
  else if k < tTime then some ((k - tWake) / 64 / 4)
  else if k < tRing then some ((k - tTime) / 64 / 4)
  else none

/-- A table dword holds a test pattern of BIST (R397). -/
def State.patterned (s : State) (k : Nat) : Bool :=
  match s.bst.tested with
  | [] => false
  | l => (memUnit k).any (fun u => l.contains u)

/-- The dword at a BAR2 dword number; unlisted dwords read zero (R374). A test pattern is a free value (log 7). -/
def State.tab (s : State) (k : Nat) : Nat :=
  if s.patterned k then (Config.testPattern (k + 2 ^ 32 * s.bst.pattern)).toNat else (SMap.val s.tabs k 0#32).toNat

/-- The state with a table dword set. -/
def State.setTab (s : State) (k v : Nat) : State :=
  { s with tabs := SMap.putD s.tabs k (BitVec.ofNat 32 v) 0#32 }

/-- `n` consecutive table dwords from dword number `k`, as one little-endian number. -/
def State.tabNum (s : State) (k n : Nat) : Nat :=
  (List.range n).foldr (fun i a => s.tab (k + i) + 2 ^ 32 * a) 0

/-- The state with `n` consecutive table dwords from `k` holding a number. -/
def State.setTabNum (s : State) (k n v : Nat) : State :=
  (List.range n).foldl (fun t i => t.setTab (k + i) (v / 2 ^ (32 * i))) s

/-- Whether the entry of a table (region code and index) is known to hold a parity error. -/
def State.isBad (s : State) (table idx : Nat) : Bool := s.bad.contains (table, idx)

/-- A parity error is found in an entry; it stays until the entry is rewritten. -/
def State.markBad (s : State) (table idx : Nat) : State :=
  if s.isBad table idx then s else { s with bad := s.bad ++ [(table, idx)] }

/-- A rewritten entry holds good parity. -/
def State.clearBad (s : State) (table idx : Nat) : State :=
  { s with bad := s.bad.filter (fun p => p ≠ (table, idx)) }

/-! ### Units of the variant (R3) -/

/-- Network ports of a variant. -/
def Variant.ports : Variant → Nat
  | .zt5120 => 64
  | .zt2560 => 32
  | .zt1280 => 16

/-- Engine islands, and port islands, of a variant. -/
def Variant.islands : Variant → Nat
  | .zt5120 => 16
  | .zt2560 => 8
  | .zt1280 => 4

/-- CXL root ports of a variant. -/
def Variant.cxl : Variant → Nat
  | .zt5120 => 4
  | .zt2560 => 2
  | .zt1280 => 1

/-- The part code of a variant (R8). -/
def Variant.part : Variant → Nat
  | .zt5120 => 0x5120
  | .zt2560 => 0x2560
  | .zt1280 => 0x1280

def State.nPorts (s : State) : Nat := s.fuses.variant.ports
def State.nIslands (s : State) : Nat := s.fuses.variant.islands
def State.nEngines (s : State) : Nat := 32 * s.fuses.variant.islands
def State.nCxl (s : State) : Nat := s.fuses.variant.cxl

/-- A command at a unit, given the state before it and the state after it where the unit is present: at a unit that the part
does not have a write is discarded without effect (R6), and an event from outside finds nothing there (R3, log 13). -/
def atUnit (present : Bool) (s t : State) : Host.Outcome State Fault Refusal := .next (if present then t else s)

/-! ### Dynamic state of units -/

def State.port (s : State) (p : Nat) : PortDyn := SMap.val s.ports p PortDyn.reset
def State.setPort (s : State) (p : Nat) (d : PortDyn) : State := { s with ports := SMap.putD s.ports p d PortDyn.reset }
def State.modPort (s : State) (p : Nat) (f : PortDyn → PortDyn) : State := s.setPort p (f (s.port p))
def State.modTsu (s : State) (p : Nat) (f : TsuDyn → TsuDyn) : State :=
  s.modPort p (fun d => { d with tsu := f d.tsu })
def State.modSen (s : State) (p : Nat) (f : SenDyn → SenDyn) : State :=
  s.modPort p (fun d => { d with sen := f d.sen })
def State.island (s : State) (q : Nat) : IslandDyn := SMap.val s.islands q IslandDyn.reset
def State.setIsland (s : State) (q : Nat) (d : IslandDyn) : State :=
  { s with islands := SMap.putD s.islands q d IslandDyn.reset }
def State.panel (s : State) (t : Nat) : PanelDyn := SMap.val s.panels t PanelDyn.reset
def State.setPanel (s : State) (t : Nat) (d : PanelDyn) : State :=
  { s with panels := SMap.putD s.panels t d PanelDyn.reset }
def State.modPanel (s : State) (t : Nat) (f : PanelDyn → PanelDyn) : State := s.setPanel t (f (s.panel t))
def State.chan (s : State) (c : Nat) : ChDyn := SMap.val s.chans c ChDyn.reset
def State.setChan (s : State) (c : Nat) (d : ChDyn) : State := { s with chans := SMap.putD s.chans c d ChDyn.reset }
def State.cxlPort (s : State) (c : Nat) : CxlPort := SMap.val s.cxl c CxlPort.reset
def State.setCxl (s : State) (c : Nat) (d : CxlPort) : State := { s with cxl := SMap.putD s.cxl c d CxlPort.reset }
def State.line (s : State) (l : Nat) : LineDyn := SMap.val s.lines l LineDyn.reset
def State.setLine (s : State) (l : Nat) (d : LineDyn) : State := { s with lines := SMap.putD s.lines l d LineDyn.reset }
def State.meter (s : State) (m : Nat) : MeterDyn := SMap.val s.meters m MeterDyn.reset
def State.setMeter (s : State) (m : Nat) (d : MeterDyn) : State :=
  { s with meters := SMap.putD s.meters m d MeterDyn.reset }
def State.recov (s : State) (f : Nat) : RecDyn := SMap.val s.recs f RecDyn.reset
def State.setRecov (s : State) (f : Nat) (d : RecDyn) : State := { s with recs := SMap.putD s.recs f d RecDyn.reset }
def State.modMix (s : State) (f : MixS → MixS) : State := { s with mix := f s.mix }
def State.modCon (s : State) (f : ConS → ConS) : State := { s with con := f s.con }
def State.modTime (s : State) (f : TimeS → TimeS) : State := { s with time := f s.time }
def State.modHost (s : State) (f : HostS → HostS) : State := { s with host := f s.host }
def State.modPwr (s : State) (f : PwrS → PwrS) : State := { s with pwr := f s.pwr }
def State.modPair (s : State) (f : PairS → PairS) : State := { s with pair := f s.pair }
def State.modBst (s : State) (f : BstS → BstS) : State := { s with bst := f s.bst }

/-! ### Memories of the attached devices -/

/-- A byte of a memory listed as cells; an unlisted byte reads zero (R374, log 8). -/
def cellRead (m : List Host.Cell) (a : Nat) : Byte := SMap.val m a 0#8

/-- The memory with a byte written, in canonical form. -/
def cellWrite (m : List Host.Cell) (a : Nat) (b : Byte) : List Host.Cell := SMap.putD m a b 0#8

/-- `n` bytes from an address. -/
def cellsRead (m : List Host.Cell) (a : Nat) : Nat → List Byte
  | 0 => []
  | n + 1 => cellRead m a :: cellsRead m (a + 1) n

/-- The memory with bytes written from an address upward. -/
def cellsWrite (m : List Host.Cell) (a : Nat) : List Byte → List Host.Cell
  | [] => m
  | b :: r => cellsWrite (cellWrite m a b) (a + 1) r

/-! ### Time (R207, R240 to R242) -/

/-- 2^48 seconds in units of 2^-32 ns, where network time wraps. -/
def ntMod : Nat := 2 ^ 48 * 1000000000 * 2 ^ 32

/-- Network time in ns since the epoch. -/
def State.ns (s : State) : Nat := s.time.nt / 2 ^ 32

/-- Local time units in a nanosecond (and a nominal tick of the 1 GHz tick), a microsecond and a millisecond. -/
def ltNs : Nat := 1600
def ltUs : Nat := 1600000
def ltMs : Nat := 1600000000

/-- Local time units in a cycle of a 1.6 GHz island and of the control island. -/
def coreCycle : Nat := 1000
def ctlCycle : Nat := 4000

/-- For how long, and at which increment, network time advances before the increment counts: a slew, or the ticks before a new
increment (R241, R242). -/
def State.firstSpan (s : State) : Nat × Nat :=
  if 0 < s.time.slewLeft then (s.time.slewLeft, s.time.tempInc) else (s.time.oldUntil - s.lt, s.time.oldInc)

/-- The increment in force. -/
def State.incNow (s : State) : Nat := if 0 < s.firstSpan.1 then s.firstSpan.2 else s.time.inc

/-- What network time gains over `dt` of local time, in 1,600ths of 2^-32 ns (R240, R242). -/
def State.gainFine (s : State) (dt : Nat) : Nat :=
  min dt s.firstSpan.1 * s.firstSpan.2 + (dt - s.firstSpan.1) * s.time.inc

/-- What the counter gains over `dt` of local time, in 2^-32 ns. -/
def State.gain (s : State) (dt : Nat) : Nat := if dt = 0 then 0 else (s.time.rest + s.gainFine dt) / ltNs

/-- The least local time in which network time gains at least `d`. -/
def State.timeFor (s : State) (d : Nat) : Nat :=
  let n := ltNs * d - s.time.rest
  let a := s.firstSpan.1 * s.firstSpan.2
  if n ≤ a then ceilDiv n s.firstSpan.2 else s.firstSpan.1 + ceilDiv (n - a) s.time.inc

/-- Network time at a local instant (2^-32 ns): ahead at the increments in force and to come, back at those that were in force. -/
def State.ntAt (s : State) (t : Nat) : Nat :=
  if s.lt ≤ t then s.time.nt + s.gain (t - s.lt)
  else match s.time.past.find? (fun m => t < m.lt) with
    | some m => m.nt - (m.lt - t) * m.inc / ltNs
    | none => s.time.nt - (s.lt - t) * s.incNow / ltNs

/-- The marks that stand, with one more, at local time `t`. -/
def TimeS.mark (x : TimeS) (t : Nat) (m : TimeMark) : List TimeMark := x.past.filter (fun y => t < y.lt + ltMs) ++ [m]

/-- The advance of network time changes here. -/
def State.markTime (s : State) : State :=
  { s with time := { s.time with past := s.time.mark s.lt ⟨s.lt, s.time.nt, s.incNow⟩ } }

/-- Network time in the replica of port `p`'s island at a local instant (R18), in 2^-32 ns. -/
def State.portNt (s : State) (p t : Nat) : Nat := ((s.ntAt t : Int) + (s.port p).replica).toNat

/-- What ring time gains, in 2^-32 ns, in a nominal nanosecond: 1 + RATE + STEER (R207). -/
def State.ringRate (s : State) : Int := (2 ^ 32 : Nat) + s.fldS F.CON_RATE.RATE + s.fldS F.CON_STEER.STEER

/-- The marks after `dt` of local time: a slew's end, or the tick from which a new increment counts, is one. -/
def State.pastAfter (s : State) (dt : Nat) : List TimeMark :=
  let (a, r) := s.firstSpan
  if 0 < a ∧ a ≤ dt then s.time.mark (s.lt + a) ⟨s.lt + a, s.time.nt + s.gain a, r⟩ else s.time.past

/-- The device runs on for `dt` of local time: local time, network time, a slew, and ring time, which
each tick advances by 1 + RATE + STEER (R207). -/
def State.run (s : State) (dt : Nat) : State :=
  { s with
    lt := s.lt + dt
    time := { s.time with
      nt := (s.time.nt + s.gain dt) % ntMod
      rest := if dt = 0 then s.time.rest else (s.time.rest + s.gainFine dt) % ltNs
      slewLeft := s.time.slewLeft - dt, past := s.pastAfter dt }
    con := { s.con with
      rt := s.con.rt + ((dt : Int) * s.ringRate + s.con.rest) / ltNs
      rest := ((dt : Int) * s.ringRate + s.con.rest) % ltNs } }

/-- The device runs on to the network time `t` (units of 2^-32 ns), which is reached exactly (R240): local time goes on to its first
unit at or after that instant, and what network time has gained beyond is kept. An instant that has passed changes nothing. -/
def State.runToNt (s : State) (t : Nat) : State :=
  if t ≤ s.time.nt then s
  else
    let dt := s.timeFor (t - s.time.nt)
    let r := s.run dt
    { r with time := { r.time with
        nt := t % ntMod, rest := s.time.rest + s.gainFine dt - (t - s.time.nt) * ltNs } }

/-- The device runs on to a network time in ns. -/
def State.runToNs (s : State) (t : Nat) : State := s.runToNt (t * 2 ^ 32)

/-- The device runs on to a local time. -/
def State.runToLt (s : State) (t : Nat) : State := if t ≤ s.lt then s else s.run (t - s.lt)

/-- The device runs on to the next multiple of a local period. -/
def State.runPeriod (s : State) (period : Nat) : State := s.runToLt ((s.lt / period + 1) * period)

/-! ### Random draws (log 4) -/

/-- A 32-bit draw of the hardware random source; its value is a free value. -/
def State.draw (s : State) : Nat × State :=
  ((Config.random s.draws).toNat, { s with draws := s.draws + 1 })

/-! ### MSI-X vectors (R304) -/

/-- Function `fn` exists (R301): the PF, or a VF that VF Enable and NumVFs give. -/
def State.fnExists (s : State) (fn : Nat) : Bool :=
  fn = 0 || (s.host.vfEnable && fn ≤ s.host.numVfs && fn ≤ 15)

/-- The device signals vector `v` of function `fn`: a masked vector sets its pending bit, an unmasked one is sent while MSI-X Enable is
1; a VF that does not exist sends nothing (R301). -/
def State.sendVec (s : State) (fn v : Nat) : State :=
  if !s.fnExists fn then s
  else if !s.host.unmasked.contains (fn, v) then
    if s.host.pendingVec.contains (fn, v) then s
    else s.modHost (fun h => { h with pendingVec := h.pendingVec ++ [(fn, v)] })
  else if !s.host.msixEnable.contains fn then s
  else s.modHost (fun h => { h with sent := h.sent ++ [(fn, v)] })

/-! ### Crossings (R14, R16, R17) -/

/-- The island numbers of the model beside 0-15 (port islands) and 16-31 (engine islands). -/
def islClassifier : Nat := 32
def islTime : Nat := 33
def islRing : Nat := 34
def islMemory : Nat := 35
/-- The panel ports' side of their crossings (R66). -/
def islPanel : Nat := 36

/-- The island of the model at an index of PWR_XING_DISCARD (R392): classifier, ring and memory follow the others. -/
def xingIndex (isl : Nat) : Option Nat :=
  if isl ≤ 32 then some isl else if isl = islRing then some 33 else if isl = islMemory then some 34 else none

/-- A clock cycle of an island: the 1.6 GHz islands, and the time island's 1 GHz tick. -/
def clkOf (isl : Nat) : Nat := if isl = islTime then ltNs else coreCycle

/-- Units whose island's inputs are held: by a warm reset, or by a block reset of the unit (R16, R376, R377). A port's are held by
a reset of its PRT or of its QSH block. -/
def State.heldBy (s : State) (f : Nat × Nat × Nat → Bool) : Bool := s.pwr.warmRun.isSome || s.pwr.blockRun.any f
def State.portHeld (s : State) (p : Nat) : Bool := s.heldBy (fun b => b.1 = 0x10 + p && (b.2.1 = 0 || b.2.1 = 2))
def State.engineHeld (s : State) (m : Nat) : Bool := s.heldBy (fun b => b.1 = 0x50 + m)
def State.panelHeld (s : State) : Bool := s.heldBy (fun b => b.1 = 0x0B)
/-- The CXM block is held in reset. -/
def State.cxmHeld (s : State) : Bool := s.heldBy (fun b => b.1 = 7)

def State.sidHeld (s : State) : Bool := s.heldBy (fun b => b.1 = 0x0A)
def State.ringHeld (s : State) : Bool := s.heldBy (fun b => b.1 = 5)

/-- A transfer discarded at its sender counts in PWR_XING_DISCARD of the destination (R16). -/
def State.xingDiscard (s : State) (dst : Nat) : State :=
  match xingIndex dst with
  | some i => s.bump F.PWR_XING_DISCARD.DISCARDS 0 i
  | none => s

end Sys2Proof.Machine
end

