-- ==== Sys2Proof/Machine/Xci.lean ====
section
/-! DEFINITION. The mailbox and the sequencer's side of a command that every XCI command uses: the words of the request
in execution, its response, and parking (R305 to R311). -/

namespace Sys2Proof.Machine

/-- The opcode and the tag of a request (R307). -/
def Cmd.opcode (c : Cmd) : Nat := bitsOf (c.words.getD 0 0) 15 0
def Cmd.tag (c : Cmd) : Nat := bitsOf (c.words.getD 0 0) 31 16

/-- Request word `w`. -/
def Cmd.word (c : Cmd) (w : Nat) : Nat := c.words.getD w 0

/-- Status codes of R308. -/
def xOK : Nat := 0
def xBUSY : Nat := 1
def xBADOP : Nat := 2
def xBADARG : Nat := 3
def xLOCKED : Nat := 4
def xWRONGSTATE : Nat := 5
def xNORES : Nat := 6
def xLATE : Nat := 7
def xAUTH : Nat := 8

/-- The response of a command: word 0 from tag, detail and status (R307), the words it defines, zeros after them. -/
def respWords (c : Cmd) (st det : Nat) (ws : List Nat) : List Nat :=
  ((c.tag * 2 ^ 16 + det * 2 ^ 8 + st) :: ws ++ List.replicate 16 0).take 16

/-- The 16 response words of function `fn` are written. -/
def State.setResp (s : State) (fn : Nat) (ws : List Nat) : State :=
  (List.range 16).foldl (fun t w => t.setf F.HIF_MB_RESP (ws.getD w 0) fn w) s

/-- A completed command answers its source (R305, R317, R237): the mailbox's response words, DONE set and BUSY cleared
together, and vector 0 while IRQ_EN is 1; a discarded response leaves the mailbox; the remote source's answer goes back
to its command slot, and the next request that waits there takes its turn. -/
def State.answer (s : State) (c : Cmd) (st det : Nat) (ws : List Nat) : State :=
  if c.src = 16 then
    let q := s.con.remote
    (s.modCon (fun r => { r with
      remote := q.drop 1, answers := r.answers ++ (q.take 1).map (fun x => (x.1, respWords c st det ws)) })).modHost (fun h =>
      { h with waiting := match q[1]? with
          | some x => SMap.put h.waiting 16 x.2
          | none => h.waiting })
  else if c.discard then s.bump F.HIF_CMDS c.src
  else
    let t := s.setResp c.src (respWords c st det ws)
    let t := t.setf F.HIF_MB_STATUS.DONE 1 c.src
    let t := t.setf F.HIF_MB_STATUS.BUSY 0 c.src
    let t := t.setf F.HIF_MB_STATUS.EXECUTING 0 c.src
    let t := t.setf F.HIF_MB_STATUS.PARKED 0 c.src
    let t := t.bump F.HIF_CMDS c.src
    if t.on F.HIF_MB_CTL.IRQ_EN c.src then t.sendVec c.src 0 else t

/-- The command in execution completes; the sequencer is free (R310). -/
def State.finish (s : State) (st det : Nat) (ws : List Nat) : State :=
  match s.host.cur with
  | none => s
  | some c => (s.modHost (fun h => { h with cur := none })).answer c st det ws

/-- The command in execution completes with OK. -/
def State.finishOk (s : State) (ws : List Nat) : State := s.finish xOK 0 ws

/-- The command in execution, when its opcode is `op`. -/
def State.curOp (s : State) (op : Nat) : Option Cmd := s.host.cur.filter (fun c => c.opcode = op)

/-- The sequencer executes the command of opcode `op` by `f`; when it is not executing one, nothing happens. -/
def State.xci (s : State) (op : Nat) (f : Cmd → State → State) : State :=
  match s.curOp op with
  | none => s
  | some c => f c s

/-- The command in execution parks: the sequencer is free and the mailbox shows PARKED (R311). -/
def State.park (s : State) : State :=
  match s.host.cur with
  | none => s
  | some c =>
    let t := s.modHost (fun h => { h with cur := none, parked := h.parked ++ [c] })
    if c.src < 16 ∧ ¬ c.discard then
      (t.setf F.HIF_MB_STATUS.EXECUTING 0 c.src).setf F.HIF_MB_STATUS.PARKED 1 c.src
    else t

/-- A parked command of opcode `op`, oldest first. -/
def State.parkedOp (s : State) (op : Nat) : Option Cmd := s.host.parked.find? (fun c => c.opcode = op)

/-- The block completes the oldest parked command of opcode `op` (R311). -/
def State.finishParked (s : State) (op st det : Nat) (ws : List Nat) : State :=
  match s.parkedOp op with
  | none => s
  | some c =>
    (s.modHost (fun h => { h with parked := h.parked.erase c })).answer c st det ws

/-- The block completes every parked command of opcode `op`, oldest first. -/
def State.finishAll (s : State) (op st det : Nat) (ws : List Nat) : State :=
  (s.host.parked.filter (fun c => c.opcode = op)).foldl (fun t _ => t.finishParked op st det ws) s

end Sys2Proof.Machine
end

