-- ==== Sys2Proof/Machine/Flags.lean ====
section
/-! DEFINITION. The status computations: the fault collector (R366 to R372), the reaction to an S3 (R33, R367), wake
requests (R384), the refusal record (R29, R332), and the registers that show present conditions (R369). -/

namespace Sys2Proof.Machine

/-! ### Which outputs and activities the operating state permits (R28) -/

/-- STARTUP, OPERATIONAL and RECOVERY (R313). -/
def OpState.service : OpState → Bool
  | .startup => true
  | .operational => true
  | .recovery => true
  | .test => false
  | .safe => false

/-- The codes of HIF_STATE.OPSTATE (R319). -/
def OpState.code : OpState → Nat
  | .startup => 0
  | .test => 1
  | .operational => 2
  | .recovery => 3
  | .safe => 4

/-- The conditions under which ALIVE changes level (R345); the heartbeat is withheld once an S3 is recorded (R367) and
while the control island hangs (R346). -/
def State.aliveOk (s : State) : Bool :=
  (s.op = .operational || s.op = .recovery) && (s.pwr.state != .standby) && s.pwr.entry.isNone &&
    !s.pwr.s3Wait && !s.pair.hung && s.phase = .running

/-- Every output sends idles, whatever the traffic: STANDBY and its entry (R382), a warm reset (R376), R346, and any
state but the service states and TEST. -/
def State.outputsDown (s : State) : Bool :=
  s.phase != .running || s.pwr.state = .standby || s.pwr.entry.isSome || s.pwr.warmRun.isSome ||
    s.pair.forcedIdle || s.op = .safe

/-- Link-local control frames may be sent (R28, R356 step 1). -/
def State.controlMay (s : State) : Bool := !s.outputsDown && s.op.service && s.pair.takeover.isNone

/-- The operating state permits forwarded, mixed, delayed and host-originated frames on port `p`: OPERATIONAL, and TEST on a
network port in loopback (R28). -/
def State.dataState (s : State) (p : Nat) : Bool :=
  s.op = .operational || (s.op = .test && p < 64 && s.on F.PRT_CTL.LOOPBACK p)

/-- Such frames may be sent on port `p` now. -/
def State.dataMay (s : State) (p : Nat) : Bool := !s.outputsDown && s.dataState p

/-! ### The mirror pair's levels (R4, R348) -/

/-- The mirror port of the variant (R3). -/
def State.mirrorPort (s : State) : Nat := s.nCxl - 1

/-- A CXL port is MAPPED (R268). -/
def State.mapped (s : State) (c : Nat) : Bool := s.fld F.CXM_PORT_STATUS.STATE 0 c = 4

def State.pairOn (s : State) : Bool := s.on F.PAIR_CTL.PAIR_EN

/-- READY of R348: in RECOVERY with the mirror port MAPPED and SYNCED at 1, the pair enabled and the level low. -/
def State.pairReady (s : State) : Bool :=
  s.pairOn && !s.pair.roleLevel && s.op = .recovery && s.mapped s.mirrorPort && s.on F.NTM_STATUS.SYNCED

/-- The level driven on ROLE_STATE (R348). -/
def State.roleState (s : State) : Bool :=
  s.pairOn && (if s.pair.roleLevel then s.op = .operational else s.pairReady)

/-! ### Fault sources (R366, R409) -/

/-- The severity that the source tables fix. -/
def severity (src : Nat) : Nat :=
  if [0, 3, 9, 11, 65, 81, 88].contains src then 3
  else if [1, 15, 33, 56, 84, 86].contains src then 0
  else if [2, 18, 34, 35, 40, 52, 53, 59, 73, 82].contains src then 1
  else 2

/-- A record goes before another of its cycle: by severity, then by ascending source (R370). -/
def HistRec.before (a b : HistRec) : Bool := a.sev > b.sev || (a.sev = b.sev && a.src < b.src)

/-- Insertion into the records of a cycle, after every record that does not come later. -/
def insertRec (r : HistRec) : List HistRec → List HistRec
  | [] => [r]
  | x :: l => if r.before x then r :: x :: l else x :: insertRec r l

/-- The records of one cycle with SAME_CYCLE and LOST_BEFORE as R370 gives them. -/
def markCycle (lost : Bool) : List HistRec → List HistRec
  | [] => []
  | x :: l => { x with sameCycle := false, lostBefore := lost } ::
      l.map (fun y => { y with sameCycle := true, lostBefore := false })

/-- The number of records that the history holds at most (R370). -/
def histMax : Nat := 512

/-- The history after a record of the present cycle is queued, and whether a record of the cycle was lost. -/
def FltS.queue (f : FltS) (r : HistRec) : FltS × Bool :=
  let old := f.history.filter (fun x => x.cycle ≠ r.cycle)
  let cur := f.history.filter (fun x => x.cycle = r.cycle)
  let lb := match cur with
    | [] => f.lost
    | c :: _ => c.lostBefore
  let cur := if r.first then cur.map (fun x : HistRec => { x with first := false }) else cur
  let all := insertRec r cur
  let keep := histMax - old.length
  let lost' := if keep = 0 then f.lost else if cur = [] then false else f.lost
  ({ f with history := old ++ markCycle lb (all.take keep), lost := lost' || keep < all.length }, keep < all.length)

/-- The record becomes the first-fault record: none is held, or the held one is of this cycle and comes after it
(R371). -/
def FltS.takesFirst (f : FltS) (r : HistRec) : Bool :=
  match f.first with
  | none => true
  | some x => x.cycle = r.cycle && r.before x

/-- A cause bit with its FLT_IRQ_EN bit at 1 changed from 0 to 1: vector 1, or its holdoff (R372). -/
def State.faultIrq (s : State) : State :=
  match s.flt.holdEnd with
  | some _ => { s with flt := { s.flt with during := true } }
  | none =>
    let t := s.sendVec 0 1
    let h := s.fld F.FLT_CTL.HOLDOFF
    if h = 0 then t else { t with flt := { t.flt with holdEnd := some (s.lt + h * ltUs), during := false } }

/-- The cause bit of a source is set; a change from 0 to 1 forgets reads made before it (R368) and may interrupt. -/
def State.setCause (s : State) (src : Nat) : State :=
  let s := { s with flt := { s.flt with last := SMap.putD s.flt.last src (s.lt / ctlCycle + 1) 0 } }
  if s.fbit F.FLT_CAUSE (src % 32) 0 (src / 32) then s
  else
    let t := s.setBit F.FLT_CAUSE (src % 32) true 0 (src / 32)
    let t := { t with flt := { t.flt with seen := t.flt.seen.filter (· ≠ src) } }
    if t.fbit F.FLT_IRQ_EN (src % 32) 0 (src / 32) then t.faultIrq else t

/-- The counter of a severity (R391). -/
def sevCounter (sev : Nat) : Field :=
  match sev with
  | 0 => F.FLT_COUNT_S0
  | 1 => F.FLT_COUNT_S1
  | 2 => F.FLT_COUNT_S2
  | _ => F.FLT_COUNT_S3

/-- The network time in ns of the start of the present control-island cycle (R366). -/
def State.cycleNs (s : State) : Nat := s.ntAt (s.lt - s.lt % ctlCycle) / 2 ^ 32

/-- The collector records an event: history, first-fault record, counter and cause bit (R366, R368 to R371). -/
def State.record (s : State) (src info : Nat) : State :=
  let sev := severity src
  let r0 : HistRec := ⟨s.cycleNs, false, false, false, sev, src, info % 2 ^ 32, s.lt / ctlCycle⟩
  let isFirst := s.fld F.FLT_CTL.FIRST_MIN ≤ sev && s.flt.takesFirst r0
  let r := { r0 with first := isFirst }
  let f := if isFirst then { s.flt with first := some r } else s.flt
  let q := if s.fld F.FLT_CTL.HIST_MIN ≤ sev || sev = 3 then f.queue r else (f, false)
  let t := { s with flt := q.1 }
  let t := if q.2 then t.bump F.FLT_HIST_LOST else t
  (t.bump (sevCounter sev)).setCause src

/-! ### Wake requests (R384) -/

/-- The exit that a wake request starts while AUTO_EXIT is 1: from DOZE at once (R381), from STANDBY, or at the end of an
entry to it, by the steps of R385. -/
def State.startExit (s : State) : State :=
  if s.pwr.entry.isSome || s.pwr.state = .standby then
    if s.pwr.exit.isSome then s else s.modPwr (fun p => { p with exit := some s.lt })
  else if s.pwr.state = .doze then (s.modPwr (fun p => { p with state := .run })).setf F.PWR_WAKE_TIMES.EXIT 1
  else s

/-- A wake request of cause bit `bit`, with the port of a PATTERN or PANEL request (R384). -/
def State.wake (s : State) (bit : Nat) (port : Option Nat) : State :=
  let t := s.setBit F.PWR_WAKE_CAUSE.CAUSE bit true
  let t := match port with
    | some p => t.setf F.PWR_WAKE_CAUSE.PORT p
    | none => t
  let t := t.record 15 (t.fld F.PWR_WAKE_CAUSE.PORT * 2 ^ 24 + t.fld F.PWR_WAKE_CAUSE.CAUSE)
  let t := t.modPwr (fun p => { p with wakeOut := some t.lt })
  if t.on F.PWR_WAKE_CTL.AUTO_EXIT then t.startExit else t

/-- A wake request that its PWR_WAKE_CTL.EN bit allows. -/
def State.wakeIf (s : State) (bit : Nat) (port : Option Nat) : State :=
  if s.fbit F.PWR_WAKE_CTL.EN bit then s.wake bit port else s

/-! ### Operating-state changes and SAFE -/

/-- ALIVE's next edge: the first falls due 500 ns after the conditions hold, and none while they do not (R345). -/
def State.timeAlive (s : State) : State :=
  s.modPair (fun p => { p with aliveNext := if s.aliveOk then some (p.aliveNext.getD (s.lt + 500 * ltNs)) else none })

/-- The operating state becomes `new`: where the device leaves the one it was in, the idles of R346 end; ALIVE follows its
conditions. A node that enters OPERATIONAL adds nothing that it read before (R362). -/
def State.toOp (s : State) (new : OpState) : State :=
  (State.timeAlive { s with
    op := new
    con := if new = .operational ∧ s.op ≠ .operational then { s.con with contrib := [] } else s.con
    pair := { s.pair with forcedIdle := s.pair.forcedIdle && s.op = new } })

/-- A channel is paused as a write of 1 to PAUSE does (R290): a running one drains first. The codes are those of
DMA_CH_STATUS.STATE. -/
def State.pauseChan (s : State) (c : Nat) : State :=
  let st := s.fld F.DMA_CH_STATUS.STATE 0 c
  let t := s.setf F.DMA_CH_CTL.PAUSE 1 0 c
  if st = 1 ∨ st = 6 then t.setf F.DMA_CH_STATUS.STATE 4 0 c
  else if st = 2 ∨ st = 5 then t.setf F.DMA_CH_STATUS.STATE 3 0 c
  else t

/-- Every channel pauses (R291, R407). -/
def State.pauseAll (s : State) : State := (List.range 64).foldl State.pauseChan s

/-- Repairs in force, latest last: fused ones, then soft ones. -/
def State.repairs (s : State) : List Repair := s.fuses.repairs ++ s.bst.soft

/-- A group of engine islands, and a group that tests memories (R393). -/
def bistEngine (g : Nat) : Bool := g = 2 || g = 3
def bistMemory (g : Nat) : Bool := [0, 2, 4].contains g

/-- A spare that the run tried serves logical unit `u` of group `g` and has not failed: the unit's failure is repaired (R399). -/
def BstS.mended (b : BstS) (inForce : List Repair) (g u : Nat) : Bool :=
  b.repairOf.any (fun r => r.1 = (bistEngine g).toNat && r.2.1 = u && inForce.contains ⟨bistEngine g, u, r.2.2⟩ &&
    !b.badSpares.contains (bistEngine g, r.2.2))

/-- RESULT of a group's record (R398) from its units, FAIL_MAP, UNREPAIRED_MAP, and whether every failed unit was repaired: a failure
that no repair met, since the run ended before its spares had been tested, stays at FAIL. -/
def bistResult (us : List BistUnit) (failMap unrep : Nat) (mended : Bool) : Nat :=
  if us.any (fun u => u.state = 4) then 5
  else if failMap ≠ 0 then (if unrep ≠ 0 then 4 else if mended then 3 else 2)
  else if us.any (fun u => u.state = 5 || u.state = 0) then 0
  else 1

/-- The record of a group with its RESULT, and for a group with a failure the number of spares tested in it, brought up to date. -/
def BstS.settle (b : BstS) (inForce : List Repair) (g : Nat) : BstS :=
  let ws := SMap.val b.results g []
  let w1 := ws.getD 0 0
  let us := b.units.filter (fun u => u.group = g)
  let failMap := bitsOf w1 31 16
  let mended := (List.range 16).all (fun u => !failMap.testBit u || b.mended inForce g u)
  let tried := if failMap = 0 then 0 else (us.filter (fun u => u.spare && (u.state = 2 || u.state = 3))).length
  let ws := withBits w1 3 0 (bistResult us failMap (ws.getD 10 0) mended) :: ws.drop 1
  { b with results := SMap.put b.results g (ws.set 9 (withBits (ws.getD 9 0) 3 0 tried)) }

/-- The memory units that run when a test is cut off hold test patterns as far as it got, like those of a test that ended (R397). -/
def State.cutOff (s : State) : State :=
  let us := (s.bst.units.filter (fun u => u.state = 1 && !u.spare && bistMemory u.group)).map (fun u => 16 * u.group + u.unit)
  if us = [] then s
  else
    { s with
      bst := { s.bst with tested := us ++ s.bst.tested.filter (fun u => !us.contains u), pattern := s.bst.pattern + 1 } }

/-- A run stops (R401): running units are ABORTED and pending ones NOT_RUN, and the parked BIST_RUN completes. -/
def State.bistStop (s : State) : State :=
  match s.bst.run with
  | none => s
  | some _ =>
    let s := s.cutOff
    let us := s.bst.units.map (fun u =>
      if u.state = 1 then { u with state := 4 } else if u.state = 0 then { u with state := 5 } else u)
    let b := { s.bst with units := us, run := none }
    let b := (List.range 9).foldl (fun b g => if us.any (fun u => u.group = g) then b.settle s.repairs g else b) b
    let t := { s with bst := b }
    (t.setf F.BST_STATUS.RUNNING 0).finishParked 0x70 xOK 0 []

/-- Entry to SAFE (R31, R291, R358, R401): the channels pause, a BIST run stops and a takeover is abandoned. -/
def State.toSafe (s : State) : State :=
  let t := (s.toOp .safe).pauseAll.bistStop
  if t.pair.takeover.isSome then
    (t.modPair (fun p => { p with takeover := none })).setf F.PAIR_STATUS.LAST_OUTCOME 4
  else t

/-- A reset is in progress that an S3 waits for (R378): a warm reset or a block reset; or the power state must leave
STANDBY first (R380). -/
def State.s3MustWait (s : State) : Bool :=
  s.pwr.warmRun.isSome || s.pwr.blockRun.isSome || s.pwr.state = .standby || s.pwr.entry.isSome

/-- The reaction to an S3 (R367, R378, R380): a wake request whatever PWR_WAKE_CTL says, and SAFE, at once or when the
reset or the exit that runs has ended; in a power-on or cold reset nothing. While it waits, ALIVE is stopped, and where that
stop came in a service state the outputs send idles (R346). -/
def State.reactS3 (s : State) : State :=
  if s.phase ≠ .running then s
  else
    let t := s.wake 5 none
    if t.s3MustWait then
      let stops := t.aliveOk
      let t := t.modPwr (fun p => { p with s3Wait := true })
      let t := (t.modPair (fun p => { p with forcedIdle := p.forcedIdle || stops })).timeAlive
      if t.pwr.state = .standby ∨ t.pwr.entry.isSome then t.startExit else t
    else if t.op = .safe then t
    else if t.pwr.state = .doze then t.startExit.toSafe
    else t.toSafe

/-- A fault event of a source with its info word (R366, R367), and the wake request that an S2 or S3 raises (R384). -/
def State.raise (s : State) (src info : Nat) : State :=
  let t := s.record src info
  if severity src = 3 then t.reactS3
  else if severity src = 2 then t.wakeIf 4 none
  else t

/-- The waiting reaction to an S3 takes effect at the end of the reset or exit (R378, R380). -/
def State.settleS3 (s : State) : State :=
  if s.pwr.s3Wait && !s.s3MustWait then
    let t := s.modPwr (fun p => { p with s3Wait := false })
    if t.op = .safe then t else (if t.pwr.state = .doze then t.startExit else t).toSafe
  else s

/-! ### The refusal record (R29, R332) -/

/-- The causes of R332. -/
def cENABLED : Nat := 0
def cLOCKED : Nat := 1
def cSTATE : Nat := 2
def cVALUE : Nat := 3
def cRULE : Nat := 4

/-- The code of an access path in REG_WI_STATUS.SPACE (R344). -/
def spaceCode : Space → Nat
  | .bar0 => 0
  | .vfBar0 => 1
  | .bar2 => 2
  | .dma4 => 3

/-- Where a write came from: access path, function, offset as received, and the DMA channel for region 0x4. -/
structure Origin4 where
  space : Space
  fn : Nat
  addr : Nat
  ch : Nat
  deriving DecidableEq, Repr

/-- A write of the PF to an offset of BAR0 or of BAR2. -/
def atBar0 (addr : Nat) : Origin4 := ⟨.bar0, 0, addr, 0⟩
def atBar2 (addr : Nat) : Origin4 := ⟨.bar2, 0, addr, 0⟩

/-- A refused write is recorded (R332, R344): counted, and captured while no capture is held; a capture raises
REG_WRITE_IGNORED. -/
def State.refuse (s : State) (o : Origin4) (data cause : Nat) : State :=
  let t := s.bump F.REG_WI_COUNT.COUNT
  if t.on F.REG_WI_STATUS.WRITE_IGNORED then t.setf F.REG_WI_STATUS.MORE 1
  else
    let t := t.setf F.REG_WI_STATUS.WRITE_IGNORED 1
    let t := t.setf F.REG_WI_STATUS.SPACE (spaceCode o.space)
    let t := t.setf F.REG_WI_STATUS.FUNCTION o.fn
    let t := t.setf F.REG_WI_STATUS.CAUSE cause
    let t := t.setf F.REG_WI_STATUS.CHANNEL (if o.space = .dma4 then o.ch else 0)
    let t := t.setf F.REG_WI_ADDR.ADDRESS o.addr
    let t := t.setf F.REG_WI_DATA.DATA data
    t.raise 1 (o.addr % 2 ^ 30)

/-! ### Register writes that the operating state admits (R28, R333, R383, R408) -/

/-- A life-cycle wipe runs (R407). -/
def State.wiping (s : State) : Bool := s.on F.BST_STATUS.WIPING

/-- The operating state, STANDBY or a wipe refuses a BAR0 write to system window `w` (port and engine windows: their
number); R333's registers are admitted by `reg333`. -/
def State.writeBarred (s : State) (w : Nat) (reg333 : Bool) : Bool :=
  if s.pwr.state = .standby && 4 < w then true
  else if reg333 then false
  else if s.wiping then true
  else match s.op with
    | .test => w ≠ 9
    | .safe => w ≠ 2 && w ≠ 3
    | _ => false

/-- The same for a BAR2 write (R28, R383, R408). -/
def State.tableBarred (s : State) : Bool :=
  s.pwr.state = .standby || s.wiping || s.op = .test || s.op = .safe

/-- A register write to window `w` takes effect by `f`, or is refused with cause STATE (R28, R29). -/
def State.gated (s : State) (w : Nat) (o : Origin4) (data : Nat) (f : State → State) : State :=
  if s.writeBarred w false then s.refuse o data cSTATE else f s

/-- A table write takes effect by `f`, or is refused with cause STATE. -/
def State.gatedTab (s : State) (o : Origin4) (data : Nat) (f : State → State) : State :=
  if s.tableBarred then s.refuse o data cSTATE else f s

/-! ### Locks (R335) -/

/-- The lock of a system window, of a port and of an engine island. -/
def State.lockSys (s : State) (w : Nat) : Bool :=
  if w = 0 then s.on F.REG_LOCK_SYS.LOCK_HIF else if w < 2 then false else s.fbit F.REG_LOCK_SYS.LOCK_SYS (w - 2)
def State.lockPort (s : State) (p : Nat) : Bool :=
  if p < 32 then s.fbit F.REG_LOCK_PORT_L.LOCK_PORT p else s.fbit F.REG_LOCK_PORT_H.LOCK_PORT (p - 32)
def State.lockEng (s : State) (m : Nat) : Bool := s.fbit F.REG_LOCK_ENG.LOCK_ENG m

/-! ### Present conditions (R369) -/

/-- Some network port of the part satisfies `f`. -/
def State.anyPort (s : State) (f : Nat → Bool) : Bool := (List.range s.nPorts).any f

/-- The LIVE bit of a source (the LIVE columns of R366 and R409). -/
def State.live (s : State) (src : Nat) : Bool :=
  match src with
  | 8 => s.pwr.warnRun ≠ []
  | 9 => s.pwr.failRun ≠ []
  | 10 => (List.range 38).any (fun i => (s.fld F.PWR_THERM_CTL.WARN_C : Int) ≤ s.fldS F.PWR_THERM_SENS 0 i)
  | 11 => (List.range 38).any (fun i => (s.fld F.PWR_THERM_CTL.CRIT_C : Int) ≤ s.fldS F.PWR_THERM_SENS 0 i)
  | 12 => s.on F.PWR_AVS_STATUS.STOPPED
  | 13 => s.pwr.avsLowRun ≠ 0
  | 14 => s.fld F.PWR_BUDGET < s.pwr.watts
  | 16 => s.anyPort (fun p => s.on F.PRT_CTL.ENABLE p && !s.on F.PRT_STATUS.LINK_UP p)
  | 17 => s.anyPort (fun p => (s.port p).ignoreFc ≠ [])
  | 25 => s.recs.any (fun r => r.2.latent)
  | 34 => !s.on F.NTM_STATUS.SYNCED
  | 35 => s.anyPort (fun p => s.on F.TSU_STATUS.STALE p)
  | 48 => s.on F.CON_STATE.WRAP_W || s.on F.CON_STATE.WRAP_E
  | 49 => s.on F.CON_STATE.SPLIT
  | 51 => s.con.dupHold
  | 52 => s.fld F.CON_STATE.STATE = 5
  | 57 => (List.range s.nCxl).any (fun c => s.mapped c && s.on F.CXM_PORT_STATUS.DEGRADED 0 c)
  | 58 => (List.range s.nCxl).any (fun c => s.fld F.CXM_PORT_STATUS.STATE 0 c = 5)
  | 73 => !s.host.linkUp
  | 85 => 8 < s.fld F.BST_STATUS.AUTH_FAILS
  | _ => false

/-- FLT_LIVE register `i`. -/
def State.liveWord (s : State) (i : Nat) : Nat :=
  (List.range 32).foldr (fun b a => (s.live (32 * i + b)).toNat * 2 ^ b + a) 0

end Sys2Proof.Machine
end

