-- ==== Sys2Proof/Machine/HostIf.lean ====
section
/-! DEFINITION. The host interface: mailboxes, the judgement of commands by the sequencer, the commands that concern no
other block, PCIe events and function resets (R295 to R319). -/

namespace Sys2Proof.Machine

/-- Bit `i` of a map is what `f` says of unit `i`. -/
def bitMap (n : Nat) (f : Nat → Bool) : Nat := (List.range n).foldr (fun i a => (f i).toNat * 2 ^ i + a) 0

/-- The host can reach the device: reset has ended and PERSTn is released (R27, R297). -/
def State.hostUp (s : State) : Bool := s.phase = .running && !s.host.perst

/-- The vendor ID, the revision ID of revision B1 and the class code of every function (R295, R8). -/
def vendorId : Nat := 0x1E5D
def revisionId : Nat := 0x21
def classCode : Nat := 0x0B_4000

/-- The device ID of the PF is the part code, and of a VF one more (R295). -/
def State.deviceId (s : State) (fn : Nat) : Nat := s.fuses.variant.part + if fn = 0 then 0 else 1

/-- The subsystem vendor ID of every function; its subsystem ID is its device ID (R295). -/
def subsystemVendorId : Nat := 0x1E5D

/-- The tags that the device may have outstanding, and the capabilities that it offers (R295). -/
def maxTags : Nat := 768
def capabilities : List String := ["Power management", "PCIe", "MSI-X", "AER", "SR-IOV", "FLR", "Device Serial Number"]

/-- TotalVFs, First VF Offset and VF Stride (R301). -/
def totalVfs : Nat := 15
def firstVfOffset : Nat := 1
def vfStride : Nat := 1

/-- The vectors of a function: 72 of the PF, 9 of a VF (R301). -/
def vecCount (fn : Nat) : Nat := if fn = 0 then 72 else 9

/-! ### BARs and the PCIe side of a function (R295, R299, R304) -/

/-- The size of a BAR in octets: of the PF, or of a VF; 0 where the function has none (R299). -/
def barSize (vf : Bool) (n : Nat) : Nat :=
  match vf, n with
  | false, 0 => 0x80_0000
  | false, 2 => 0x4000_0000
  | false, 4 => 0x4000
  | true, 0 => 0x2_0000
  | true, 4 => 0x1000
  | _, _ => 0

/-- BAR2 of the PF alone is prefetchable (R299). -/
def barPrefetchable (vf : Bool) (n : Nat) : Bool := !vf && n = 2

/-- The keys of a BAR and of an MSI-X table entry. -/
def barKey (vf : Bool) (n : Nat) : Nat := n + if vf then 8 else 0
def vecKey (fn v : Nat) : Nat := fn * 128 + v

def State.modPcie (s : State) (f : PcieS → PcieS) : State := s.modHost (fun h => { h with pcie := f h.pcie })

/-- The base address of BAR `n` of function `fn`; the VFs' BARs follow each other by their size (R299, R301). -/
def State.barBase (s : State) (fn n : Nat) : Nat :=
  SMap.val s.host.pcie.bars (barKey (fn ≠ 0) n) 0 + if fn = 0 then 0 else (fn - 1) * barSize true n

/-- What the BAR register `n` of a function reads: its base with the bits of a 64-bit memory BAR; a VF's own read 0, its base stands in
SR-IOV (log 74). -/
def State.barReg (s : State) (fn n : Nat) : Nat :=
  if fn ≠ 0 ∨ barSize false n = 0 then 0
  else s.barBase 0 n + 4 + if barPrefetchable false n then 8 else 0

/-- The largest payload and read request that a function is set to: 128 and 512 octets from reset (log 74). -/
def State.sizesOf (s : State) (fn : Nat) : Nat × Nat := SMap.val s.host.pcie.sizes fn (128, 512)

/-- The vector control of an MSI-X table entry: bit 0 is its mask. -/
def State.vecControl (s : State) (fn v : Nat) : Nat := if s.host.unmasked.contains (fn, v) then 0 else 1

/-- A dword of BAR4: the MSI-X table at 0, four dwords an entry, and the pending bits at half of the BAR (R299). -/
def State.bar4Read (s : State) (fn off : Nat) : Nat :=
  let pba := barSize (fn ≠ 0) 4 / 2
  let off := off % barSize (fn ≠ 0) 4
  if off < 16 * vecCount fn then
    let v := off / 16
    let e := SMap.val s.host.pcie.msix (vecKey fn v) (0, 0)
    match off / 4 % 4 with
    | 0 => e.1 % 2 ^ 32
    | 1 => e.1 / 2 ^ 32 % 2 ^ 32
    | 2 => e.2
    | _ => s.vecControl fn v
  else if pba ≤ off then
    bitMap 32 (fun b =>
      (off - pba) / 4 * 32 + b < vecCount fn && s.host.pendingVec.contains (fn, (off - pba) / 4 * 32 + b))
  else 0

/-- What a read of an item of a function's configuration space returns (R295, R299, R301). -/
def State.cfgItem (s : State) (fn : Nat) : CfgItem → Nat
  | .vendorId => vendorId
  | .deviceId => s.deviceId fn
  | .revisionId => revisionId
  | .classCode => classCode
  | .subsystemVendorId => subsystemVendorId
  | .subsystemId => s.deviceId fn
  | .bar n => s.barReg fn n
  | .linkSpeed => s.host.pcie.gen
  | .linkWidth => s.host.pcie.width
  | .payload => (s.sizesOf fn).1
  | .readRequest => (s.sizesOf fn).2
  | .tags => maxTags
  | .aerStatus => bitMap 32 (fun b => s.host.pcie.aer.contains (fn, b))
  | .powerState => if s.host.d3.contains fn then 3 else 0
  | .msixEnable => (s.host.msixEnable.contains fn).toNat
  | .msixSize => vecCount fn
  | .serialLow => s.fuses.serial % 2 ^ 32
  | .serialHigh => s.fuses.serial / 2 ^ 32 % 2 ^ 32
  | .totalVfs => if fn = 0 then totalVfs else 0
  | .firstVfOffset => if fn = 0 then firstVfOffset else 0
  | .vfStride => if fn = 0 then vfStride else 0
  | .numVfs => if fn = 0 then s.host.numVfs else 0
  | .vfEnable => if fn = 0 then s.host.vfEnable.toNat else 0
  | .offered c => (capabilities.contains c).toNat

/-- The fields of a register as one dword. -/
def State.word (s : State) (fs : List Field) (u : Nat := 0) (i : Nat := 0) : Nat :=
  fs.foldr (fun f a => s.fld f u i * 2 ^ f.lo + a) 0

/-- A field returns to its reset value. -/
def State.resetFld (s : State) (f : Field) (u : Nat := 0) (i : Nat := 0) : State := s.setf f f.rst u i

/-- Fields of unit `u`, index `i` return to their reset values. -/
def State.resetFlds (s : State) (fs : List Field) (u : Nat := 0) (i : Nat := 0) : State :=
  fs.foldl (fun t f => t.resetFld f u i) s

/-! ### Mailboxes -/

/-- The request words of a mailbox. -/
def State.reqWords (s : State) (fn : Nat) : List Nat := (List.range 16).map (fun w => s.fld F.HIF_MB_REQ fn w)

/-- The effect of a doorbell (R305 step 3, R306). -/
def State.doorbell (s : State) (fn : Nat) : State :=
  if s.on F.HIF_MB_STATUS.BUSY fn then s.bump F.HIF_DOORBELL_DROP fn
  else
    let t := s.modHost (fun h => { h with waiting := SMap.put h.waiting fn (s.reqWords fn) })
    (t.setf F.HIF_MB_STATUS.DONE 0 fn).setf F.HIF_MB_STATUS.BUSY 1 fn

/-- A write of 1 to HIF_MB_DOORBELL.RING of a function (R305). -/
def execMailboxDoorbell (fn : Nat) (s : State) : Host.Outcome State Fault Refusal :=
  .next (if s.hostUp && s.fnExists fn then s.doorbell fn else s)

/-- HIF_STATE as function `fn` reads it (R319). -/
def State.hifState (s : State) (fn : Nat) : Nat :=
  fn * 2 ^ 8 + s.wiping.toNat * 2 ^ 7 + s.lifecycle * 2 ^ 4 + s.op.code

/-! ### The sequencer's judgement (R309) -/

/-- Where the catalogue of R313 accepts an opcode; none for an unknown one. -/
def acceptedIn (op : Nat) (st : OpState) : Option Bool :=
  match op with
  | 0x01 | 0x21 | 0x51 | 0x71 | 0x91 | 0xA1 | 0xC0 => some true
  | 0x02 | 0x60 => some (st != .safe)
  | 0x10 | 0x11 | 0x12 | 0x20 | 0x30 | 0x31 | 0x40 | 0x41 | 0x42 | 0x61 | 0xA0 | 0xB0 => some st.service
  | 0x50 => some (st = .startup || st = .recovery)
  | 0x70 => some (st = .test)
  | 0x80 => some (st = .startup || st = .test)
  | 0x90 => some (st = .startup)
  | _ => none

/-- The opcodes that a VF may issue (R313). -/
def vfMay (op : Nat) : Bool := [0x01, 0x21, 0x30, 0x31, 0x51, 0x71, 0xA1, 0xC0].contains op

/-- The bits of request word `w` that an opcode's arguments name (R314); the others are reserved. -/
def reqMask (op w : Nat) : Nat :=
  let all := 0xFFFFFFFF
  if w = 0 then all
  else match op with
  | 0x02 => if w = 1 then 0x7 else 0
  | 0x10 | 0x11 | 0x12 | 0xA0 | 0xA1 => if w = 1 then 0x3F else 0
  | 0x20 => if w = 1 then 0x1 else if w ≤ 3 then all else 0
  | 0x30 => if w ≤ 12 then all else if w = 13 then 0xFFFF else 0
  | 0x31 => if w = 1 then 0x1FFFF else 0
  | 0x42 => if w = 1 then 0x3F else all
  | 0x50 => if w = 1 then 0x1 else if w = 2 then 0x1FFFFFF else 0
  | 0x60 => if w = 1 then all else 0
  | 0x61 => if w = 1 then 0x3FF else 0
  | 0x70 => if w = 1 then all else if w = 2 then 0x1 else 0
  | 0x71 => if w = 1 then 0x1F else 0
  | 0x80 => if w = 1 then 0x3 else if w ≤ 6 then all else 0
  | 0x90 => if w = 1 then 0xF else if w ≤ 10 then all else 0
  | 0x91 => if w = 1 then 0xFFFF else 0
  | 0xB0 => if w = 1 then 0x3 else 0
  | 0xC0 => if w = 1 then 0xFF0F else 0
  | _ => 0

/-- Window `w` names a target of BLOCK_RESET (R314). -/
def blockWindow (w : Nat) : Bool :=
  (4 ≤ w && w ≤ 8) || w = 0xA || w = 0xB || (0x10 ≤ w && w ≤ 0x5F)

/-- A reserved request field is nonzero (R309 step 4): a bit outside the mask, or a sub-block named for a window that is
no port's. -/
def reservedSet (c : Cmd) : Bool :=
  (List.range 16).any (fun w => c.word w &&& (0xFFFFFFFF - reqMask c.opcode w) ≠ 0) ||
    (c.opcode = 0x61 && bitsOf (c.word 1) 9 8 ≠ 0 && ¬ (0x10 ≤ bitsOf (c.word 1) 7 0 && bitsOf (c.word 1) 7 0 < 0x50))

/-- An argument lies outside its stated range (R309 step 4). -/
def outOfRange (c : Cmd) : Bool :=
  match c.opcode with
  | 0x02 => 3 < bitsOf (c.word 1) 2 0
  | 0x61 => ¬ blockWindow (bitsOf (c.word 1) 7 0)
  | 0x70 => c.word 1 = 0
  | 0x80 => bitsOf (c.word 1) 1 0 = 0
  | 0xB0 => bitsOf (c.word 1) 1 0 = 3
  | 0xC0 =>
    let k := bitsOf (c.word 1) 3 0
    let i := bitsOf (c.word 1) 15 8
    (k = 0 && 5 < i) || ((k = 1 || k = 2) && 63 < i) || (k = 3 && 3 < i)
  | _ => false

/-- An argument names a unit that the variant lacks (R6). -/
def State.namesAbsent (s : State) (c : Cmd) : Bool :=
  match c.opcode with
  | 0x10 | 0x11 | 0x12 | 0xA0 | 0xA1 => s.nPorts ≤ bitsOf (c.word 1) 5 0
  | 0x61 =>
    let w := bitsOf (c.word 1) 7 0
    (0x10 ≤ w && w < 0x50 && s.nPorts ≤ w - 0x10) || (0x50 ≤ w && s.nIslands ≤ w - 0x50)
  | 0xC0 =>
    let k := bitsOf (c.word 1) 3 0
    let i := bitsOf (c.word 1) 15 8
    ((k = 1 || k = 2) && s.nPorts ≤ i) || (k = 3 && s.nCxl ≤ i)
  | 0x71 => 9 ≤ bitsOf (c.word 1) 4 0
  | _ => false

/-- The status and detail that steps 1 to 4 of R309 decide, with R383 in STANDBY and R408 during a wipe; none when every
check passes. -/
def State.judge (s : State) (c : Cmd) : Option (Nat × Nat) :=
  match acceptedIn c.opcode s.op with
  | none => some (xBADOP, 0)
  | some acc =>
    if 0 < c.src ∧ c.src < 16 ∧ ¬ vfMay c.opcode then some (xLOCKED, 0)
    else if s.pwr.state = .standby ∧
        ¬ [0x01, 0xB0, 0x21, 0x51, 0x71, 0xA1, 0xC0, 0x91].contains c.opcode then some (xWRONGSTATE, 0)
    else if s.wiping ∧ ¬ [0x01, 0x21, 0x51, 0x71, 0xC0, 0x91].contains c.opcode then some (xBUSY, 0)
    else if ¬ acc then some (xWRONGSTATE, 0)
    else if reservedSet c then some (xBADARG, 1)
    else if outOfRange c then some (xBADARG, 2)
    else if s.namesAbsent c then some (xBADARG, 3)
    else none

/-- The next source in rotation with a command waiting, from the source after the one served last (R310). -/
def State.nextSource (s : State) : Option Nat :=
  ((List.range 17).map (fun i => (s.host.last + 1 + i) % 17)).find? (fun x => (SMap.look s.host.waiting x).isSome)

/-- The sequencer takes a source's command. -/
def State.takeCmd (s : State) (src : Nat) (ws : List Nat) : State :=
  let t := s.modHost (fun h =>
    { h with waiting := SMap.del h.waiting src, last := src, cur := some ⟨src, ws, false⟩ })
  if src < 16 then t.setf F.HIF_MB_STATUS.EXECUTING 1 src else t

/-- The sequencer, when it is free and no warm reset runs or is about to begin (R316), takes the next command and judges it; a command that
fails a check of steps 1 to 4 completes at once (R309, R310). -/
def execCommandDispatch (s : State) : Host.Outcome State Fault Refusal :=
  .next (
    if s.phase ≠ .running ∨ s.host.cur.isSome ∨ s.pwr.warmAt.isSome ∨ s.pwr.warmRun.isSome then s
    else match s.nextSource with
      | none => s
      | some src =>
        let c : Cmd := ⟨src, SMap.val s.host.waiting src [], false⟩
        let t := s.takeCmd src c.words
        match t.judge c with
        | some (st, det) => t.finish st det []
        | none => t)

/-! ### Commands of the host island -/

/-- IDENTIFY (R8, R314). -/
def execIdentify (s : State) : Host.Outcome State Fault Refusal :=
  .next (s.xci 0x01 (fun c t => t.finishOk
    [t.fuses.variant.part * 2 ^ 16 + revisionId, t.hifState (if c.src = 16 then 0 else c.src),
     t.nPorts + t.nIslands * 2 ^ 8 + t.nCxl * 2 ^ 16,
     t.fuses.serial % 2 ^ 32, t.fuses.serial / 2 ^ 32 % 2 ^ 32, 1]))

/-- A count held to 32 bits. -/
def sat32 (n : Nat) : Nat := min n 0xFFFFFFFF

/-- ROLE_REPORT (R314). -/
def execRoleReport (s : State) : Host.Outcome State Fault Refusal :=
  .next (s.xci 0x51 (fun _ t => t.finishOk
    [t.pairOn.toNat + t.pair.roleLevel.toNat * 2 + t.roleState.toNat * 4 + t.aliveOk.toNat * 8,
     sat32 t.pair.written, sat32 t.pair.takeovers]))

/-- CXM_PORT_LOAD of CXL port `c`: read and write load of the last 1 ms in percent (free values), 0 where nothing was read or written
in it, and on a port that is not MAPPED or that the part lacks (R6, R294). -/
def State.cxlLoad (s : State) (c : Nat) : Nat :=
  let d := s.cxlPort c
  let load := fun (at' : Option Nat) (k : Nat) =>
    if at'.any (fun t => s.lt < t + ltMs) then min 100 (Config.cxlLoad c k s.lt).toNat else 0
  if s.nCxl ≤ c || !s.mapped c then 0 else load d.readAt 1 * 256 + load d.writeAt 0

/-- MEASURE's response words by kind and index (R314). -/
def State.measure (s : State) (k i : Nat) : List Nat :=
  match k with
  | 0 =>
    let v := s.fld F.PWR_RAIL_VI.V 0 i
    let a := s.fld F.PWR_RAIL_VI.I 0 i
    [v, a, v * a / 100]
  | 1 => [s.fld F.TSU_CABLE.LENGTH_DM i, s.fld F.TSU_LINK_DELAY i]
  | 2 => [s.word [F.PRT_PARTNER.PART_CODE, F.PRT_PARTNER.REVISION, F.PRT_PARTNER.MIN_WIDTH, F.PRT_PARTNER.CONCORD,
      F.PRT_PARTNER.SHED, F.PRT_PARTNER.PROBE, F.PRT_PARTNER.MM, F.PRT_PARTNER.VALID] i,
      s.word [F.PRT_PARTNER_EXT.RING_NODE, F.PRT_PARTNER_EXT.TRANS_TIME] i]
  | _ => [s.cxlLoad i,
      s.word [F.CXM_PORT_STATUS.HEAD, F.CXM_PORT_STATUS.MHD, F.CXM_PORT_STATUS.DEGRADED, F.CXM_PORT_STATUS.SPEED,
        F.CXM_PORT_STATUS.WIDTH, F.CXM_PORT_STATUS.STATE] 0 i]

/-- MEASURE (R314): kinds above 3 are refused by the command's own rule. -/
def execMeasure (s : State) : Host.Outcome State Fault Refusal :=
  .next (s.xci 0xC0 (fun c t =>
    let k := bitsOf (c.word 1) 3 0
    if 3 < k then t.finish xBADARG 7 [] else t.finishOk (t.measure k (bitsOf (c.word 1) 15 8))))

/-! ### DMA channels of functions (R301, R302, R278) -/

/-- Channel `ch` is assigned to VF `v` (R302). -/
def State.chOfVf (s : State) (v ch : Nat) : Bool :=
  s.fld F.HIF_VF_DMA.BASE 0 v ≤ ch && ch < s.fld F.HIF_VF_DMA.BASE 0 v + s.fld F.HIF_VF_DMA.COUNT 0 v

/-- The function that owns a channel: its VF, or the PF. -/
def State.chOwner (s : State) (ch : Nat) : Nat :=
  (((List.range 16).drop 1).find? (fun v => s.chOfVf v ch)).getD 0

/-- D63 belongs to the checkpoint writer (R279, R351). -/
def State.ckptOwns (s : State) (ch : Nat) : Bool := ch = 63 && s.on F.DMA_CTL.CKPT_D63

def chDisabled (s : State) (ch : Nat) : Bool := s.fld F.DMA_CH_STATUS.STATE 0 ch = 0

/-- Two ranges of channels overlap. -/
def overlap (b1 n1 b2 n2 : Nat) : Bool := n1 ≠ 0 && n2 ≠ 0 && b1 < b2 + n2 && b2 < b1 + n1

/-- The refusals of R302 for the assignment of `n` channels from `b` to VF `v`. -/
def State.vfDmaBad (s : State) (v b n : Nat) : Bool :=
  8 < n || 64 < b + n ||
    ((List.range 16).drop 1).any (fun w =>
      w ≠ v && overlap b n (s.fld F.HIF_VF_DMA.BASE 0 w) (s.fld F.HIF_VF_DMA.COUNT 0 w)) ||
    (s.on F.DMA_CTL.CKPT_D63 && b ≤ 63 && 63 < b + n) ||
    (List.range 64).any (fun ch => ((b ≤ ch && ch < b + n) || s.chOfVf v ch) && ! chDisabled s ch)

/-- The effect of a write of HIF_VF_DMA of VF `v` (R302); a refusal keeps both fields. -/
def State.vfDmaWrite (s : State) (v : Nat) (o : Origin4) (data : Nat) : State :=
  let b := bitsOf data 5 0
  let n := bitsOf data 11 8
  if v = 0 ∨ 15 < v then s
  else if s.vfDmaBad v b n then s.refuse o data (if 8 < n ∨ 64 < b + n then cVALUE else cRULE)
  else (s.setf F.HIF_VF_DMA.BASE b 0 v).setf F.HIF_VF_DMA.COUNT n 0 v

/-- A write of HIF_VF_DMA (R302). -/
def execHifVfDmaWrite (v : Nat) (data : Word) (s : State) : Host.Outcome State Fault Refusal :=
  .next (if s.hostUp then
      s.gated 0 (atBar0 (0x300 + 4 * v)) data.toNat (fun t => t.vfDmaWrite v (atBar0 (0x300 + 4 * v)) data.toNat)
    else s)

/-! ### Function-level and host-island resets (R297, R298, R317, R318, R343) -/

/-- The registers of a DMA channel (R293). -/
def chFields : List Field :=
  [F.DMA_CH_CTL.PAUSE, F.DMA_CH_CTL.ENABLE, F.DMA_CH_STATUS.LAST_STATUS, F.DMA_CH_STATUS.ERR_PAUSED,
   F.DMA_CH_STATUS.STATE, F.DMA_CH_TAIL, F.DMA_CH_HEAD.CQ_HEAD, F.DMA_CH_HEAD.HEAD, F.DMA_CH_CQ_TAIL,
   F.DMA_CH_DESC_L.ADDR, F.DMA_CH_DESC_L.LOG2, F.DMA_CH_DESC_H, F.DMA_CH_CQ_L.ADDR, F.DMA_CH_CQ_L.LOG2,
   F.DMA_CH_CQ_H, F.DMA_CH_POS_OM.O, F.DMA_CH_POS_OM.M, F.DMA_CH_POS_IN, F.DMA_CH_DONE, F.DMA_CH_ERRORS]

/-- Cells held for a frame that is not built any more return to the DMA pool. -/
def State.dropRow (s : State) (ch : Nat) : State :=
  let d := s.chan ch
  let q := s.island d.island
  (s.setIsland d.island { q with dmaUsed := q.dmaUsed - d.cells }).setChan ch { d with cells := 0, row := [], building := false }

/-- A channel is DISABLED, with no record (R291, R292); one that waits for a write to TAIL still does (R279). -/
def State.chStop (s : State) (ch : Nat) : State :=
  (((s.dropRow ch).setf F.DMA_CH_CTL.ENABLE 0 0 ch).setf F.DMA_CH_STATUS.STATE 0 0 ch).setChan ch
    { ChDyn.reset with phase := (s.chan ch).phase, stalled := (s.chan ch).stalled }

/-- A channel's registers and counters return to reset and it is DISABLED, with no record (R292). -/
def State.chReset (s : State) (ch : Nat) : State :=
  if s.ckptOwns ch then s else ((s.dropRow ch).resetFlds chFields 0 ch).setChan ch ChDyn.reset

/-- The mailbox of a function ends (R317): a waiting command is dropped, an executing or parked one loses its response,
and the mailbox reads as after power-on. -/
def State.endMailbox (s : State) (fn : Nat) : State :=
  let drop := fun (c : Cmd) => if c.src = fn then { c with discard := true } else c
  let t := s.modHost (fun h =>
    { h with waiting := SMap.del h.waiting fn, cur := h.cur.map drop, parked := h.parked.map drop })
  let t := (List.range 16).foldl (fun t w => (t.setf F.HIF_MB_REQ 0 fn w).setf F.HIF_MB_RESP 0 fn w) t
  t.resetFlds [F.HIF_MB_STATUS.PARKED, F.HIF_MB_STATUS.EXECUTING, F.HIF_MB_STATUS.DONE, F.HIF_MB_STATUS.BUSY,
    F.HIF_MB_CTL.IRQ_EN] fn

/-- The wide-read window is abandoned (R343). -/
def State.abandonWide (s : State) : State :=
  let t := { s with wide := ⟨none, []⟩ }
  t.resetFlds [F.WRW_CTL.VALID, F.WRW_CTL.BUSY, F.WRW_CTL.WORDS]

/-- An FLR of one function alone: its PCIe state, its mailbox and its channels (R292, R317); the AER status is sticky (log 74). -/
def State.flrOne (s : State) (fn : Nat) : State :=
  let t := s.endMailbox fn
  let t := t.modHost (fun h =>
    { h with
      msixEnable := h.msixEnable.filter (· ≠ fn)
      unmasked := h.unmasked.filter (fun x => x.1 ≠ fn)
      pendingVec := h.pendingVec.filter (fun x => x.1 ≠ fn)
      d3 := h.d3.filter (· ≠ fn)
      pcie := { h.pcie with
        sizes := SMap.del h.pcie.sizes fn
        bars := if fn = 0 then [] else h.pcie.bars
        msix := h.pcie.msix.filter (fun x => x.1 / 128 ≠ fn) } })
  ((List.range 64).filter (fun ch => s.chOwner ch = fn)).foldl State.chReset t

/-- An FLR (R317): of the PF, of every VF as well, with SR-IOV off and the wide-read window abandoned. -/
def State.flr (s : State) (fn : Nat) : State :=
  if fn = 0 then
    (((List.range 16).foldl State.flrOne s).modHost (fun h => { h with vfEnable := false, numVfs := 0 })).abandonWide
  else s.flrOne fn

/-- A function-level reset of an existing function. -/
def execFlr (fn : Nat) (s : State) : Host.Outcome State Fault Refusal :=
  .next (if s.hostUp && s.fnExists fn then s.flr fn else s)

/-- The PCIe link goes down: HIF_LINK_DOWN when it was up (R366). -/
def State.pcieDown (s : State) : State :=
  if s.host.linkUp then
    (s.modHost (fun h => { h with linkUp := false, pcie := { h.pcie with gen := 0, width := 0 } })).raise 73 0
  else s

/-- The host island's reset (R297): every function as after an FLR, and the link down. -/
def State.hostReset (s : State) : State := (s.flr 0).pcieDown

/-- PERSTn is asserted (R297). -/
def execPerstnAssert (s : State) : Host.Outcome State Fault Refusal :=
  .next (s.hostReset.modHost (fun h =>
    { h with perst := true, answering := false, pcie := { h.pcie with aer := [] } }))

/-- PERSTn is released: the device answers configuration requests (R297), subject to R27. -/
def execPerstnRelease (s : State) : Host.Outcome State Fault Refusal :=
  .next (s.modHost (fun h => { h with perst := false, answering := s.phase = .running }))

/-- The PCIe link is lost. -/
def execPcieLinkDown (s : State) : Host.Outcome State Fault Refusal := .next s.pcieDown

/-- The PCIe link comes up; LIVE of HIF_LINK_DOWN follows (R369). Training begins 3 ms after the resets are released, with PERSTn
released (R433). -/
def execPcieLinkUp (s : State) (gen : Nat := 6) (width : Nat := 16) : Host.Outcome State Fault Refusal :=
  .next (if s.host.perst ∨ s.phase = .held then s
    else (s.runToLt (s.board.released + 3 * ltMs)).modHost (fun h =>
      { h with linkUp := true, pcie := { h.pcie with gen := gen, width := width } }))

/-- An uncorrectable error that the endpoint logs through AER: HIF_PCIE_ERR (R366). -/
def execPcieUncorrectableError (bit : Nat) (s : State) (fn : Nat := 0) : Host.Outcome State Fault Refusal :=
  .next (if s.hostUp then
      (s.modPcie (fun p => { p with aer := p.aer.filter (· ≠ (fn, bit % 32)) ++ [(fn, bit % 32)] })).raise 72 (bit % 32)
    else s)

/-! ### Configuration writes and MSI-X (R301, R304) -/

/-- The vectors of a function that its mask held and that may be sent now are sent. -/
def State.sendPending (s : State) (fn : Nat) : State :=
  let go := fun (x : Nat × Nat) => x.1 = fn && s.host.unmasked.contains x && s.host.msixEnable.contains fn
  s.modHost (fun h =>
    { h with pendingVec := h.pendingVec.filter (fun x => !go x), sent := h.sent ++ s.host.pendingVec.filter go })

/-- The virtual functions that exist before and not after SR-IOV is set: each ends as at its FLR (log 74). -/
def State.setSriov (s : State) (en : Bool) (n : Nat) : State :=
  let t := s.modHost (fun h => { h with vfEnable := en, numVfs := min n totalVfs })
  ((List.range 16).filter (fun v => s.fnExists v && !t.fnExists v)).foldl State.flrOne t

/-- The effect of a configuration write: NumVFs is held to TotalVFs; the bits of a base address below the BAR's size are held at
0. -/
def State.cfgWrite (s : State) : CfgWrite → State
  | .sriov en n => s.setSriov en n
  | .deviceControl fn p r =>
    if s.fnExists fn then s.modPcie (fun x => { x with sizes := SMap.put x.sizes fn (p, r) }) else s
  | .aerStatus fn c =>
    if s.fnExists fn then s.modPcie (fun x => { x with aer := x.aer.filter (fun e => e.1 ≠ fn || !c.testBit e.2) }) else s
  | .bar vf n a =>
    if barSize vf n = 0 then s
    else s.modPcie (fun x => { x with bars := SMap.put x.bars (barKey vf n) (a / barSize vf n * barSize vf n) })
  | .msixEntry fn v a d =>
    if s.fnExists fn && v < vecCount fn then s.modPcie (fun x => { x with msix := SMap.put x.msix (vecKey fn v) (a, d) })
    else s
  | .msixEnable fn en =>
    if s.fnExists fn then
      let l := s.host.msixEnable.filter (· ≠ fn)
      let t := s.modHost (fun h => { h with msixEnable := if en then l ++ [fn] else l })
      if en then t.sendPending fn else t
    else s
  | .msixMask fn v =>
    if s.fnExists fn then s.modHost (fun h => { h with unmasked := h.unmasked.filter (· ≠ (fn, v)) }) else s
  | .power fn d =>
    if s.fnExists fn then
      let l := s.host.d3.filter (· ≠ fn)
      s.modHost (fun h => { h with d3 := if d = 3 then l ++ [fn] else l })
    else s

/-- A PCIe configuration write (R301). -/
def execPcieConfigurationWrite (w : CfgWrite) (s : State) : Host.Outcome State Fault Refusal :=
  .next (if s.hostUp then s.cfgWrite w else s)

/-- A vector is unmasked: its pending bit, when set, sends it while MSI-X Enable is 1 (R304). -/
def execMsixVectorUnmask (fn vec : Nat) (s : State) : Host.Outcome State Fault Refusal :=
  .next (
    if s.hostUp && s.fnExists fn && vec < vecCount fn then
      (s.modHost (fun h => { h with unmasked := h.unmasked.filter (· ≠ (fn, vec)) ++ [(fn, vec)] })).sendPending fn
    else s)

end Sys2Proof.Machine
end

