-- ==== Sys2Proof/Machine/Operands.lean ====
section
/-! DEFINITION. What a command finds in the octets of a frame: header fields and tags (R46), the edits of an egress handle
(R47, R86), the CRC-32 of R51, and the identification keys of R75, R76 and R80. -/

namespace Sys2Proof.Machine

/-! ### Octets -/

/-- Octet `i` of a frame as a number; an octet past the end reads 0. -/
def oct (l : List Byte) (i : Nat) : Nat := (l.getD i 0#8).toNat

/-- Two octets in network order. -/
def oct2 (l : List Byte) (i : Nat) : Nat := oct l i * 256 + oct l (i + 1)

/-- `n` octets in network order. -/
def octN (l : List Byte) (i n : Nat) : Nat := beNum ((List.range n).map (fun j => l.getD (i + j) 0#8))

/-- Destination and source addresses. -/
def daOf (l : List Byte) : Nat := octN l 0 6
def saOf (l : List Byte) : Nat := octN l 6 6

/-- The length of a frame as R39 counts it, with the FCS, from its octets before the FCS. -/
def frameLen (l : List Byte) : Nat := l.length + 4

/-- Cells that a frame of length `len` occupies (R139). -/
def cellsOf (len : Nat) : Nat := ceilDiv len 256

/-- A frame padded with zeros to 64 octets with its FCS (R47). -/
def padded (l : List Byte) : List Byte := l ++ List.replicate (60 - l.length) 0#8

/-! ### CRC-32 (R51) -/

/-- One bit of the reflected CRC-32 register. -/
def crcBit (c : Nat) : Nat := if c % 2 = 1 then (c / 2) ^^^ 0xEDB88320 else c / 2

/-- One octet through the CRC-32 register. -/
def crcOctet (c : Nat) (b : Byte) : Nat :=
  crcBit (crcBit (crcBit (crcBit (crcBit (crcBit (crcBit (crcBit (c ^^^ b.toNat))))))))

/-- The CRC-32 of R51: initial value all ones, reflected, final inversion. -/
def crc32 (l : List Byte) : Nat := (l.foldl crcOctet 0xFFFFFFFF) ^^^ 0xFFFFFFFF

/-! ### Tags (R46) -/

/-- The recognised tags of a frame: the VLAN tag's TCI and the R-TAG's sequence number. -/
structure Tags where
  tci : Option Nat
  rtag : Option Nat
  deriving DecidableEq, Repr

/-- Recognition with 0x8100 and one further TPID (R46). -/
def tagsOf (tpid : Nat) (l : List Byte) : Tags :=
  let tagged : Bool := oct2 l 12 = 0x8100 || oct2 l 12 = tpid
  let k := if tagged then 16 else 12
  ⟨if tagged then some (oct2 l 14) else none, if oct2 l k = 0xF1C1 then some (oct2 l (k + 4)) else none⟩

/-- Octets of the recognised VLAN tag and of the recognised R-TAG. -/
def Frame.vlanLen (f : Frame) : Nat := if f.tagged then 4 else 0
def Frame.rtagLen (f : Frame) : Nat := if f.rtag.isSome then 6 else 0

/-- Where the EtherType after the recognised tags stands. -/
def Frame.etOff (f : Frame) : Nat := 12 + f.vlanLen + f.rtagLen

/-- The EtherType after the recognised tags. -/
def Frame.etherType (f : Frame) : Nat := oct2 f.octets f.etOff

/-- The VID of a key: 0 when the frame is untagged (R75). -/
def Frame.vid (f : Frame) : Nat := if f.tagged then f.tci % 4096 else 0

/-- PCP and DEI of the recognised tag; an untagged frame counts as PCP 0 (R83). -/
def Frame.pcp (f : Frame) : Nat := if f.tagged then f.tci / 2 ^ 13 % 8 else 0
def Frame.dei (f : Frame) : Bool := f.tagged && f.tci.testBit 12

/-! ### Edits (R47) -/

/-- The VLAN tag that leaves: the egress port's TPID and the handle's TCI when inserted, the recognised one, or none; R86
sets its DEI. -/
def vlanOut (f : Frame) (c : Copy) (tpid : Nat) : List Byte :=
  let dei := fun (t : Nat) => if c.setDei then withBits t 12 12 1 else t
  if c.vlanAct = 1 then beOctets 2 tpid ++ beOctets 2 (dei c.tci)
  else if c.vlanAct = 2 then []
  else if f.tagged then slice f.octets 12 2 ++ beOctets 2 (dei f.tci)
  else []

/-- The R-TAG that leaves: inserted or renumbered when the copy has a number, stripped, or as received. -/
def rtagOut (f : Frame) (c : Copy) : List Byte :=
  let old := slice f.octets (12 + f.vlanLen) f.rtagLen
  if c.rtagAct = 1 then
    match c.seq with
    | some n => if f.rtag.isSome then old.take 4 ++ beOctets 2 n else beOctets 2 0xF1C1 ++ beOctets 2 0 ++ beOctets 2 n
    | none => old
  else if c.rtagAct = 2 then []
  else old

/-- The octets of a copy after its edits, padded (R47). -/
def editOut (f : Frame) (c : Copy) (tpid : Nat) : List Byte :=
  let da := match c.da with
    | some d => beOctets 6 d
    | none => f.octets.take 6
  padded (da ++ slice f.octets 6 6 ++ vlanOut f c tpid ++ rtagOut f c ++ f.octets.drop f.etOff)

/-- The length of a copy after its edits, with the FCS. -/
def editLen (f : Frame) (c : Copy) : Nat := frameLen (editOut f c 0x8100)

/-! ### Identification keys (R75 to R80) -/

/-- Bytes 4 to 49 of an identification entry for a MAC address and a VID, little-endian VID, the rest zero. -/
def macKey (mac vid : Nat) : List Byte := beOctets 6 mac ++ leBytes 2 vid ++ List.replicate 38 0#8

/-- What SID_IPMASK leaves of an IP-tuple key: source port, DSCP, source address and VID each ignored or not. -/
structure IpMask where
  srcPort : Bool
  dscp : Bool
  srcIp : Bool
  vid : Bool
  deriving DecidableEq, Repr

/-- The mask in force (R76). -/
def State.ipMask (s : State) : IpMask :=
  ⟨s.on F.SID_IPMASK.SRC_PORT_IGN, s.on F.SID_IPMASK.DSCP_IGN, s.on F.SID_IPMASK.SRC_IP_IGN, s.on F.SID_IPMASK.VID_IGN⟩

/-- Zeros in place of octets that the mask ignores. -/
def maskOut (ign : Bool) (l : List Byte) : List Byte := if ign then List.replicate l.length 0#8 else l

/-- The fields of an IP-tuple key with the masked ones zero: bytes 4 to 49 of an identification entry. -/
def maskKey (m : IpMask) (k : List Byte) : List Byte :=
  slice k 0 6 ++ maskOut m.vid (slice k 6 2) ++ maskOut m.srcIp (slice k 8 16) ++ slice k 24 16 ++
    maskOut m.dscp (slice k 40 1) ++ slice k 41 1 ++ maskOut m.srcPort (slice k 42 2) ++ slice k 44 2

/-- `n` octets from `k`, with zeros past the end of the frame. -/
def octsAt (l : List Byte) (k n : Nat) : List Byte := (List.range n).map (fun j => l.getD (k + j) 0#8)

/-- The ports of a UDP or TCP header at `k`. -/
def portsAt (l : List Byte) (k proto : Nat) : List Byte :=
  if proto = 17 ∨ proto = 6 then octsAt l k 4 else List.replicate 4 0#8

/-- The IPV6 bit and the IP-tuple key of a frame, when its EtherType is IPv4's or IPv6's (R76). -/
def Frame.ipKey (f : Frame) : Option (Bool × List Byte) :=
  let l := f.octets
  let b := f.etOff + 2
  let vid := leBytes 2 f.vid
  if f.etherType = 0x0800 then
    let proto := oct l (b + 9)
    let first : Bool := oct2 l (b + 6) % 2 ^ 13 = 0
    let ports := if first then portsAt l (b + 4 * (oct l b % 16)) proto else List.replicate 4 0#8
    some (false, List.replicate 6 0#8 ++ vid ++ octsAt l (b + 12) 4 ++ List.replicate 12 0#8 ++ octsAt l (b + 16) 4 ++
      List.replicate 12 0#8 ++ [BitVec.ofNat 8 (oct l (b + 1) / 4), BitVec.ofNat 8 proto] ++ ports)
  else if f.etherType = 0x86DD then
    let proto := oct l (b + 6)
    some (true, List.replicate 6 0#8 ++ vid ++ octsAt l (b + 8) 16 ++ octsAt l (b + 24) 16 ++
      [BitVec.ofNat 8 (oct2 l b / 64 % 64), BitVec.ofNat 8 proto] ++ portsAt l (b + 40) proto)
  else none

/-- The key of a frame under an identification type, with its IPV6 bit; none for an IP-tuple of a frame that is no IP. -/
def Frame.key (f : Frame) (m : IpMask) (ty : Nat) : Option (Bool × List Byte) :=
  match ty with
  | 0 => some (false, macKey (daOf f.octets) f.vid)
  | 1 => some (false, macKey (saOf f.octets) f.vid)
  | 2 => some (false, macKey (daOf f.octets) f.vid)
  | _ => f.ipKey.map (fun k => (k.1, maskKey m k.2))

/-- The bucket of a type and key (R80). -/
def bucketOf (ty : Nat) (key : List Byte) : Nat := (crc32 (BitVec.ofNat 8 ty :: key) ^^^ 0xFFFFFFFF) % 2 ^ 14

end Sys2Proof.Machine
end

