-- ==== Sys2Proof/Machine/Sentence.lean ====
section
/-! DEFINITION. Where a Sentence stands at each instant (R98 to R103, R109, R116, R125): the Clause in force, its gates, the
hold state and the instants at which they change, as functions of network time. -/

namespace Sys2Proof.Machine

/-! ### Clauses (R98, R99) -/

/-- The dword number of Clause `i` of bank `b` of port `p`. -/
def clauseTab (p b i : Nat) : Nat := tSen + 0x4000 * p + 0x2000 * b + 2 * i

/-- The index of a Clause among the entries known to hold a parity error. -/
def clauseBad (p b i : Nat) : Nat := p * 8192 + b * 4096 + i

/-- The code of clause memory among the tables with parity. -/
def badClause : Nat := 32

def State.clause (s : State) (p b i : Nat) : Nat := s.tabNum (clauseTab p b i) 2

def clDuration (w : Nat) : Nat := bitsOf w 63 32
def clDeadline (w : Nat) : Bool := w.testBit 13
def clCal (w : Nat) : Bool := w.testBit 12
def clShed (w : Nat) : Bool := w.testBit 11
def clOp (w : Nat) : Nat := bitsOf w 10 8
def clGates (w : Nat) : Nat := bitsOf w 7 0

/-! ### Sentences and cycles (R101, R109) -/

/-- A Sentence: bank, length, cycle time and extension in ns, and an instant at which one of its cycles starts. -/
structure Sent where
  bank : Nat
  len : Nat
  cycle : Nat
  ext : Nat
  at' : Nat
  deriving DecidableEq, Repr

/-- Codes of SEN_STATUS.ADMIN_STATE. -/
def aEMPTY : Nat := 0
def aSTAGED : Nat := 1
def aPENDING : Nat := 2

def State.adminState (s : State) (p : Nat) : Nat := s.fld F.SEN_STATUS.ADMIN_STATE p
def State.swapPending (s : State) (p : Nat) : Bool := s.adminState p = aPENDING

/-- The operative Sentence's parameters. -/
def State.operSent (s : State) (p : Nat) : Sent :=
  ⟨s.fld F.SEN_STATUS.OPER_BANK p, s.fld F.SEN_OPER_LEN p, s.fld F.SEN_OPER_CYCLE p, s.fld F.SEN_OPER_EXT p,
    (s.port p).sen.operC⟩

/-- The admin Sentence's parameters, its cycles placed by the change time. -/
def State.adminSent (s : State) (p : Nat) : Sent :=
  ⟨1 - s.fld F.SEN_STATUS.OPER_BANK p, s.fld F.SEN_ADMIN_LEN p, s.fld F.SEN_ADMIN_CYCLE p, s.fld F.SEN_ADMIN_EXT p,
    (s.port p).sen.change⟩

/-- The Sentence in force at `t` ns: the pending one from its change time on, the operative one, or none (R102). -/
def State.sentAt (s : State) (p t : Nat) : Option Sent :=
  if s.swapPending p && (s.port p).sen.change ≤ t then some (s.adminSent p)
  else if s.on F.SEN_STATUS.OPER_VALID p then some (s.operSent p)
  else none

/-- The start of the cycle of the unbroken grid that holds `t` (R101); just after time 0 it may lie before 0. -/
def Sent.gridStart (x : Sent) (t : Nat) : Int := t - ((t : Int) - x.at') % x.cycle

/-- The start of the last cycle before a swap at `c` that was fixed at `armed` (R109): the first cycle, from the one
current at the arm, that would end, extension counted, after `c`. -/
def Sent.lastStart (x : Sent) (armed c : Nat) : Int :=
  let a := x.gridStart armed
  if c < a + x.cycle + x.ext then a else a + ((c - (a + x.cycle + x.ext)) / x.cycle + 1) * x.cycle

/-- How a cycle ends (R109). -/
inductive CycleEnd where
  | normal
  | extended
  | truncated
  deriving DecidableEq, Repr

/-- A cycle: its start, how much of it lies before time 0, its end, and how it ends. -/
structure Cycle where
  start : Nat
  lead : Nat
  stop : Nat
  how : CycleEnd
  deriving DecidableEq, Repr

/-- The cycle of a Sentence that holds `t`, before a pending swap (change time, arm instant) when there is one. A
cycle that ends at the change time by itself, S + T = C, counts as normal: it is extended by nothing, and IN_EXT reads 0
(DESIGN CHOICE, log 70). -/
def Sent.cycleAt (x : Sent) (t : Nat) (swap : Option (Nat × Nat)) : Cycle :=
  let g := x.gridStart t
  let mk := fun (a : Int) (stop : Nat) (how : CycleEnd) => (⟨a.toNat, (-a).toNat, stop, how⟩ : Cycle)
  match swap with
  | none => mk g (g + x.cycle).toNat .normal
  | some (c, armed) =>
    let l := x.lastStart armed c
    if g < l then mk g (g + x.cycle).toNat .normal
    else mk l c (if l + x.cycle = c then .normal else if l + x.cycle < c then .extended else .truncated)

/-- The swap that still lies ahead of `t`. -/
def State.swapAfter (s : State) (p t : Nat) : Option (Nat × Nat) :=
  if s.swapPending p && t < (s.port p).sen.change then some ((s.port p).sen.change, (s.port p).sen.armed) else none

/-! ### The Clause in force (R101, R125) -/

/-- Where a Sentence stands: the cycle, the Clause in force with its word and start, the next instant at which a Clause or
a cycle starts, whether a Clause found faulty has closed the rest of the cycle, and whether the last Clause is held
beyond its duration. `oper` is false under R102. -/
structure Pos where
  oper : Bool
  cycle : Cycle
  bank : Nat
  idx : Nat
  word : Nat
  start : Nat
  stop : Nat
  dead : Bool
  pastEnd : Bool
  deriving DecidableEq, Repr

/-- From Clause `i` at offset `d`, with `n` Clauses after it: index, offset and next offset of the Clause in force at
offset `x`, and whether it is the first faulty one. -/
def State.clauseWalk (s : State) (p b x : Nat) : (n i d : Nat) → Nat × Nat × Option Nat × Bool
  | 0, i, d => (i, d, none, s.isBad badClause (clauseBad p b i))
  | n + 1, i, d =>
    if s.isBad badClause (clauseBad p b i) then (i, d, none, true)
    else
      let d' := d + clDuration (s.clause p b i)
      if x < d' then (i, d, some d', false) else State.clauseWalk s p b x n (i + 1) d'

/-- An instant later than every network time that a look-ahead asks for. -/
def farFuture : Nat := 2 ^ 80

/-- Where port `p`'s Sentence stands at `t` ns. PAST_END shows whenever the Clause in force is held beyond its duration, through an
extension too, whether or not it is the Sentence's last (DESIGN CHOICE, log 70). -/
def State.senPos (s : State) (p t : Nat) : Pos :=
  match s.sentAt p t with
  | none =>
    let c := match s.swapAfter p t with
      | some (c, _) => c
      | none => farFuture
    ⟨false, ⟨0, 0, c, .normal⟩, 0, 0, s.fld F.SEN_DEFAULT.GATES p, 0, c, false, false⟩
  | some x =>
    let c := x.cycleAt t (s.swapAfter p t)
    let off := min (t + c.lead - c.start) (x.cycle - 1)
    let (i, d, n, dead) := s.clauseWalk p x.bank off (x.len - 1) 0 0
    let stop := match n with
      | some d' => if d' < x.cycle then min (c.start + d' - c.lead) c.stop else c.stop
      | none => c.stop
    let w := s.clause p x.bank i
    ⟨true, c, x.bank, i, w, c.start + d - c.lead, stop, dead, !dead && c.start + d + clDuration w ≤ t + c.lead⟩

/-- The gates in force (R103, R125). -/
def Pos.gates (q : Pos) : Nat := if q.dead then 0 else clGates q.word

/-- Window bits of the Clause in force; none under R102 or after a faulty Clause. -/
def Pos.shed (q : Pos) : Bool := q.oper && !q.dead && clShed q.word
def Pos.cal (q : Pos) : Bool := q.oper && !q.dead && clCal q.word
def Pos.deadline (q : Pos) : Bool := q.oper && !q.dead && clDeadline q.word

/-- The positions from `t` on, one for each Clause that takes effect up to `lim`. -/
def State.senSegs (s : State) (p lim : Nat) : (fuel t : Nat) → List Pos
  | 0, _ => []
  | k + 1, t =>
    if lim < t then []
    else
      let q := s.senPos p t
      q :: State.senSegs s p lim k (max q.stop (t + 1))

/-- The look-ahead over `[t, lim]`: a Clause lasts 8 ns at least (R99). -/
def State.ahead (s : State) (p t lim : Nat) : List Pos := s.senSegs p lim ((lim - t) / 8 + 3) t

/-- The next instant in ns after `t`, up to `lim`, at which the gate of class `c` closes (R114). -/
def State.nextClose (s : State) (p c t lim : Nat) : Option Nat :=
  ((s.ahead p t lim).drop 1).findSome? (fun q => if q.gates.testBit c then none else some (max q.start q.cycle.start))

/-! ### Holds (R116) -/

/-- The hold state that the last SET_HOLD or SET_RELEASE Clause among `is`, latest first, sets; `d` when none does. -/
def State.lastOp (s : State) (p b : Nat) (d : Bool) : List Nat → Bool
  | [] => d
  | i :: r =>
    let op := clOp (s.clause p b i)
    if op = 1 then true else if op = 2 then false else State.lastOp s p b d r

/-- The hold state by the Clauses alone at `t` ns. -/
def State.holdClauses (s : State) (p t : Nat) : Bool :=
  match s.sentAt p t with
  | none => false
  | some x =>
    let q := s.senPos p t
    if q.dead then false
    else
      let all := s.lastOp p x.bank false (List.range x.len).reverse
      s.lastOp p x.bank all (List.range (q.idx + 1)).reverse

/-- The start of the next SET_HOLD Clause after `t`, up to `lim`. -/
def State.nextSetHold (s : State) (p t lim : Nat) : Option Nat :=
  ((s.ahead p t lim).drop 1).findSome? (fun q => if q.oper && !q.dead && clOp q.word = 1 then some q.start else none)

/-- A hold is in force on port `p` at `t` ns: only while pre-emption is active and a Sentence is operative (R102, R116).
A value written to HOLD_ADVANCE counts at once for the SET_HOLD Clause that comes next, even one whose advanced hold is in force
(DESIGN CHOICE, log 70). -/
def State.holdAt (s : State) (p t : Nat) : Bool :=
  s.on F.PRT_MM_STATUS.ACTIVE p && (s.sentAt p t).isSome &&
    (s.holdClauses p t || (s.nextSetHold p t (t + s.fld F.SEN_PREEMPT.HOLD_ADVANCE p)).isSome)

/-- The start of the next Clause after `t`, up to `lim`, at which the Clauses alone hold: a SET_HOLD Clause, or the first of a cycle
that takes over the hold which the last such Clause of the list sets (R116). -/
def State.nextHeld (s : State) (p t lim : Nat) : Option Nat :=
  (((s.ahead p t lim).drop 1).map (fun q => max q.start q.cycle.start)).find? (fun x => s.holdClauses p x)

/-- The next instant after `t`, up to `lim`, at which a hold comes into force: HOLD_ADVANCE before a SET_HOLD Clause, where no
Sentence is operative not before the swap; or at a cycle's start. -/
def State.nextHold (s : State) (p t lim : Nat) : Option Nat :=
  let adv := s.fld F.SEN_PREEMPT.HOLD_ADVANCE p
  let least := if (s.sentAt p t).isSome then t else max t (s.port p).sen.change
  (((s.nextSetHold p t (lim + adv)).map (fun h => max least (h - adv))).toList ++ (s.nextHeld p t lim).toList).min?

/-- The close instant of a pre-emptable class (R115). -/
def State.closePre (s : State) (p c t lim : Nat) : Option Nat :=
  match s.nextClose p c t lim, s.nextHold p t lim with
  | some a, some b => some (min a b)
  | some a, none => some a
  | none, b => b

/-! ### Gates as the port applies them (R19) -/

/-- The network time in ns that the gates of port `p` follow at a local instant: that of the core cycle which holds it. -/
def State.gateNs (s : State) (p t : Nat) : Nat := s.portNt p (t - t % coreCycle) / 2 ^ 32

/-- The gates that port `p` applies at a local instant. -/
def State.gatesAt (s : State) (p t : Nat) : Nat := (s.senPos p (s.gateNs p t)).gates

/-- Network time in ns on port `p` now. -/
def State.portNs (s : State) (p : Nat) : Nat := s.portNt p s.lt / 2 ^ 32

/-! ### Deadline instants (R120, R124, R170) -/

/-- The start in ns of window `k`. -/
def windowAt (period phase k : Nat) : Nat := k * period + phase

/-- The earliest deadline instant of port `p` in `[w, w + period)` (R124). -/
def State.deadlineOf (s : State) (p w period : Nat) : Option Nat :=
  (s.ahead p w (w + period - 1)).findSome? (fun q =>
    let start := max q.start q.cycle.start
    if q.deadline ∧ w ≤ start ∧ start < w + period then some start else none)

/-- The first deadline instant of a sum after `t` ns in a window later than the one that built a frame, as the Sentences now
stand; the model looks 16 windows ahead (log 69). -/
def State.dueAfter (s : State) (x : MixDue) (t : Nat) : Nat :=
  let w0 := max (x.k + 1) ((t - x.phase) / x.period)
  ((List.range 16).findSome? (fun j =>
    (s.deadlineOf x.port (windowAt x.period x.phase (w0 + j)) x.period).filter (fun d => t < d))).getD farFuture

end Sys2Proof.Machine
end

