-- ==== Sys2Proof/Machine/Queues.lean ====
section
/-! DEFINITION. Queues and stage memory: line rate, the pools of a port island (R139 to R141), frames and their uses, class
credit (R134, R135), token buckets (R136, R137), the fair queue (R138), enqueueing (R129, R130, R142, R145) and
discards. -/

namespace Sys2Proof.Machine

/-! ### Line rate -/

/-- Lanes in use, by the code of PRT_SHED_CTL.MAX_WIDTH. -/
def lanesOf (code : Nat) : Nat := 2 ^ code

/-- The code of a number of lanes. -/
def widthCode (lanes : Nat) : Nat := if lanes = 4 then 2 else if lanes = 2 then 1 else 0

/-- The widest code that the configured mode uses (R36). -/
def State.modeWidth (s : State) (p : Nat) : Nat :=
  match s.fld F.PRT_CTL.MODE p with
  | 0 => 2
  | 1 => 1
  | _ => 0

/-- The rate in Mb/s at a width of `lanes` lanes (R122). -/
def State.rateOf (s : State) (p lanes : Nat) : Nat := if s.fld F.PRT_CTL.MODE p = 3 then 100000 else 200000 * lanes

/-- Lanes in use on port `p`. -/
def State.lanes (s : State) (p : Nat) : Nat := lanesOf (s.fld F.PRT_SHED_STATUS.WIDTH p)

/-- The rate Rp of R134 in kb/s. -/
def State.rateKb (s : State) (p : Nat) : Nat := 1000 * s.rateOf p (s.lanes p)

/-- Local time units for one octet on the wire: 16 at 800 Gb/s. -/
def State.octetLt (s : State) (p : Nat) : Nat := 12800000 / s.rateOf p (s.lanes p)

/-! ### Pools (R139, R140) -/

/-- The first port of port `p`'s island, which holds the pool registers. -/
def headPort (p : Nat) : Nat := 4 * (p / 4)

/-- Cells that the pool registers leave to the ingress pool of the island of port `p`. -/
def State.ingShare (s : State) (p : Nat) : Nat :=
  65024 - s.fld F.QSH_POOL_MIX (headPort p) - s.fld F.QSH_POOL_DMA (headPort p)

/-- QSH_POOL_FREE: zero while a raised pool still waits for cells. -/
def State.poolFree (s : State) (p : Nat) : Nat := s.ingShare p - (s.island (p / 4)).ingUsed

/-- Cells that the Mix pool and the DMA pool hold. -/
def State.mixHeld (s : State) (p : Nat) : Nat := s.fld F.QSH_POOL_MIX (headPort p) - (s.island (p / 4)).mixOwed
def State.dmaHeld (s : State) (p : Nat) : Nat := s.fld F.QSH_POOL_DMA (headPort p) - (s.island (p / 4)).dmaOwed

/-- QSH_POOL_LOW follows the free ingress cells down. -/
def State.poolLow (s : State) (p free : Nat) : State :=
  s.setf F.QSH_POOL_LOW (min (s.fld F.QSH_POOL_LOW (headPort p)) free) (headPort p)

/-- Ingress cells taken for a frame received on port `p`. -/
def State.takeIng (s : State) (p n : Nat) : State :=
  let d := s.island (p / 4)
  let t := s.setIsland (p / 4) { d with ingUsed := d.ingUsed + n }
  let t := t.modPort p (fun x => { x with ingHeld := x.ingHeld + n })
  t.poolLow p (t.poolFree p)

/-- Ingress cells returned: a raised pool takes what it is owed first, the Mix pool before the DMA pool (log 14). -/
def State.freeIng (s : State) (p n : Nat) : State :=
  let d := s.island (p / 4)
  let a := min n d.mixOwed
  let b := min (n - a) d.dmaOwed
  let t := s.setIsland (p / 4) { d with ingUsed := d.ingUsed - n, mixOwed := d.mixOwed - a, dmaOwed := d.dmaOwed - b }
  t.modPort p (fun x => { x with ingHeld := x.ingHeld - n })

/-- The check of R140 on a frame of `n` cells: which limit stops it, and how many cells it takes before. -/
inductive CellCheck where
  | fits
  | noCell (taken : Nat)
  | limit (taken : Nat)
  deriving DecidableEq, Repr

def State.cellCheck (s : State) (p n : Nat) : CellCheck :=
  let f := s.poolFree p
  let l := s.fld F.QSH_ING_LIMIT.ING_LIMIT p - (s.port p).ingHeld
  if n ≤ min f l then .fits else if f ≤ l then .noCell f else .limit l

/-! ### Frames and their uses (R149) -/

def State.frame (s : State) (fid : Nat) : Option Frame := SMap.look s.frames fid
def State.setFrame (s : State) (f : Frame) : State := { s with frames := SMap.put s.frames f.id f }

/-- The cells of a frame return to the pool they came from. -/
def State.returnCells (s : State) (f : Frame) : State :=
  let d := s.island f.island
  match f.pool with
  | .ingress => if f.port < 64 then s.freeIng f.port f.cells else s
  | .mix => s
  | .dma => s.setIsland f.island { d with dmaUsed := d.dmaUsed - f.cells }
  | .control => s.setIsland f.island { d with ctrlUsed := d.ctrlUsed - f.cells }

/-- `n` more uses of a frame. -/
def State.addUse (s : State) (fid n : Nat) : State :=
  match s.frame fid with
  | some f => s.setFrame { f with uses := f.uses + n }
  | none => s

/-- A use of a frame ends; with the last use its cells return. -/
def State.release (s : State) (fid : Nat) : State :=
  match s.frame fid with
  | none => s
  | some f =>
    if 1 < f.uses then s.setFrame { f with uses := f.uses - 1 }
    else { s.returnCells f with frames := SMap.del s.frames fid }

/-- A number for a new frame or copy. -/
def State.fresh (s : State) : Nat × State := (s.nextId, { s with nextId := s.nextId + 1 })

/-! ### Sub-queues -/

/-- The dword number of dword `w` of sub-queue `q` of class `c` of port `p` (R128). -/
def subqTab (p c q w : Nat) : Nat := tSubq + 8 * (8192 * p + 1024 * c + q) + w

def State.subqValid (s : State) (p c q : Nat) : Bool := (s.tab (subqTab p c q 0)).testBit 31
def State.shapeEn (s : State) (p c q : Nat) : Bool := (s.tab (subqTab p c q 0)).testBit 30
def State.maxFrames (s : State) (p c q : Nat) : Nat := bitsOf (s.tab (subqTab p c q 0)) 29 16
def State.weight (s : State) (p c q : Nat) : Nat := max 1 (bitsOf (s.tab (subqTab p c q 0)) 15 0)

/-- A 32-bit counter of a table entry counts once more and saturates. -/
def State.bumpTab (s : State) (k : Nat) : State := s.setTab k (min (s.tab k + 1) 0xFFFFFFFF)

def subKey (c q : Nat) : Nat := 1024 * c + q
def PortDyn.subq (d : PortDyn) (k : Nat) : SubQ := SMap.val d.subqs k SubQ.reset
def PortDyn.setSubq (d : PortDyn) (k : Nat) (x : SubQ) : PortDyn := { d with subqs := SMap.putD d.subqs k x SubQ.reset }

/-- The increment `inc` of R138 for a frame of length `len`. -/
def State.tagInc (s : State) (p c q len : Nat) : Nat := (len + 20) * 65536 / s.weight p c q

/-! ### Token buckets (R136, R137) -/

/-- Units of 1/1,600,000,000 bit in a bit: a rate in kb/s times local time units gives them. -/
def bitUnit : Nat := 1600000000

/-- BURST × 8 bits. -/
def State.burstUnits (s : State) (p c q : Nat) : Int := (bitsOf (s.tab (subqTab p c q 2)) 23 0 * 8 * bitUnit : Nat)

/-- The token count of a shaped sub-queue at a local instant. -/
def State.tokensAt (s : State) (p c q t : Nat) : Int :=
  let x := (s.port p).subq (subKey c q)
  min (x.tokens + (s.tab (subqTab p c q 1) * (t - x.at') : Nat)) (max x.tokens (s.burstUnits p c q))

/-- The token count brought up to a local instant, and moved by `d`. -/
def State.moveTokens (s : State) (p c q t : Nat) (d : Int) : State :=
  let v := s.tokensAt p c q t + d
  s.modPort p (fun x => x.setSubq (subKey c q) { x.subq (subKey c q) with tokens := v, at' := t })

/-! ### Occupancy, flow control -/

def PortDyn.occ (d : PortDyn) (c : Nat) : Nat := SMap.val d.occupancy c 0
def PortDyn.addOcc (d : PortDyn) (c n : Nat) : PortDyn := { d with occupancy := SMap.putD d.occupancy c (d.occ c + n) 0 }
def PortDyn.subOcc (d : PortDyn) (c n : Nat) : PortDyn := { d with occupancy := SMap.putD d.occupancy c (d.occ c - n) 0 }

/-- Class `c` of port `p` is express (R41). -/
def State.express (s : State) (p c : Nat) : Bool := !s.fbit F.PRT_MM_CTL.PREEMPTABLE c p

/-- Class `c` goes out through the pre-emptable MAC: it is pre-emptable and pre-emption is active (R42). -/
def State.preempts (s : State) (p c : Nat) : Bool := !s.express p c && s.on F.PRT_MM_STATUS.ACTIVE p

/-- Flow control holds class `c` at a local instant (R49): never an express class, and not one whose watchdog fired. -/
def State.fcHeld (s : State) (p c t : Nat) : Bool :=
  !s.express p c && !(s.port p).ignoreFc.contains c &&
    (match SMap.look (s.port p).pauseEnd c with
     | some e => t < e
     | none => false)

/-! ### Credit (R134, R135) -/

/-- The cases of the credit table. -/
inductive CreditCase where
  | wire
  | unchanged
  | waiting
  | idle
  deriving DecidableEq, Repr

/-- The credit of a class after `dt`, in 1/1,600,000,000 bit; an IDLE_SLOPE of zero freezes it. -/
def creditMove (c : Int) (slope rp hi dt : Nat) : CreditCase → Int
  | k =>
    if slope = 0 ∨ dt = 0 then c
    else match k with
      | .wire => c + (slope * dt : Nat) - (rp * dt : Nat)
      | .unchanged => c
      | .waiting => min (c + (slope * dt : Nat)) (max c ((hi * bitUnit : Nat) : Int))
      | .idle => if 0 < c then 0 else min (c + (slope * dt : Nat)) 0

/-- The case that holds while no octet of the class is on the wire. Held means held by flow control: under a hold of R116 the credit
rises (DESIGN CHOICE, log 70). -/
def State.restCase (s : State) (p c t : Nat) : CreditCase :=
  let d := s.port p
  if s.fcHeld p c t || !d.gates.testBit c || d.ellipsis.any (fun e => e.copy.tc = c) then .unchanged
  else if 0 < d.occ c then .waiting else .idle

/-- The credit of class `c` at a local instant `t`, from the instant it was last brought up to. -/
def State.creditAt (s : State) (p c t : Nat) : Int :=
  let d := s.port p
  let (v, a) := SMap.val d.credit c (0, 0)
  let slope := s.fld F.QSH_IDLE_SLOPE p c
  let hi := s.fld F.QSH_HI_CREDIT p c
  let mv := fun (x : Int) (dt : Nat) (k : CreditCase) => creditMove x slope (s.rateKb p) hi dt k
  let rest := s.restCase p c a
  match d.tx with
  | some x =>
    if x.copy.tc = c then
      let b := min (max a x.begin') (max a t)
      let e := min (max b x.stop) (max b t)
      mv (mv (mv v (b - a) rest) (e - b) .wire) (t - e) rest
    else mv v (t - a) rest
  | none => mv v (t - a) rest

/-- Every credit of port `p` brought up to now. -/
def State.syncCredit (s : State) (p : Nat) : State :=
  s.modPort p (fun d =>
    { d with credit := (List.range 8).foldl (fun m c =>
        if s.fbit F.QSH_CTL.CBS_EN c p then
          SMap.put m c (s.creditAt p c s.lt, max (SMap.val d.credit c (0, 0)).2 s.lt)
        else SMap.del m c) d.credit })

/-- QSH_CREDIT: the integer part of the credit in bits, two's complement. -/
def State.creditWord (s : State) (p c : Nat) : Nat :=
  if s.fbit F.QSH_CTL.CBS_EN c p then ofSigned 32 ((s.creditAt p c s.lt).fdiv bitUnit) else 0

/-! ### Leaving a sub-queue -/

/-- The copies that stay when those satisfying `f` leave, with the finish tag of the head that results (R138): each frame
that becomes the head takes the tag of its predecessor plus its increment. `first` says that the list's first frame is
the head which holds `tag`. -/
def sweep (inc : Copy → Nat) (f : Copy → Bool) : Nat → List Copy → List Copy × Nat
  | tag, [] => ([], tag)
  | tag, h :: r =>
    if f h then
      match r with
      | [] => ([], tag)
      | n :: _ => sweep inc f (tag + inc n) r
    else (h :: r.filter (fun c => !f c), tag)

/-- The copies of sub-queue `k` that satisfy `f` leave it. -/
def State.leaveSubq (s : State) (p k : Nat) (f : Copy → Bool) : State :=
  let x := (s.port p).subq k
  let (q, tag) := sweep (fun c => s.tagInc p (k / 1024) (k % 1024) c.len) f x.tag x.q
  s.modPort p (fun d => d.setSubq k { x with q := q, tag := tag })

/-- A copy has left its queue: its class holds its cells no longer. -/
def State.leftClass (s : State) (p : Nat) (c : Copy) : State := s.modPort p (fun d => d.subOcc c.tc c.cells)

/-- Every queued copy of port `p` that satisfies `f` is discarded, oldest sub-queue key first, the control queue and due
frames last; `count` counts each. -/
def State.discardWhere (s : State) (p : Nat) (f : Copy → Bool) (count : State → Copy → State) : State :=
  let s := s.syncCredit p
  let drop := fun (t : State) (c : Copy) => ((count t c).leftClass p c).release c.fid
  let t := (s.port p).subqs.foldl (fun t kx => (kx.2.q.filter f).foldl drop (t.leaveSubq p kx.1 f)) s
  let t := ((t.port p).ctrl.filter f).foldl drop (t.modPort p (fun d => { d with ctrl := d.ctrl.filter (fun c => !f c) }))
  ((t.port p).due.filter f).foldl (fun t c => (count t c).release c.fid)
    (t.modPort p (fun d => { d with due := d.due.filter (fun c => !f c) }))

/-- The engine island whose ENG_UNSENT_DROP counts a mixed copy (R120). -/
def Copy.builtBy (c : Copy) : Option Nat :=
  match c.origin with
  | .mixed _ m _ => some m
  | _ => none

/-- The sub-queue key of a copy; the control queue has none. -/
def Copy.inSubq (c : Copy) : Option Nat :=
  match c.origin with
  | .control _ => none
  | _ => some (subKey c.tc c.subq)

/-- Every queued frame of a port is flushed (R145): counted as ENABLE and the link say. -/
def State.flushCount (s : State) (p : Nat) : State :=
  if !s.on F.QSH_CTL.ENABLE p then s.bump F.QSH_DISABLED_DROP p else s.bump F.QSH_LINKDOWN_FLUSH p

def State.flush (s : State) (p : Nat) : State := s.discardWhere p (fun _ => true) (fun t _ => t.flushCount p)

/-! ### Enqueueing (R129, R130, R142, R145) -/

/-- The start of the operative cycle that holds now, when a Sentence is operative (R119). -/
def State.cycleNow (s : State) (p : Nat) : Option Nat :=
  if s.on F.SEN_STATUS.OPER_VALID p then some (s.senPos p (s.portNs p)).cycle.start else none

/-- A copy stamped with the instant of its enqueue. A frame received with 256 octets or less is whole in its descriptor; of any
other the read of the remaining cells is issued now (R22). -/
def State.stampEnq (s : State) (p : Nat) (c : Copy) : Copy :=
  { c with
    enq := s.lt, enqNs := s.portNs p, cycle := s.cycleNow p
    readDone := (s.frame c.fid).all (fun f => frameLen f.octets ≤ 256) }

/-- A copy joins its sub-queue. Virtual time and finish tags grow without a wrap (DESIGN CHOICE, log 70). -/
def State.joinSubq (s : State) (p : Nat) (c0 : Copy) : State :=
  let s := s.syncCredit p
  let c := s.stampEnq p c0
  let k := subKey c.tc c.subq
  let s := s.bumpTab (subqTab p c.tc c.subq 4)
  s.modPort p (fun d =>
    let x := d.subq k
    let tag := if x.q.isEmpty then SMap.val d.vtime c.tc 0 + s.tagInc p c.tc c.subq c.len else x.tag
    (d.setSubq k { x with q := x.q ++ [c], tag := tag }).addOcc c.tc c.cells)

/-- What R47, R129, R142 and R145 decide of a copy offered to port `p`. -/
inductive Verdict where
  | oversize
  | flushed
  | invalid
  | tail
  | accept
  deriving DecidableEq, Repr

/-- The class and sub-queue limits of R142, which only a forwarded copy meets. -/
def State.tailDrop (s : State) (p : Nat) (c : Copy) : Bool :=
  let m := s.maxFrames p c.tc c.subq
  c.origin = .forwarded &&
    (s.fld F.QSH_CLASS_LIMIT p c.tc < (s.port p).occ c.tc + c.cells ||
      (m ≠ 0 && m ≤ ((s.port p).subq (subKey c.tc c.subq)).q.length))

def State.offerVerdict (s : State) (p : Nat) (c : Copy) : Verdict :=
  if s.fld F.PRT_MAXLEN.MAXLEN p < c.len then .oversize
  else if !s.on F.QSH_CTL.ENABLE p || !s.on F.PRT_STATUS.LINK_UP p then .flushed
  else if !s.subqValid p c.tc c.subq then .invalid
  else if s.tailDrop p c then .tail
  else .accept

/-- A copy reaches its egress port's queues. -/
def State.offer (s : State) (p : Nat) (c : Copy) : State :=
  match s.offerVerdict p c with
  | .oversize => (s.bump F.TX_OVERSIZE_DROP p).release c.fid
  | .flushed => (s.flushCount p).release c.fid
  | .invalid => (s.bump F.QSH_SUBQ_INVALID_DROP p).release c.fid
  | .tail => ((s.bump F.QSH_TAIL_DROP p).bumpTab (subqTab p c.tc c.subq 5)).release c.fid
  | .accept => s.joinSubq p c

/-! ### Link-local control frames (R104, R130, R139) -/

/-- The kinds of control frame. -/
def kLLDP : Nat := 0
def kSYNC : Nat := 1
def kPDREQ : Nat := 2
def kPDRESP : Nat := 3
def kPROBE : Nat := 4
def kCONCORD : Nat := 5
def kBEACON : Nat := 6
def kVERIFY : Nat := 7
def kRESPOND : Nat := 8
def kSHED : Nat := 9

/-- A control frame of port `p` in control cells, with the copy that will carry it; none when the pool of 512 cells has no
room (log 15). -/
def State.controlFrame (s : State) (p kind : Nat) (octets : List Byte) : Option (Copy × State) :=
  let l := (padded octets).length + 4
  let n := cellsOf l
  let d := s.island (p / 4)
  if 512 < d.ctrlUsed + n then none
  else
    let (id, s) := s.fresh
    let f : Frame := ⟨id, p, padded octets, .control, p / 4, n, s.portNs p, false, 0, none, 1, false, false, none, [], none⟩
    let c : Copy := ⟨id, id, p, 7, 0, 0, 0, 0, none, none, false, l, n, .control kind, 0, 0, none, true, false, false⟩
    let s := (s.setIsland (p / 4) { d with ctrlUsed := d.ctrlUsed + n }).setFrame f
    some (s.stampEnq p c, s)

/-- A control frame is longer than MAXLEN, which bounds every transmitted frame (R39). -/
def State.overlong (s : State) (p : Nat) (octets : List Byte) : Bool :=
  s.fld F.PRT_MAXLEN.MAXLEN p < (padded octets).length + 4

/-- A control frame that the operating state bars is discarded and counted (R28, R29; log 68). -/
def State.barControl (s : State) (p : Nat) : State := if s.op.service then s else s.bump F.STATE_IDLE_FRAMES p

/-- A control frame joins port `p`'s control queue (R130), or is discarded as too long (R39) or flushed (R145). -/
def State.queueControl (s : State) (p kind : Nat) (octets : List Byte) : State :=
  if s.overlong p octets then s.bump F.TX_OVERSIZE_DROP p
  else if !s.on F.QSH_CTL.ENABLE p || !s.on F.PRT_STATUS.LINK_UP p then s.flushCount p
  else match s.controlFrame p kind octets with
    | none => s
    | some (c, t) => (t.syncCredit p).modPort p (fun d => { d with ctrl := d.ctrl ++ [c] }.addOcc 7 c.cells)

/-- A control frame joins port `p`'s control queue where R28 permits it; a beacon, which crosses from the ring island, is discarded on its
way to a port that is held in reset (R16). -/
def State.sendControl (s : State) (p kind : Nat) (octets : List Byte) : State :=
  if !s.controlMay then s.barControl p
  else if kind = kBEACON ∧ s.portHeld p then s.xingDiscard (p / 4)
  else s.queueControl p kind octets

/-- A Concord sync frame, a probe or an mPacket, which is no frame, that is due on port `p` (R132 item 1). -/
def State.sendDue (s : State) (p kind : Nat) (octets : List Byte) : State :=
  if !s.controlMay then s.barControl p
  else if kind = kCONCORD ∧ s.portHeld p then s.xingDiscard (p / 4)
  else if !s.on F.PRT_STATUS.LINK_UP p then s
  else if kind ≠ kVERIFY ∧ kind ≠ kRESPOND ∧ s.overlong p octets then s.bump F.TX_OVERSIZE_DROP p
  else match s.controlFrame p kind octets with
    | none => s
    | some (c, t) => t.modPort p (fun d => { d with due := d.due ++ [c] })

end Sys2Proof.Machine
end

