-- ==== Sys2Proof/Machine/Mac.lean ====
section
/-! DEFINITION. The MAC on the wire: how long frames and fragments last, where a pre-emptable frame may be cut (R43, R115),
and what a change of gates does to credits and to the frame in transmission (R118, R134). -/

namespace Sys2Proof.Machine

/-- Octets of a frame that a transmission still has to send, FCS included. -/
def Tx.left (x : Tx) : Nat := x.octets.length + 4 - x.sent

/-- The least length of a fragment with its mCRC (R43). -/
def State.minFrag (s : State) (p : Nat) : Nat :=
  64 + 64 * max (s.fld F.PRT_MM_CTL.ADD_FRAG p) (s.fld F.PRT_MM_STATUS.PARTNER_ADD_FRAG p)

/-- Octets from the preamble to the end of the gap, for `n` octets of a frame without or with an mCRC. -/
def wholeOctets (n : Nat) : Nat := 8 + n + 12
def fragOctets (n : Nat) : Nat := 8 + n + 4 + 12

/-- Data octets that a transmission cut as a fragment sends. -/
def Tx.fragData (x : Tx) (octet : Nat) : Nat := (x.stop - x.begin') / octet - 24

/-- The data octets of the fragment that ends at the first point at or after local instant `t` which R43 permits. -/
def State.cutAfter (s : State) (p t : Nat) (x : Tx) : Option Nat :=
  let sent := ceilDiv (t - x.begin') (s.octetLt p) - 8
  let y := max sent (s.minFrag p - 4)
  if y + 64 ≤ x.left then some y else none

/-- The data octets of the longest fragment that R43 permits within `span` octets of line time (R115). -/
def State.cutBefore (s : State) (p span left : Nat) : Option Nat :=
  let y := min (span - 24) (left - 64)
  if s.minFrag p ≤ y + 4 ∧ 24 + y ≤ span then some y else none

/-- The fragment count that the next continuation fragment of the frame carries in its SMD-C: 0 after the first fragment, then
one more, modulo 4, from fragment to fragment (R44). -/
def Tx.nextFrag (x : Tx) : Nat := if x.sent = 0 then 0 else (x.frag + 1) % 4

/-- A transmission cut short is a fragmentation, counted once for each fragment: one that began as a fragment counts already. -/
def State.countCut (s : State) (p : Nat) (x : Tx) : State := if x.whole then s.bump F.TX_PREEMPTIONS p else s

/-- The frame in transmission ends as a fragment of `y` data octets. -/
def State.cutTx (s : State) (p y : Nat) (x : Tx) : State :=
  (s.countCut p x).modPort p (fun d =>
    { d with tx := some { x with whole := false, stop := x.begin' + fragOctets y * s.octetLt p } })

/-- The frame in transmission goes out through the pre-emptable MAC, and can be cut after `t`, before it ends by itself. -/
def State.cuttable (s : State) (p t : Nat) : Option (Nat × Tx) :=
  match (s.port p).tx with
  | none => none
  | some x =>
    if s.preempts p x.copy.tc && t < x.stop then
      ((s.cutAfter p t x).filter (fun y => x.begin' + fragOctets y * s.octetLt p < x.stop)).map (fun y => (y, x))
    else none

/-- What obeys no gate: Concord sync and train frames and probes (R104, R213), verify and respond mPackets (R41). -/
def Copy.gateless (c : Copy) : Bool :=
  match c.origin with
  | .control k => k = kCONCORD || k = kPROBE || k = kVERIFY || k = kRESPOND
  | _ => false

/-- An mPacket, which is no frame. -/
def Copy.mPacket (c : Copy) : Bool := c.origin = .control kVERIFY || c.origin = .control kRESPOND

/-- The frame in transmission runs on past the closing of its gate under the gates `g` (R118), and was not counted before. -/
def State.overrunsNow (s : State) (p g : Nat) (x : Tx) : Bool :=
  !x.overrun && !g.testBit x.copy.tc && !x.copy.gateless && s.lt + 12 * s.octetLt p < x.stop

/-- The gates of port `p` change: credits are brought up to date, and a frame in transmission whose gate closes under it
counts (R118). -/
def State.setGates (s : State) (p g : Nat) : State :=
  let t := (s.syncCredit p).modPort p (fun d => { d with gates := g })
  match (t.port p).tx with
  | none => t
  | some x =>
    if t.overrunsNow p g x then
      (t.modPort p (fun d => { d with tx := some { x with overrun := true } })).bump F.SEN_OVERRUN p
    else t

/-- The gates that hold now come into force. -/
def State.regate (s : State) (p : Nat) : State := s.setGates p (s.gatesAt p s.lt)

end Sys2Proof.Machine
end

