-- ==== Sys2Proof/Machine/Handles.lean ====
section
/-! DEFINITION. The SID tables as the device reads them (R74), egress handles and the copies they make (R81, R82, R66), and
sequence generation (R88). -/

namespace Sys2Proof.Machine

/-! ### Regions of the SID tables (R74) -/

/-- Codes of the SID regions, in the order of the region table; also their codes in `State.bad`. -/
def rIDENT : Nat := 0
def rISH : Nat := 1
def rESH : Nat := 2
def rFANOUT : Nat := 3
def rFILTER : Nat := 4
def rMETER : Nat := 5
def rGEN : Nat := 6
def rRECOV : Nat := 7
def rHISTORY : Nat := 8

/-- First dword numbers of entries. -/
def identTab (i : Nat) : Nat := tSid + 16 * i
def ishTab (i : Nat) : Nat := tSid + 0x0080_0000 / 4 + 8 * i
def eshTab (i : Nat) : Nat := tSid + 0x00A0_0000 / 4 + 8 * i
def fanTab (i : Nat) : Nat := tSid + 0x00C0_0000 / 4 + i
def filterTab (i : Nat) : Nat := tSid + 0x00D0_0000 / 4 + 16 * i
def meterTab (i : Nat) : Nat := tSid + 0x0110_0000 / 4 + 16 * i
def genTab (i : Nat) : Nat := tSid + 0x0120_0000 / 4 + 4 * i
def recovTab (i : Nat) : Nat := tSid + 0x0128_0000 / 4 + 16 * i

/-- Bits `[hi:lo]` of dword `w` of the entry that starts at dword number `k`. -/
def State.tabBits (s : State) (k w hi lo : Nat) : Nat := bitsOf (s.tab (k + w)) hi lo

/-- Bit `b` of dword `w` of the entry that starts at dword number `k`. -/
def State.tabBit (s : State) (k w b : Nat) : Bool := (s.tab (k + w)).testBit b

/-- The state with bits `[hi:lo]` of a dword replaced. -/
def State.setTabBits (s : State) (k w hi lo v : Nat) : State := s.setTab (k + w) (withBits (s.tab (k + w)) hi lo v)

/-! ### Egress handles (R81) -/

def State.eshPort (s : State) (h : Nat) : Nat := s.tabBits (eshTab h) 0 30 24

/-- The handle is valid: VALID at 1 and a port that the variant has. -/
def State.eshValid (s : State) (h : Nat) : Bool :=
  let p := s.eshPort h
  s.tabBit (eshTab h) 0 31 && p < 72 && (64 ≤ p || p < s.nPorts)

/-- The destination MAC of a handle: bytes 8 to 13, in wire order. -/
def State.eshDa (s : State) (h : Nat) : Nat := beNum ((leBytes 8 (s.tabNum (eshTab h + 2) 2)).take 6)

/-- The copy of a frame that handle `h` makes, whose number is `seq` (R47, R66, R82). -/
def State.eshCopy (s : State) (h : Nat) (f : Frame) (seq : Option Nat) (dei : Bool) (origin : Origin) : Copy × State :=
  let (id, s) := s.fresh
  let p := s.eshPort h
  let panel : Bool := 64 ≤ p
  let act := fun (v : Nat) => if panel || v = 3 then 0 else v
  let c : Copy :=
    { id := id, fid := f.id, port := p, tc := s.tabBits (eshTab h) 0 23 21, subq := s.tabBits (eshTab h) 1 9 0,
      vlanAct := act (s.tabBits (eshTab h) 0 19 18), tci := s.tabBits (eshTab h) 0 15 0,
      rtagAct := act (s.tabBits (eshTab h) 0 17 16), seq := seq,
      da := if !panel && s.tabBit (eshTab h) 1 31 then some (s.eshDa h) else none,
      setDei := dei && !panel, len := 0, cells := f.cells, origin := origin, enq := 0, enqNs := 0, cycle := none,
      readDone := false, deferred := false, held := false }
  ({ c with len := editLen f c }, s)

/-- Copies for a list of handles. -/
def State.eshCopies (s : State) (f : Frame) (seq : Option Nat) (dei : Bool) (origin : Origin) :
    List Nat → List Copy × State
  | [] => ([], s)
  | h :: r =>
    let (c, s) := s.eshCopy h f seq dei origin
    let (l, s) := State.eshCopies s f seq dei origin r
    (c :: l, s)

/-- A parity error in an entry read for a frame discards it (R96). -/
def State.sidParity (s : State) (region index : Nat) : State :=
  (s.bump F.SID_PARITY_DROP).raise 24 (region * 2 ^ 24 + index % 2 ^ 18)

/-- A frame without a number meets egress handles of which some inserts an R-TAG: nothing is inserted, and the frame counts once
(R82). A panel port takes no tag actions (R66). -/
def State.countNoSeq (s : State) (seq : Option Nat) (hs : List Nat) : State :=
  if seq.isNone && hs.any (fun h => s.eshValid h && s.eshPort h < 64 && s.tabBits (eshTab h) 0 17 16 = 1) then
    s.bump F.SID_RTAG_NO_SEQ
  else s

/-! ### Sequence generation (R88) -/

/-- Generation function `g` numbers a frame: the number, none when the function is invalid. -/
def State.generate (s : State) (g : Nat) : Option Nat × State :=
  let k := genTab g
  if s.tabBit k 0 31 then
    let n := s.tabBits k 0 15 0
    (some n, (s.setTabBits k 0 15 0 (n + 1)).bumpTab (k + 2))
  else (none, s)

/-! ### Frames that the device builds or reads back -/

/-- A new frame record of octets without FCS, with the tags recognised in it (R46): with a port's TPID, or, of a mixed frame,
none. Its cells may overwrite what raw writes had put into stage memory (log 31). -/
def State.newFrame (s : State) (port : Nat) (octets : List Byte) (pool : Pool) (island cells : Nat) (t : Tags)
    (arrival : Nat) : Frame × State :=
  let (id, s) := s.fresh
  let f : Frame :=
    { id := id, port := port, octets := octets, pool := pool, island := island, cells := cells, arrival := arrival,
      tagged := t.tci.isSome, tci := t.tci.getD 0, rtag := t.rtag, uses := 1, parity := false,
      unpack := s.op = .operational && s.on F.MIX_CTL.ENABLE }
  (f, { s.setFrame f with raw := s.raw.filter (fun x => x.1 / 2 ^ 60 ≠ 2) })

/-- The TPID that egress port `p` recognises besides 0x8100; a panel port recognises no other. -/
def State.tpidOf (s : State) (p : Nat) : Nat := if p < 64 then s.fld F.PRT_TAG.TPID p else 0x8100

end Sys2Proof.Machine
end

