-- ==== Sys2Proof/Machine/RingTime.lean ====
section
/-! DEFINITION. Ring time (R207, R227): its value at an instant, running on to a ring time, where an instant lies in the cycle
layout (R208), and the spans it leaves to ordinary frames (R209). -/

namespace Sys2Proof.Machine

/-- 2^-32 ns in a nanosecond. -/
def ringUnit : Int := (2 ^ 32 : Nat)

/-- The cycle time T and the round in ns. -/
def State.ringCycle (s : State) : Nat := 125000 * 2 ^ s.fld F.CON_CTL.CYCLE
def ringRound : Nat := 125000

/-- Ring time before the slew, at a local instant. -/
def State.ringRaw (s : State) (t : Nat) : Int := s.con.rt + (((t : Int) - s.lt) * s.ringRate + s.con.rest).fdiv ltNs

/-- The start of the last 10 µs of the present cycle, and those 10 µs (R227). -/
def State.slewStart (s : State) : Int := ((s.con.cycle + 1) * s.ringCycle - 10000 : Nat) * ringUnit
def slewSpan : Int := 10000 * ringUnit

/-- Ring time at a local instant: the correction comes in evenly over the last 10 µs of the cycle. -/
def State.ringAt (s : State) (t : Nat) : Int :=
  let r := s.ringRaw t
  let w := slewSpan - s.con.slew
  if s.con.slew = 0 then r else r + (s.con.slew * clampInt 0 w (r - s.slewStart)).fdiv w

def State.ringNow (s : State) : Int := s.ringAt s.lt

/-- What ring time, without the slew, still has to gain until it reaches `x`, in 1,600ths of 2^-32 ns. -/
def State.ringLack (s : State) (x : Int) : Int :=
  let raw :=
    if s.con.slew = 0 ∨ x ≤ s.slewStart then x
    else s.slewStart + ((x - s.slewStart) * (slewSpan - s.con.slew)).fdiv slewSpan
  (raw - s.con.rt) * ltNs - s.con.rest

/-- The device runs on until ring time reaches `x`. -/
def State.runToRing (s : State) (x : Int) : State :=
  if x ≤ s.ringNow then s else s.run (-((-(s.ringLack x)).fdiv s.ringRate)).toNat

/-- A ring time in whole ns. -/
def State.runToRingNs (s : State) (n : Nat) : State := s.runToRing (n * ringUnit)

/-- Ring time in whole ns at a local instant. -/
def State.ringNs (s : State) (t : Nat) : Nat := ((s.ringAt t).fdiv ringUnit).toNat

/-- The node is joined; its ring state (R239). -/
def State.joined (s : State) : Bool := s.on F.CON_STATE.JOINED
def State.ringState (s : State) : Nat := s.fld F.CON_STATE.STATE
def rLISTEN : Nat := 1
def rCOLDSTART : Nat := 2
def rINTEGRATING : Nat := 3
def rACTIVE : Nat := 4
def rPASSIVE : Nat := 5

/-- The two ring ports. -/
def State.portW (s : State) : Nat := s.fld F.CON_PORTS.PORT_W
def State.portE (s : State) : Nat := s.fld F.CON_PORTS.PORT_E

/-- A ring port of an enabled ring (R203, R206). -/
def State.ringPort (s : State) (p : Nat) : Bool := s.on F.CON_CTL.ENABLE && (s.portW = p || s.portE = p)

/-- WINDOW in ns. -/
def State.trainWindow (s : State) : Nat := 100 * s.fld F.CON_TRAIN.WINDOW

/-- Where ring time `r` lies in its round, in 2^-32 ns. -/
def roundPlace (r : Int) : Int := r.fmod (ringRound * ringUnit)

/-- The ring time at which, from a local instant on, the next static segment or train window begins; none inside one (R208, R209). -/
def State.nextSegment (s : State) (t : Nat) : Option Int :=
  let n := s.ringNs t
  let o := n % ringRound
  let start := n - o
  let first : Bool := start % s.ringCycle = 0
  let nextFirst : Bool := (start + ringRound) % s.ringCycle = 0
  if o < 25600 then (if first then none else some ((start + 25600 : Nat) * ringUnit))
  else if o < 25600 + s.trainWindow then none
  else some ((start + ringRound + (if nextFirst then 0 else 25600) : Nat) * ringUnit)

/-- The local time from a local instant until ring time reaches `x`, to the last whole unit before. -/
def State.ringUntil (s : State) (t : Nat) (x : Int) : Nat := (s.lt + (s.ringLack x).fdiv s.ringRate - t).toNat

/-- The local time that ordinary frames on port `p` may use from an instant on (R209). -/
def State.ringSpan (s : State) (p t : Nat) : Option Nat :=
  if s.ringPort p && s.con.hasTime then
    some (match s.nextSegment t with
      | some x => s.ringUntil t x
      | none => 0)
  else none

end Sys2Proof.Machine
end

