-- ==== Sys2Proof/Machine/Stamps.lean ====
section
/-! DEFINITION. Time-stamps (R247), PTP templates and the messages that the device builds from them (R250 to R253, R257), the
probe frame (R259), the host ring (R256), and what a frame takes on as it leaves. -/

namespace Sys2Proof.Machine

/-! ### Reference-plane stamps (R38, R247) -/

/-- Receive and transmit latency in ns at a rate in Mb/s. -/
def latencyOf (rate : Nat) : Nat × Nat :=
  if rate = 800000 then (96, 41) else if rate = 400000 then (118, 52) else if rate = 200000 then (164, 70) else (292, 114)

def State.latency (s : State) (p : Nat) : Nat × Nat := latencyOf (s.rateOf p (s.lanes p))

/-- Network time on port `p` at a local instant, in 2^-16 ns. -/
def State.macStamp (s : State) (p t : Nat) : Int := (s.portNt p t / 2 ^ 16 : Nat)

/-- Stamps without the calibration that R262 measures. -/
def State.txPlain (s : State) (p t : Nat) : Int :=
  s.macStamp p t + ((s.latency p).2 * 65536 : Nat) + s.fldS F.TSU_TX_ADJ p
def State.rxPlain (s : State) (p t : Nat) : Int :=
  s.macStamp p t - ((s.latency p).1 * 65536 : Nat) - s.fldS F.TSU_RX_ADJ p

/-- Reference-plane stamps of R247. -/
def State.txStamp (s : State) (p t : Nat) : Int := s.txPlain p t + s.fldS F.TSU_TX_CAL p
def State.rxStamp (s : State) (p t : Nat) : Int := s.rxPlain p t + s.fldS F.TSU_RX_CAL p

/-- The local instant at which the first octet after the SFD of a frame whose last byte arrives now crossed the MAC
boundary: a frame that came in fragments, at its first. -/
def State.rxPoint (s : State) (p : Nat) (octets : List Byte) : Nat :=
  ((s.port p).rxBegan).getD (s.lt - frameLen octets * s.octetLt p)

/-- The side of width changes and steps on which a local instant lies (R249). -/
def State.sideOf (s : State) (p t : Nat) : Nat :=
  (s.port p).tsu.side - ((s.port p).tsu.sides.filter (fun c => t < c)).length

/-- A stamp split into seconds, nanoseconds and 2^-16 ns. -/
def stampSec (t : Int) : Nat := t.toNat / 65536 / 1000000000
def stampNs (t : Int) : Nat := t.toNat / 65536 % 1000000000
def stampSub (t : Int) : Nat := t.toNat % 65536

/-- A PTP timestamp: seconds (6) and nanoseconds (4). -/
def ptpTime (t : Int) : List Byte := beOctets 6 (stampSec t) ++ beOctets 4 (stampNs t)

/-- The stamp that a PTP timestamp at `k` spells. -/
def ptpTimeAt (l : List Byte) (k : Nat) : Int := ((octN l k 6 * 1000000000 + octN l (k + 6) 4) * 65536 : Nat)

/-! ### PTP messages in frames (R250) -/

/-- The transport of NTM_PTP: 0 802.3, 1 IPv4, 2 IPv6. -/
def State.ptpTransport (s : State) : Nat := s.fld F.NTM_PTP.TRANSPORT
def State.ptpDomain (s : State) : Nat := s.fld F.NTM_PTP.DOMAIN

/-- The octet after the VLAN tag that a port recognises, where the EtherType stands. -/
def typeOff (tpid : Nat) (l : List Byte) : Nat := if oct2 l 12 = 0x8100 ∨ oct2 l 12 = tpid then 16 else 12

/-- Where the PTP message starts in a frame, over the transport in use. -/
def ptpOff (transport tpid : Nat) (l : List Byte) : Option Nat :=
  let e := typeOff tpid l
  let udp := fun (k : Nat) => if oct2 l (k + 2) = 319 ∨ oct2 l (k + 2) = 320 then some (k + 8) else none
  match transport with
  | 0 => if oct2 l e = 0x88F7 then some (e + 2) else none
  | 1 => if oct2 l e = 0x0800 ∧ oct l (e + 11) = 17 then udp (e + 2 + 4 * (oct l (e + 2) % 16)) else none
  | _ => if oct2 l e = 0x86DD ∧ oct l (e + 8) = 17 then udp (e + 42) else none

/-- Fields of a PTP message that starts at `k` (IEEE 1588-2019, which R250 names; log 16). -/
def ptpType (l : List Byte) (k : Nat) : Nat := oct l k % 16
def ptpLength (l : List Byte) (k : Nat) : Nat := oct2 l (k + 2)
def ptpDomainAt (l : List Byte) (k : Nat) : Nat := oct l (k + 4)
def ptpTwoStep (l : List Byte) (k : Nat) : Bool := (oct l (k + 6)).testBit 1
def ptpCorr (l : List Byte) (k : Nat) : Int := toSigned 64 (octN l (k + 8) 8)
def ptpSeq (l : List Byte) (k : Nat) : Nat := oct2 l (k + 30)
/-- The sequenceId of the PTP message in a frame; 0 without one. -/
def ptpSeqOf (transport tpid : Nat) (l : List Byte) : Nat := (ptpOff transport tpid l).elim 0 (ptpSeq l)
def ptpSource (l : List Byte) (k : Nat) : List Byte := slice l (k + 20) 10

/-! ### Templates (R252) -/

/-- Octets of a template's FRAME field, when the template is valid. -/
def State.template (s : State) (p : Nat) : Option (List Byte) :=
  let b := tTime + 64 * p
  let w0 := s.tab b
  let n := bitsOf w0 15 0
  if w0.testBit 16 ∧ 60 ≤ n ∧ n ≤ 252 then
    some (((List.range 63).flatMap (fun i => leBytes 4 (s.tab (b + 1 + i)))).take n)
  else none

/-- Ones' complement sum of the octets of a list taken two by two. -/
def onesSum (l : List Byte) : Nat :=
  let n := (List.range ((l.length + 1) / 2)).foldl (fun a i => a + oct2 l (2 * i)) 0
  let n := n % 65536 + n / 65536
  n % 65536 + n / 65536

/-- The frame with `v` written from octet `k`. -/
def putAt (l : List Byte) (k : Nat) (v : List Byte) : List Byte := splice l k v.length v

/-- An IPv4 header at `k` with its header checksum made valid. -/
def fixIpv4 (l : List Byte) (k : Nat) : List Byte :=
  let h := 4 * (oct l k % 16)
  let z := putAt l (k + 10) [0, 0]
  putAt z (k + 10) (beOctets 2 (0xFFFF - onesSum (slice z k h)))

/-- The sum over pseudo-header and UDP datagram of an IPv6 packet whose header is at `k`. -/
def udp6Sum (l : List Byte) (k : Nat) : Nat :=
  let d := slice l (k + 40) (oct2 l (k + 4))
  onesSum (slice l (k + 8) 32 ++ beOctets 4 (oct2 l (k + 4)) ++ [0, 0, 0, 17] ++ d)

/-- The two trailer octets of Annex D, which end the datagram, made such that the UDP checksum is valid (R253). -/
def fixTrailer (l : List Byte) (k : Nat) : List Byte :=
  let e := k + 40 + oct2 l (k + 4) - 2
  let z := putAt l e [0, 0]
  putAt z e (beOctets 2 (0xFFFF - udp6Sum z k))

/-- Checksums after a message has been changed: none over 802.3; over IPv4 the UDP checksum is zero; over IPv6 the
trailer. -/
def fixSums (transport e : Nat) (l : List Byte) : List Byte :=
  match transport with
  | 0 => l
  | 1 => putAt l (e + 2 + 4 * (oct l (e + 2) % 16) + 6) [0, 0]
  | _ => fixTrailer l (e + 2)

/-- A message header from the template's: messageType, messageLength, flags' twoStep bit, correctionField, sequenceId,
controlField and logMessageInterval set. -/
def ptpHeader (h : List Byte) (ty len : Nat) (twoStep : Bool) (corr : Int) (seq ctl log : Nat) : List Byte :=
  let h := putAt h 0 (beOctets 1 (oct h 0 / 16 * 16 + ty))
  let h := putAt h 2 (beOctets 2 len)
  let h := putAt h 6 (beOctets 1 (withBits (oct h 6) 1 1 twoStep.toNat))
  let h := putAt h 8 (beOctets 8 (ofSigned 64 corr))
  putAt h 30 (beOctets 2 seq ++ beOctets 1 ctl ++ beOctets 1 log)

/-- The part of a Pdelay frame before its PTP message: the template's headers with the destination of R250 and the lengths
of a message of 54 octets; `event` selects UDP port 319. -/
def pdelayHead (transport e : Nat) (event : Bool) (l : List Byte) : List Byte :=
  let port := beOctets 2 (if event then 319 else 320)
  match transport with
  | 0 => beOctets 6 0x0180C200000E ++ slice l 6 (e + 2 - 6)
  | 1 =>
    let u := e + 2 + 4 * (oct l (e + 2) % 16)
    let h := beOctets 6 0x01005E00006B ++ slice l 6 (u + 8 - 6)
    let h := putAt h (e + 4) (beOctets 2 (u - (e + 2) + 62))
    let h := fixIpv4 (putAt h (e + 18) [224, 0, 0, 107]) (e + 2)
    putAt h (u + 2) (port ++ beOctets 2 62 ++ [0, 0])
  | _ =>
    let h := beOctets 6 0x33330000006B ++ slice l 6 (e + 50 - 6)
    let h := putAt h (e + 6) (beOctets 2 64)
    let h := putAt h (e + 26) (beOctets 16 0xFF02000000000000000000000000006B)
    putAt h (e + 44) (port ++ beOctets 2 64)

/-- A Pdelay message of port `p`: header from the template, then the 20 octets of its body. -/
def State.pdelayFrame (s : State) (p ty : Nat) (twoStep : Bool) (corr : Int) (seq : Nat) (body : List Byte) :
    Option (List Byte) :=
  match s.template p with
  | none => none
  | some l =>
    let tr := s.ptpTransport
    let e := typeOff (s.fld F.PRT_TAG.TPID p) l
    match ptpOff tr (s.fld F.PRT_TAG.TPID p) l with
    | none => none
    | some k =>
      let log := if ty = 2 then ofSigned 8 (s.fldS F.TSU_CTL.PDELAY_LOG p) else 0x7F
      let msg := ptpHeader (slice l k 34) ty 54 twoStep corr seq 5 log ++ body
      let f := pdelayHead tr e (ty ≠ 10) l ++ msg
      some (if tr = 2 then fixTrailer (f ++ [0, 0]) (e + 2) else f)

/-- A control frame that the device builds from port `p`'s template: a template that is not VALID sends nothing and counts
in PTP_DISCARD (R252). -/
def State.sendPtp (s : State) (p kind : Nat) (f : Option (List Byte)) : State :=
  match f with
  | some l => s.sendControl p kind l
  | none => s.bump F.PTP_DISCARD p

/-! ### Frames as they leave (R253, R257, R260) -/

/-- The octets of a queued control frame. -/
def State.octetsOf (s : State) (c : Copy) : List Byte :=
  match s.frame c.fid with
  | some f => f.octets
  | none => []

/-- Octets of the TLVs that follow at `k` in a message of at most `last` octets of a frame: up to padding (a TLV of type 0) or
what does not fit (R252, IEEE 1588-2019 14.1; log 16). -/
def tlvOctets (l : List Byte) (last : Nat) : Nat → Nat → Nat
  | 0, _ => 0
  | n + 1, k =>
    let m := 4 + oct2 l (k + 2)
    if k + m ≤ last ∧ oct2 l k ≠ 0 then m + tlvOctets l last n (k + m) else 0

/-- The messageLength of the Sync at `k`: header and origin, and the TLVs behind it. -/
def syncLength (transport k : Nat) (l : List Byte) : Nat :=
  44 + tlvOctets l (l.length - (if transport = 2 then 2 else 0)) 64 (k + 44)

/-- A Sync with its length, its origin and its sub-nanoseconds written from its transmit stamp. -/
def State.syncOut (s : State) (p : Nat) (t : Int) (l : List Byte) : List Byte :=
  let tpid := s.fld F.PRT_TAG.TPID p
  match ptpOff s.ptpTransport tpid l with
  | none => l
  | some k =>
    let l := putAt l k (ptpHeader (slice l k 34) 0 (syncLength s.ptpTransport k l) false (ptpCorr l k + (stampSub t : Nat))
      ((s.port p).tsu.syncSeq) 0 (ofSigned 8 (s.fldS F.NTM_PTP.SYNC_LOG)))
    fixSums s.ptpTransport (typeOff tpid l) (putAt l (k + 34) (ptpTime t))

/-- The stamps kept of probes. -/
def keepStamps (l : List PinStamp) : List PinStamp := l.take 64

/-- Ring-time stamps at the reference plane of port `p`, in 2^-16 ns (R212, R247). -/
def State.ringTxStamp (s : State) (p t : Nat) : Int :=
  (s.ringAt t + (s.port p).ringReplica).fdiv 65536 + ((s.latency p).2 * 65536 : Nat) + s.fldS F.TSU_TX_ADJ p + s.fldS F.TSU_TX_CAL p
def State.ringRxStamp (s : State) (p t : Nat) : Int :=
  (s.ringAt t + (s.port p).ringReplica).fdiv 65536 - ((s.latency p).1 * 65536 : Nat) - s.fldS F.TSU_RX_ADJ p + s.fldS F.TSU_RX_CAL p

/-- A Concord sync frame as it leaves at ring stamp `x`: the node's own takes its ORIGIN, a forwarded one ends its residence,
which began at the stamp already taken from its CORRECTION (R212). -/
def State.concordOut (s : State) (x : Int) (l : List Byte) : List Byte :=
  if oct l 15 ≠ 1 then l
  else if oct l 22 = 0 then
    let o := (x % ((s.ringCycle * 65536 : Nat) : Int)).toNat
    putAt l 30 (beOctets 4 (o / 65536) ++ beOctets 2 (o % 65536))
  else putAt l 38 (beOctets 8 (ofSigned 64 (toSigned 64 (octN l 38 8) + x)))

/-- The port probes: R259's three conditions. -/
def State.probesAllowed (s : State) (p : Nat) : Bool :=
  s.on F.TSU_CTL.PROBE_EN p && s.on F.NTM_CTL.ENABLE && s.on F.PRT_PARTNER.VALID p && s.on F.PRT_PARTNER.PROBE p

/-- A queued probe. -/
def isProbe (c : Copy) : Bool := c.origin = .control kPROBE

/-- A queued PTP message of the device's own. -/
def isPtp (c : Copy) : Bool := [kSYNC, kPDREQ, kPDRESP].any (fun k => c.origin = .control k)

/-- No PTP message leaves while NTM_CTL.ENABLE is 0, and no probe while the port may not probe: what waits is discarded
(R251, R259; log 68). -/
def State.dropBarred (s : State) (p : Nat) : State :=
  let s := if s.on F.NTM_CTL.ENABLE then s else s.discardWhere p isPtp (fun t _ => t)
  if s.probesAllowed p then s else s.discardWhere p isProbe (fun t _ => t.bump F.PROBE_SKIPPED p)

/-- A calibration moves by a residual (R262): after convergence one more than 2 ns away is rejected. -/
def State.calibrate (s : State) (p : Nat) (f : Field) (residual : Int) : State :=
  let cal := s.fldS f p
  if s.on F.TSU_STATUS.CAL_CONVERGED p && 2 * 65536 < (residual - cal).natAbs then s.bump F.PROBE_REJECT p
  else s.setf f (ofSigned 32 (cal + (residual - cal).fdiv 16)) p

/-- A probe as it leaves at local instant `t`: STEPPED on the first after a step, and its pin stamp, which a port takes once in a
microsecond at most, with the residual that the stamp shows (R260, R262). -/
def State.probeOut (s : State) (p t : Nat) (l : List Byte) : List Byte × State :=
  let x := (s.port p).tsu
  let o := putAt l 18 (beOctets 1 (withBits (oct l 18) 5 1 x.stepped.toNat))
  let s := (s.bump F.PROBE_TX p).modTsu p (fun x => { x with stepped := false })
  if x.prLastTx.any (fun u => t < u + ltUs) then (o, s)
  else
    let pin := s.txPlain p t + x.prResid
    let s := s.modTsu p (fun y =>
      { y with prLastTx := some t, prSent := keepStamps (⟨oct2 l 16, pin, s.sideOf p t⟩ :: y.prSent) })
    (o, s.calibrate p F.TSU_TX_CAL x.prResid)

/-- What a control frame takes on, and what the time-stamp unit keeps, when its first octet after the SFD leaves at local
instant `t`: the octets that leave. -/
def State.stampTx (s : State) (p t : Nat) (c : Copy) : List Byte × State :=
  let l := s.octetsOf c
  match c.origin with
  | .control k =>
    if k = kSYNC then
      let s := s.modTsu p (fun x => { x with syncSeq := (x.syncSeq + 1) % 65536 })
      (s.syncOut p (s.txStamp p t) l, s.bump F.SYNC_TX p)
    else if k = kPDREQ then
      (l, (s.bump F.PDELAY_REQ_TX p).modTsu p (fun x =>
        { x with pdOpen := x.pdOpen.map (fun o =>
            if o.seq = ptpSeqOf s.ptpTransport (s.fld F.PRT_TAG.TPID p) l then { o with t1 := some (s.txStamp p t), side := s.sideOf p t } else o) }))
    else if k = kPDRESP then
      match ptpOff s.ptpTransport (s.fld F.PRT_TAG.TPID p) l with
      | none => (l, s)
      | some m =>
        if ptpType l m ≠ 3 then (l, s)
        else
          let t3 := s.txStamp p t
          let across := (s.port p).tsu.resps.any (fun x => x.1 = c.fid && x.2 ≠ s.sideOf p t)
          let s := (s.bump F.PDELAY_RESP_TX p).modTsu p (fun x => { x with resps := x.resps.filter (fun y => y.1 ≠ c.fid) })
          if across then (l, s.bump F.EXCHANGE_DROP p)
          else (l, s.sendPtp p kPDRESP (s.pdelayFrame p 10 false (stampSub t3 : Nat) (ptpSeq l m)
            (ptpTime t3 ++ slice l (m + 44) 10)))
    else if k = kPROBE then s.probeOut p t l
    else if k = kCONCORD then (s.concordOut (s.ringTxStamp p t) l, s)
    else (l, s)
  | _ => (l, s)

/-! ### The host ring (R256) -/

/-- A host ring record is written, HEAD advances and vector 2 is sent, or the ring is full. -/
def State.hostRing (s : State) (p kind flags len : Nat) (rx off : Int) (msg : List Byte) : State :=
  let size := 2 ^ s.fld F.NTM_RX_SIZE
  let head := s.fld F.NTM_RX_HEAD
  if (head + 1) % size = s.fld F.NTM_RX_TAIL % size then s.bump F.NTM_RX_DROP
  else
    let rec' := leBytes 1 p ++ leBytes 1 kind ++ leBytes 1 flags ++ [0] ++ leBytes 2 len ++
      leBytes 2 s.time.rxRecord ++ leBytes 6 (stampSec rx) ++ leBytes 4 (stampNs rx) ++ leBytes 2 (stampSub rx) ++
      leBytes 8 (ofSigned 64 off) ++ List.replicate 4 0 ++ msg.take 96 ++ List.replicate (96 - msg.length) 0
    let s := s.modTime (fun x => { x with rxRecord := (x.rxRecord + 1) % 65536 })
    let base := s.fld F.NTM_RX_BASE_L * 4096 + 2 ^ 32 * s.fld F.NTM_RX_BASE_H
    let s := s.modHost (fun h => { h with mem := cellsWrite h.mem (base + 128 * head) rec' })
    let s := (s.setf F.NTM_RX_HEAD ((head + 1) % size)).bump F.PTP_TO_HOST p
    s.sendVec 0 2

/-- FLAGS of a record. -/
def State.ringFlags (s : State) (p len : Nat) (offset : Bool) : Nat :=
  (decide (96 < len)).toNat + (decide (s.ptpTransport = 1)).toNat * 2 + (decide (s.ptpTransport = 2)).toNat * 4 +
    offset.toNat * 8 + s.fld F.TSU_STATUS.CAL_CONVERGED p * 16

end Sys2Proof.Machine
end

