-- ==== Sys2Proof/Machine/Receive.lean ====
section
/-! DEFINITION. What a network port does with every frame that it receives: the checks of R443, the cells of R140, the wake
filters of R51 and R52. -/

namespace Sys2Proof.Machine

/-! ### Wake-pattern filters (R51, R52) -/

/-- First dword number of filter `f` of port `p`. -/
def wakeTab (p f : Nat) : Nat := tWake + 8 * (8 * p + f)

/-- The frame as received, with its FCS. -/
def withFcs (octets : List Byte) : List Byte := octets ++ leBytes 4 (crc32 octets)

/-- Filter `f` of port `p` matches a frame of good FCS. -/
def State.wakeMatch (s : State) (p f : Nat) (octets : List Byte) : Bool :=
  let mask := s.tabNum (wakeTab p f) 4
  let l := withFcs octets
  let sel := (List.range 128).filter (fun i => mask.testBit i)
  bitsOf (s.tab (wakeTab p f + 5)) 15 0 ≤ l.length && sel.all (fun i => i < l.length) &&
    crc32 (sel.map (fun i => l.getD i 0)) = s.tab (wakeTab p f + 4)

/-- The filters of a wake port run in DOZE and STANDBY; the last filter that matches is recorded. -/
def State.wakeFilters (s : State) (p : Nat) (octets : List Byte) : State :=
  if s.pwr.state = .run || !s.on F.PRT_WAKE_CTL.WAKE_PORT p then s
  else
    (List.range 8).foldl (fun t f =>
      if s.fbit F.PRT_WAKE_CTL.FILTER_EN f p && s.wakeMatch p f octets then
        let t := (t.setf F.PRT_WAKE_CTL.MATCHED f p).setf F.PRT_WAKE_CTL.MATCH_VALID 1 p
        (t.bump F.WAKE_MATCH p).wakeIf 0 (some p)
      else t) s

/-- The effect of a dword write at an offset of the wake-pattern region (R52). -/
def State.wakeFilterWrite (s : State) (o : Origin4) (off data : Nat) : State :=
  let p := off / 256
  if s.nPorts ≤ p then s
  else if s.fbit F.PRT_WAKE_CTL.FILTER_EN (off / 32 % 8) p then s.refuse o data cENABLED
  else s.setTab (tWake + off / 4) data

/-- WAKE_FILTER_ENTRY_WRITE (R52). -/
def execWakeFilterEntryWrite (off : Nat) (data : Word) (s : State) : Host.Outcome State Fault Refusal :=
  let o := atBar2 (0x1340_0000 + off)
  .next (if s.hostUp && decide (off / 256 < s.nPorts) then s.gatedTab o data.toNat (fun t => t.wakeFilterWrite o off data.toNat) else s)

/-! ### The checks of R443 -/

/-- The frames that the receive side discards whatever they are: outside the running device, in STANDBY and on the way
there, during a warm reset and in SAFE (R28, R376, R382). -/
def State.rxDown (s : State) : Bool :=
  s.phase ≠ .running || s.pwr.state = .standby || s.pwr.entry.isSome || s.pwr.warmRun.isSome || s.op = .safe

/-- Link-local control frames are processed; data frames are accepted on port `p` (R28, R29). -/
def State.rxControl (s : State) : Bool := !s.rxDown && s.op.service
def State.rxData (s : State) (p : Nat) : Bool :=
  !s.rxDown && (s.op = .operational || (s.op = .test && s.on F.PRT_CTL.LOOPBACK p))

/-- The cells that an arriving frame takes before its last byte, whatever check it fails then: they lower QSH_POOL_LOW, and
return when the frame is discarded (R140). A disabled port takes none (R443). -/
def State.rxTake (s : State) (p n : Nat) : State :=
  if !s.on F.PRT_CTL.ENABLE p then s
  else
    s.poolLow p (s.poolFree p - (match s.cellCheck p n with
      | .fits => n
      | .noCell k => k
      | .limit k => k))

/-- Check 5 (R140): whether the frame found its cells. -/
def State.rxCells (s : State) (p n : Nat) : Bool × State :=
  match s.cellCheck p n with
  | .fits => (true, s)
  | .noCell _ => (false, s.bump F.ING_NOCELL_DROP p)
  | .limit _ => (false, s.bump F.ING_LIMIT_DROP p)

/-- The five checks on a frame at port `p`, whose kind the operating state admits when `may`: whether it passes. -/
def State.macRx (s : State) (p : Nat) (octets : List Byte) (fcsOk may : Bool) : Bool × State :=
  let len := frameLen octets
  let s := s.rxTake p (cellsOf len)
  if !fcsOk then (false, s.bump F.RX_FCS_ERR p)
  else if len < 64 then (false, (s.wakeFilters p octets).bump F.RX_UNDERSIZE p)
  else if s.fld F.PRT_MAXLEN.MAXLEN p < len then (false, (s.wakeFilters p octets).bump F.RX_OVERSIZE p)
  else
    let t := ((s.bump F.RX_FRAMES_OK p).bump F.RX_OCTETS_OK p 0 len).wakeFilters p octets
    if !s.on F.PRT_CTL.ENABLE p then (false, t.bump F.RX_DISABLED_DROP p)
    else if !may then (false, t.bump F.RX_STATE_DISCARD p)
    else t.rxCells p (cellsOf len)

/-- A train frame at its last octet: the length, which the header tells before anything of it leaves, and the FCS are judged and
counted as of any frame (R39, R443); it takes no cells. Whether its length is accepted. -/
def State.trainJudge (s : State) (p : Nat) (l : List Byte) (fcsOk : Bool) : Bool × State :=
  if !fcsOk then (true, s.bump F.RX_FCS_ERR p)
  else if frameLen l < 64 then (false, s.bump F.RX_UNDERSIZE p)
  else if s.fld F.PRT_MAXLEN.MAXLEN p < frameLen l then (false, s.bump F.RX_OVERSIZE p)
  else (true, (s.bump F.RX_FRAMES_OK p).bump F.RX_OCTETS_OK p 0 (frameLen l))

/-- A link-local frame at port `p` is judged and, when it passes, taken by `f`. -/
def State.rxLocal (s : State) (p : Nat) (octets : List Byte) (f : State → State) : State :=
  let (ok, t) := s.macRx p octets true s.rxControl
  if ok then f t else t

end Sys2Proof.Machine
end

