-- ==== Sys2Proof/Machine/Panel.lean ====
section
/-! DEFINITION. Panel ports (R63 to R68): reception, the two queues, CSMA/CD with its back-off, and PLCA. -/

namespace Sys2Proof.Machine

/-- Local time units in a bit of 10 Mb/s (R64). -/
def panelBit : Nat := 100 * ltNs

/-- Octets of a frame with FCS, preamble and gap, as time on a panel segment. -/
def panelLt (octets : List Byte) : Nat := (8 + (padded octets).length + 4 + 12) * 8 * panelBit

/-- The longest frame of a panel port, with FCS (R66). -/
def panelMax : Nat := 1522

/-- The inter-packet gap of a panel segment (R64). -/
def panelGap : Nat := 96 * panelBit

/-- Octets that a panel port's buffer holds (R66). -/
def panelBuffer : Nat := 128 * 1024


/-! ### The queues (R66) -/

/-- Octets of the frames that a panel port's two queues hold, FCS included; the frame in transmission counts no longer (DESIGN
CHOICE, log 70). -/
def State.panelUsed (s : State) (t : Nat) : Nat :=
  let d := s.panel t
  (d.high ++ d.low).foldl (fun a i => a + (match s.frame i with
    | some f => frameLen f.octets
    | none => 0)) 0

/-- The engine island that built a mixed copy, and when it must have begun. -/
def Copy.mixDue (c : Copy) : Option (Nat × MixDue) :=
  match c.origin with
  | .mixed _ m x => some (m, x)
  | _ => none

/-- Mixed frames in the buffer of panel port `t` whose next deadline instant has come are discarded (R120). -/
def State.panelUnsent (s : State) (t : Nat) : State :=
  let due := fun id => ((s.frame id).bind (fun f => f.due)).filter (fun x => x.2.next ≤ s.portNs x.2.port)
  let late := fun id => (due id).isSome
  let d := s.panel t
  ((d.high ++ d.low).filter late).foldl (fun u id =>
    (u.release id).bump F.ENG_UNSENT_DROP (((due id).map (fun x => x.1)).getD 0))
    (if (d.high ++ d.low).any late then
      s.modPanel t (fun d => { d with high := d.high.filter (fun i => !late i), low := d.low.filter (fun i => !late i) })
     else s)

/-- A copy that reaches panel port `t`: it leaves the stage memory for the port's own buffer, or finds no room there. It
answers whether the copy was queued. -/
def State.panelOffer (s : State) (t : Nat) (c : Copy) : Bool × State :=
  match s.frame c.fid with
  | none => (false, s)
  | some f =>
    let n := frameLen f.octets
    let s := s.release c.fid
    if f.parity then (false, s)
    else if panelMax < n || panelBuffer < s.panelUsed t + n then (false, s.bump F.PNL_DROPS 0 t)
    else
      let (id, s) := s.fresh
      let g : Frame := { f with id := id, pool := .mix, cells := 0, uses := 1, source := some f.id, due := c.mixDue }
      let hi : Bool := s.fld F.PNL_CTL.HIGH_PCP 0 t ≤ f.pcp
      (true, (s.setFrame g).modPanel t (fun d =>
        if hi then { d with high := d.high ++ [id] } else { d with low := d.low ++ [id] }))

/-! ### PLCA (R65) -/

/-- PLCA governs panel port `t` now. -/
def State.plcaActive (s : State) (t : Nat) : Bool :=
  s.on F.PNL_CTL.PLCA_EN 0 t && s.fld F.PNL_PLCA.NODE_ID 0 t ≠ 0xFF && s.on F.PNL_STATUS.PLCA_OK 0 t

/-- The opportunity passes to the next node; after the last node the coordinator sends a BEACON. -/
def State.nextOpportunity (s : State) (t : Nat) : State :=
  s.modPanel t (fun d =>
    let n := d.opportunity + 1
    let last : Bool := s.fld F.PNL_PLCA.NODE_ID 0 t = 0 && s.fld F.PNL_PLCA.NODE_COUNT 0 t ≤ n
    { d with opportunity := if last then 0 else n, burst := 0 })

/-! ### Transmission -/

/-- A transmit opportunity in which a frame has been sent lasts for another one: frames are left of the burst, and the burst
timer, which runs from the end of the frame, outlasts the gap of 96 bit times (R65). -/
def State.burstLasts (s : State) (t : Nat) : Bool :=
  (s.panel t).burst ≤ s.fld F.PNL_PLCA.MAX_BURST 0 t && 96 ≤ s.fld F.PNL_CTL.BURST_TIMER 0 t

/-- The time in bit times after which an opportunity passes with nothing to send: the TO timer, or what the burst timer leaves
after the gap (R65). -/
def State.opportunityBits (s : State) (t : Nat) : Nat :=
  if (s.panel t).burst = 0 then s.fld F.PNL_PLCA.TO_TIMER 0 t else s.fld F.PNL_CTL.BURST_TIMER 0 t - 96

/-- The panel port may send frames (R28, R346). -/
def State.panelMay (s : State) (t : Nat) : Bool :=
  !s.outputsDown && !s.panelHeld && s.op = .operational && s.on F.PNL_CTL.ENABLE 0 t

/-- A transmission whose end has come is complete: the frame is counted and leaves the buffer; under PLCA the opportunity
passes once the burst is spent. -/
def State.panelSettle (s : State) (t : Nat) : State :=
  match (s.panel t).tx with
  | some (id, some e) =>
    if e ≤ s.lt then
      let s := ((s.bump F.PNL_TX_FRAMES 0 t).release id).modPanel t (fun d =>
        { d with tx := none, attempts := 0, burst := d.burst + 1 })
      if s.plcaActive t && !s.burstLasts t then s.nextOpportunity t else s
    else s
  | _ => s

/-- Frame `id` of the port's buffer goes onto the segment, after the gap that follows a received frame (R64). -/
def State.panelStart (s : State) (t id : Nat) (d : PanelDyn) : State :=
  let o := match s.frame id with
    | some f => f.octets
    | none => []
  let s := s.runToLt d.gapEnd
  s.setPanel t { d with tx := some (id, some (s.lt + panelLt o)), backoff := none, defer := false }

/-- The frame whose back-off is over begins again, else the head of the high queue, else that of the low queue. -/
def State.panelBegin (s : State) (t : Nat) : State :=
  let d := s.panel t
  match d.tx, d.high, d.low with
  | some (id, none), _, _ => if d.backoff.isSome then s else s.panelStart t id d
  | some (_, some _), _, _ => s
  | none, i :: r, _ => s.panelStart t i { d with high := r }
  | none, [], i :: r => s.panelStart t i { d with low := r }
  | none, [], [] => s

/-- The port has a frame that it could begin now. -/
def State.panelReady (s : State) (t : Nat) : Bool :=
  let d := s.panel t
  match d.tx with
  | some (_, none) => d.backoff.isNone
  | some (_, some _) => false
  | none => !d.high.isEmpty || !d.low.isEmpty

/-- T1S_ED is sampled: a high level is carrier sense (R438, log 66). -/
def State.senseCarrier (s : State) (t : Nat) (carrier : Bool) : State := s.modPanel t (fun d => { d with energy := carrier })

/-- The port begins a frame when CSMA/CD or PLCA lets it: under CSMA/CD it waits while another node sends (R64, R65, log 66). -/
def State.panelGo (s : State) (t : Nat) (carrier : Bool) : State :=
  let s := s.panelUnsent t
  if !s.panelMay t then s
  else if s.plcaActive t then
    if (s.panel t).opportunity = s.fld F.PNL_PLCA.NODE_ID 0 t then s.panelBegin t else s
  else if carrier then s.modPanel t (fun d => { d with defer := s.panelReady t })
  else s.panelBegin t

/-- The back-off of R64 after attempt `n`, in local time, with a random draw `r`. -/
def backoffLt (n r : Nat) : Nat := (32 + r % 2 ^ min n 10 * 512) * panelBit

/-- The port is sending a frame under CSMA/CD now, the gap after it apart. -/
def State.panelSending (s : State) (t : Nat) : Bool :=
  !s.plcaActive t && (match (s.panel t).tx with
    | some (_, some e) => s.lt + panelGap < e
    | _ => false)

/-- A collision: jam, the gap, and a back-off, or the frame is discarded after its sixteenth attempt (R64). -/
def State.panelCollide (s : State) (t : Nat) : State :=
  match (s.panel t).tx with
  | some (id, some _) =>
    let n := (s.panel t).attempts + 1
    let s := (s.bump F.PNL_COLLISIONS 0 t).modPanel t (fun d => { d with gapEnd := s.lt + 32 * panelBit + panelGap })
    if 16 ≤ n then
      ((s.bump F.PNL_EXCESS_COLL 0 t).release id).modPanel t (fun d => { d with tx := none, attempts := 0 })
    else
      let (r, s) := s.draw
      s.modPanel t (fun d => { d with
        tx := some (id, none), attempts := n, backoff := some (s.lt + backoffLt n r) })
  | _ => s

/-- PANEL_COLLISION. -/
def execPanelCollision (t : Nat) (s : State) : Host.Outcome State Fault Refusal :=
  atUnit (t < 8) s (if s.panelSending t then s.panelCollide t else s)

/-- The time over which the comparison of R64 aligns the echo of the port's own signal (R438). -/
def echoMost : Nat := 600

/-- The port begins a frame; an echo that comes later than the comparison aligns makes every transmission a collision (R438). -/
def State.panelSend (s : State) (t : Nat) (carrier : Bool) (echoNs : Nat) : State :=
  let u := (s.senseCarrier t carrier).panelGo t carrier
  if echoMost < echoNs && u.panelSending t then (u.run (echoMost * ltNs)).panelCollide t else u

/-- PANEL_FRAME_TX: the frame in transmission, if any, ends, and the port begins the next one. -/
def execPanelFrameTx (t : Nat) (s : State) (carrier : Bool := false) (echoNs : Nat := 0) : Host.Outcome State Fault Refusal :=
  atUnit (t < 8) s
    (if s.phase ≠ .running then s
     else
       ((match (s.panel t).tx with
         | some (_, some e) => s.runToLt e
         | _ => s).panelSettle t).panelSend t carrier echoNs)

/-- PANEL_BACKOFF_EXPIRY: the frame is attempted again, when the port may send. -/
def execPanelBackoffExpiry (t : Nat) (s : State) (carrier : Bool := false) (echoNs : Nat := 0) :
    Host.Outcome State Fault Refusal :=
  atUnit (t < 8) s
    (match (s.panel t).backoff with
     | some b =>
       let s := (s.runToLt b).modPanel t (fun d => { d with backoff := none })
       if (s.panel t).tx.isSome then s.panelSend t carrier echoNs else s
     | none => s)

/-- PLCA_BEACON_RX: a BEACON is detected, or a coordinator sends its own, and the cycle of opportunities starts. -/
def execPlcaBeaconRx (t : Nat) (s : State) : Host.Outcome State Fault Refusal :=
  atUnit (t < 8) s
    (if s.phase = .running && s.on F.PNL_CTL.PLCA_EN 0 t && s.fld F.PNL_PLCA.NODE_ID 0 t ≠ 0xFF then
       (s.setf F.PNL_STATUS.PLCA_OK 1 0 t).modPanel t (fun d => { d with opportunity := 0, burst := 0 })
     else s)

/-- PLCA_TO_TIMER: the present opportunity passes, unused or after its burst. -/
def execPlcaToTimer (t : Nat) (s : State) : Host.Outcome State Fault Refusal :=
  atUnit (t < 8) s
    (if s.phase = .running && s.plcaActive t && (s.panel t).tx.isNone then
       (s.run (s.opportunityBits t * panelBit)).nextOpportunity t
     else s)

/-- PLCA_BEACON_LOSS: no BEACON is detected any more. -/
def execPlcaBeaconLoss (t : Nat) (s : State) : Host.Outcome State Fault Refusal :=
  atUnit (t < 8) s
    ((s.setf F.PNL_STATUS.PLCA_OK 0 0 t).modPanel t (fun d => { d with opportunity := 0, burst := 0 }))

/-- PNL_STATUS.DEFERRING: the port waits for carrier or back-off (R71). -/
def State.deferring (s : State) (t : Nat) : Bool := (s.panel t).backoff.isSome || (s.panel t).defer

/-! ### Reception (R66, R67) -/

/-- A transfer is presented on a crossing: it is delivered after `lag` of local time and three cycles of the destination
(R14). -/
def State.present (s : State) (src dst lag : Nat) (c : Cargo) : State :=
  { s with xing := s.xing ++ [⟨src, dst, s.lt + lag + 3 * clkOf dst, c⟩] }

/-- A received frame's record carries the gates that every port applies now (R83). -/
def State.gateFrame (s : State) (f : Frame) : State :=
  s.setFrame { f with gates := (List.range s.nPorts).map (fun p => (s.senPos p f.arrival).gates) }

/-- An accepted frame's descriptor is formed in the two core cycles after that of its last byte and crosses to the classifier
(R23); a classifier in reset has it discarded here (R16). -/
def State.presentDescriptor (s : State) (src : Nat) (f : Frame) : State :=
  if s.sidHeld then (s.release f.id).xingDiscard islClassifier
  else (s.gateFrame f).present src islClassifier (3 * coreCycle) (.descriptor f.id)

/-- The end of a frame that another node sent: a gap follows, no carrier is left to wait for, and under PLCA the sender's
opportunity passes unless it goes on (R64, R65). -/
def State.panelHeard (s : State) (t : Nat) (more : Bool) : State :=
  let s := s.modPanel t (fun d => { d with defer := false, gapEnd := s.lt + panelGap, energy := false })
  if s.plcaActive t && !more && (s.panel t).opportunity ≠ s.fld F.PNL_PLCA.NODE_ID 0 t then s.nextOpportunity t else s

/-- A frame of good FCS asserts the wake request of R67 in STANDBY; otherwise it goes to the classifier as a frame of port
64 + t. One that the operating state bars, or that is too short, is discarded and counts in DROPS (log 68). -/
def State.panelTake (s : State) (t : Nat) (octets : List Byte) (fcsOk : Bool) : State :=
  let n := frameLen octets
  if !fcsOk then s.bump F.PNL_DROPS 0 t
  else
    let s := s.bump F.PNL_RX_FRAMES 0 t
    if panelMax < n || n < 64 || s.rxDown || s.op != .operational then s.bump F.PNL_DROPS 0 t
    else
      let (f, s) := s.newFrame (64 + t) octets .ingress 0 0 (tagsOf 0x8100 octets) s.ns
      s.presentDescriptor islPanel f

/-- PANEL_FRAME_RX: a frame that meets one the port is sending collides with it. -/
def State.panelRx (s : State) (t : Nat) (octets : List Byte) (fcsOk more : Bool) : State :=
  if s.phase ≠ .running then s
  else if s.pwr.state = .standby then
    if s.on F.PNL_CTL.WAKE 0 t && fcsOk then (s.bump F.PNL_RX_FRAMES 0 t).wakeIf 1 (some (64 + t)) else s
  else if s.panelHeld || !s.on F.PNL_CTL.ENABLE 0 t then s
  else if s.panelSending t then (s.panelCollide t).panelHeard t more
  else (s.panelHeard t more).panelTake t octets fcsOk

def execPanelFrameRx (t : Nat) (octets : List Byte) (fcsOk : Bool) (s : State) (more : Bool := false) :
    Host.Outcome State Fault Refusal :=
  atUnit (t < 8) s (s.panelRx t octets fcsOk more)

end Sys2Proof.Machine
end

