-- ==== Sys2Proof/Machine/Gates.lean ====
section
/-! DEFINITION. The commands and events of Sentences but SENTENCE_ARM: clause and admin writes, staging, aborting, swaps,
cycles, Clauses and holds (R98 to R125). -/

namespace Sys2Proof.Machine

/-! ### Writes (R100, R106, R125) -/

/-- A write to the admin side returns STAGED to EMPTY. -/
def State.unstage (s : State) (p : Nat) : State :=
  if s.adminState p = aSTAGED then s.setf F.SEN_STATUS.ADMIN_STATE aEMPTY p else s

/-- The effect of a dword write at an offset of the Sentence region. -/
def State.clauseWrite (s : State) (o : Origin4) (off data : Nat) : State :=
  let p := off / 0x1_0000
  let b := off / 0x8000 % 2
  let i := off / 8 % 4096
  if s.nPorts ≤ p then s
  else if s.fld F.SEN_STATUS.OPER_BANK p = b ∨ s.swapPending p then s.refuse o data cRULE
  else ((s.unstage p).setTab (tSen + off / 4) data).clearBad badClause (clauseBad p b i)

/-- A write to a Clause (R98, R100). -/
def execClauseWrite (off : Nat) (data : Word) (s : State) : Host.Outcome State Fault Refusal :=
  let o := atBar2 (0x1300_0000 + off)
  .next (if s.hostUp && off / 0x1_0000 < s.nPorts then s.gatedTab o data.toNat (fun t => t.clauseWrite o off data.toNat)
    else s)

/-- The admin parameters in the order of their registers. -/
def senAdmin : List Field :=
  [F.SEN_ADMIN_LEN, F.SEN_ADMIN_CYCLE, F.SEN_ADMIN_EXT, F.SEN_ADMIN_BASE_NS, F.SEN_ADMIN_BASE_SL, F.SEN_ADMIN_BASE_SH,
   F.SEN_ADMIN_RESV]
def senOper : List Field :=
  [F.SEN_OPER_LEN, F.SEN_OPER_CYCLE, F.SEN_OPER_EXT, F.SEN_OPER_BASE_NS, F.SEN_OPER_BASE_SL, F.SEN_OPER_BASE_SH,
   F.SEN_OPER_RESV]

/-- The effect of a write of SEN admin register `reg` (R106). -/
def State.senAdminWrite (s : State) (o : Origin4) (p reg data : Nat) : State :=
  match senAdmin[reg]? with
  | none => s
  | some f => if s.swapPending p then s.refuse o data cRULE else (s.unstage p).setf f data p

/-- A write of a SEN admin register (R106). -/
def execSenAdminWrite (p reg : Nat) (data : Word) (s : State) : Host.Outcome State Fault Refusal :=
  let o := atBar0 (0x10_0000 + 0x1_0000 * p + 0x1100 + 4 * reg)
  atUnit (p < s.nPorts) s
    (if s.hostUp then s.gated (0x10 + p) o data.toNat (fun t => t.senAdminWrite o p reg data.toNat) else s)

/-! ### SENTENCE_STAGE (R107) -/

/-- A Clause breaks the limits of R99, or is known to hold a parity error. -/
def State.clauseFails (s : State) (p b i : Nat) : Bool :=
  let w := s.clause p b i
  clDuration w < 8 || bitsOf w 31 14 ≠ 0 || 2 < clOp w || s.isBad badClause (clauseBad p b i)

/-- The first of `n` Clauses from `i` on that fails. -/
def State.firstFail (s : State) (p b : Nat) : (n i : Nat) → Option Nat
  | 0, _ => none
  | n + 1, i => if s.clauseFails p b i then some i else State.firstFail s p b n (i + 1)

/-- The admin Sentence passes the checks of R107 that concern no single Clause. -/
def State.adminParamsOk (s : State) (p : Nat) : Bool :=
  let len := s.fld F.SEN_ADMIN_LEN p
  let ops := (List.range len).map (fun i => clOp (s.clause p (1 - s.fld F.SEN_STATUS.OPER_BANK p) i))
  1 ≤ len && len ≤ 4096 && 1000 ≤ s.fld F.SEN_ADMIN_CYCLE p && s.fld F.SEN_ADMIN_BASE_NS p ≤ 999999999 &&
    s.fld F.SEN_ADMIN_RESV p ≤ s.rateOf p (lanesOf (s.modeWidth p)) && (!ops.contains 1 || ops.contains 2)

/-- The first Clause of a bank, of whatever index, that is known to hold a parity error. -/
def State.bankBad (s : State) (p b : Nat) : Option Nat := (List.range 4096).find? (fun i => s.isBad badClause (clauseBad p b i))

/-- SENTENCE_STAGE of port `p`, when the reading of the admin bank finds the Clauses `upsets` with a parity error: one within the
staged length that breaks R99, or one anywhere in the bank with a parity error (R125), fails it. -/
def State.stage (s : State) (p : Nat) (upsets : List Nat) : State :=
  if s.swapPending p then s.finish xWRONGSTATE 7 [s.adminState p]
  else
    let b := 1 - s.fld F.SEN_STATUS.OPER_BANK p
    let len := s.fld F.SEN_ADMIN_LEN p
    let s := (upsets.filter (· < 4096)).foldl (fun t i => t.markBad badClause (clauseBad p b i)) s
    let fail := (if len ≤ 4096 then s.firstFail p b len 0 else none).or (s.bankBad p b)
    if s.adminParamsOk p ∧ fail = none then (s.setf F.SEN_STATUS.ADMIN_STATE aSTAGED p).finishOk [aSTAGED, 0]
    else
      (s.setf F.SEN_STATUS.ADMIN_STATE aEMPTY p).finish xBADARG 7
        [aEMPTY, match fail with
          | some i => 2 ^ 31 + i
          | none => 0]

def execSentenceStage (upsets : List Nat) (s : State) : Host.Outcome State Fault Refusal :=
  .next (s.xci 0x10 (fun c t => t.stage (bitsOf (c.word 1) 5 0) upsets))

/-! ### The next deadline instants of queued mixed frames (R120) -/

/-- Every queued mixed frame, at a network or a panel port, takes `f` of what it waits for. -/
def State.mapMixDue (s : State) (f : MixDue → MixDue) : State :=
  let g := fun (c : Copy) => match c.origin with
    | .mixed n m x => { c with origin := .mixed n m (f x) }
    | _ => c
  let t := (List.range s.nPorts).foldl (fun t q =>
    t.modPort q (fun d => { d with subqs := d.subqs.map (fun kx => (kx.1, { kx.2 with q := kx.2.q.map g })) })) s
  { t with frames := t.frames.map (fun x => (x.1, { x.2 with due := x.2.due.map (fun y => (y.1, f y.2)) })) }

/-- The Sentences of port `p` have changed: every queued mixed frame whose sums have `p` as their deadline port waits for its
deadline instant as they now stand; one that has passed stays. -/
def State.refreshDue (s : State) (p : Nat) : State :=
  s.mapMixDue (fun x =>
    if x.port = p ∧ s.portNs p < x.next then { x with next := s.dueAfter x (s.portNs p) } else x)

/-- A Clause that starts at `a` may be the deadline instant that a queued mixed frame waits for, beyond what was looked ahead to when
it was queued. -/
def State.meetDue (s : State) (p a : Nat) : State :=
  s.mapMixDue (fun x => if x.port = p ∧ x.next = farFuture then { x with next := s.dueAfter x (a - 1) } else x)

/-! ### SENTENCE_ABORT (R111) -/

/-- A width change that both ends agreed under R59 or R62, which those of R53 (Reason 6) are not, has not yet reached its
instant. -/
def State.shedAgreed (s : State) (p : Nat) : Bool :=
  let d := s.port p
  (d.shedPrior.toList ++ d.shed.toList).any (fun x => x.agreed && x.reason ≠ 6 && s.portNs p < x.instant)

def State.abortSwap (s : State) (p : Nat) : State :=
  if !s.swapPending p then s.finish xWRONGSTATE 7 [s.adminState p]
  else if (s.port p).sen.change - 2000 ≤ s.portNs p then s.finish xLATE 0 [aPENDING]
  else if s.shedAgreed p then s.finish xBUSY 7 [aPENDING]
  else ((s.setf F.SEN_STATUS.ADMIN_STATE aSTAGED p).refreshDue p).finishOk [aSTAGED]

def execSentenceAbort (s : State) : Host.Outcome State Fault Refusal :=
  .next (s.xci 0x12 (fun c t => t.abortSwap (bitsOf (c.word 1) 5 0)))

/-! ### Late frames (R119, R120) -/

/-- Mixed frames whose next deadline instant has come are discarded (R120). -/
def Copy.unsentAt (t : Nat) (c : Copy) : Bool :=
  match c.origin with
  | .mixed _ _ x => x.next ≤ t
  | _ => false

def State.unsentDrop (s : State) (p : Nat) : State :=
  s.discardWhere p (Copy.unsentAt (s.portNs p)) (fun t c =>
    match c.builtBy with
    | some m => t.bump F.ENG_UNSENT_DROP m
    | none => t)

/-- Frames of DROP_LATE classes whose cycle of enqueue ended before `start` are discarded; R120 comes first. -/
def State.lateDrop (s : State) (p start : Nat) : State :=
  (s.unsentDrop p).discardWhere p
    (fun c => s.fbit F.SEN_CTL.DROP_LATE c.tc p && c.cycle.any (fun k => k < start))
    (fun t _ => t.bump F.SEN_LATE_DROP p)

/-- Every queued copy of port `p` takes `f` of its cycle of enqueue. -/
def State.mapCycles (s : State) (p : Nat) (f : Option Nat → Option Nat) : State :=
  let g := fun (c : Copy) => { c with cycle := f c.cycle }
  s.modPort p (fun d =>
    { d with due := d.due.map g, ctrl := d.ctrl.map g, subqs := d.subqs.map (fun kx => (kx.1, { kx.2 with q := kx.2.q.map g })) })

/-! ### Clauses and cycles (R101, R109, R110, R119, R125) -/

/-- The device runs on to an instant, in ns, of port `p`'s replica, and to the core cycle that follows (R19). -/
def State.runToPort (s : State) (p t : Nat) : State :=
  let s := s.runToNt ((t * 2 ^ 32 : Nat) - (s.port p).replica).toNat
  s.runToLt (ceilDiv s.lt coreCycle * coreCycle)

/-- A position at which a Clause of the operative Sentence is read with a parity error. -/
def State.faultAt (s : State) (p : Nat) (q : Pos) : Bool :=
  q.oper && q.dead && s.on F.SEN_STATUS.OPER_VALID p && q.bank = s.fld F.SEN_STATUS.OPER_BANK p

/-- A parity error is found at the first reading of the Clause in its cycle: raised and counted once a cycle, and the deadline
instants that it takes away serve no frame. -/
def State.foundFault (s : State) (p : Nat) (q : Pos) : State :=
  if s.faultAt p q && !(s.port p).sen.faulty.contains q.cycle.start then
    let t := s.modSen p (fun x => { x with faulty := (q.cycle.start :: x.faulty).take 2 })
    ((t.refreshDue p).bump F.SEN_PARITY_CLAUSE p).raise 32 (p + q.idx * 2 ^ 8)
  else s

/-- The Clauses of the operative Sentence that `[a, b]` reaches are read; of them, `upsets` are found with a parity error. -/
def State.readClauses (s : State) (p a b : Nat) (upsets : List Nat) : State :=
  let bank := s.fld F.SEN_STATUS.OPER_BANK p
  let read := ((s.ahead p a b).filter (fun q => q.oper && q.bank = bank)).map (fun q => q.idx)
  let s := (upsets.filter (fun i => read.contains i)).foldl (fun t i => t.markBad badClause (clauseBad p bank i)) s
  (s.ahead p a b).foldl (fun t q => t.foundFault p q) s

/-- The Clause in force is taken up: its gates, a parity error in it, the frames that a deadline instant discards. -/
def State.takeClause (s : State) (p : Nat) (parity : Bool) : State :=
  let now := s.portNs p
  let q := s.senPos p now
  let a := max q.start q.cycle.start
  let s := (s.modSen p (fun x => { x with clause := a })).meetDue p a
  let s := ((s.readClauses p now now (if parity then [q.idx] else [])).regate p).unsentDrop p
  (List.range 8).foldl State.panelUnsent s

/-- The swap (R110): the admin bank and parameters become operative at the change time, and the new Sentence takes the
position that R101 gives it now, which is Clause 0 but after a step (R113). Frames enqueued while
no Sentence was operative then count for the cycle in force after the swap, also where a step has put C cycles back (DESIGN
CHOICE, log 70). -/
def State.doSwap (s : State) (p : Nat) (parity : Bool) : State :=
  let c := (s.port p).sen.change
  let s := (senAdmin.zip senOper).foldl (fun t ab => t.setf ab.2 (t.fld ab.1 p) p) s
  let s := s.setf F.SEN_STATUS.OPER_BANK (1 - s.fld F.SEN_STATUS.OPER_BANK p) p
  let s := (s.setf F.SEN_STATUS.OPER_VALID 1 p).setf F.SEN_STATUS.ADMIN_STATE aEMPTY p
  let s := s.bump F.SEN_SWAPS p
  let s := (s.modSen p (fun x => { x with operC := c, faulty := [] })).refreshDue p
  let start := (s.senPos p (s.portNs p)).cycle.start
  let s := (s.lateDrop p start).mapCycles p (fun k => some (k.getD start))
  (s.modSen p (fun x => { x with cycle := start })).takeClause p parity

/-- SENTENCE_SWAP: network time reaches the change time of a pending swap; `parityError` says that the reading of the Clause
which starts finds one. -/
def execSentenceSwap (p : Nat) (s : State) (parityError : Bool := false) : Host.Outcome State Fault Refusal :=
  atUnit (p < s.nPorts) s
    (if s.swapPending p && s.phase = .running then (s.runToPort p (s.port p).sen.change).doSwap p parityError else s)

/-- The cycle that holds now is taken up: the frames that were late by its start are discarded. -/
def State.takeCycle (s : State) (p : Nat) : State :=
  let c := (s.senPos p (s.portNs p)).cycle.start
  (s.modSen p (fun x => { x with cycle := c })).lateDrop p c

/-- CYCLE_START: the next cycle of the operative Sentence starts; where the cycle ends in a swap, SENTENCE_SWAP acts. -/
def execCycleStart (p : Nat) (s : State) : Host.Outcome State Fault Refusal :=
  let k := (s.port p).sen.cycle
  let e := (s.senPos p k).cycle.stop
  atUnit (p < s.nPorts) s
    (if !s.on F.SEN_STATUS.OPER_VALID p || s.phase ≠ .running || (s.swapPending p && (s.port p).sen.change ≤ e) then s
     else (s.runToPort p e).takeCycle p)

/-- CLAUSE_BOUNDARY: the next Clause of the port's Sentence takes effect (R101, R120, R125). -/
def execClauseBoundary (p : Nat) (parityError : Bool) (s : State) : Host.Outcome State Fault Refusal :=
  let e := (s.senPos p (s.port p).sen.clause).stop
  atUnit (p < s.nPorts) s
    (if !s.on F.SEN_STATUS.OPER_VALID p || s.phase ≠ .running || (s.swapPending p && (s.port p).sen.change ≤ e) then s
     else (s.runToPort p e).takeClause p parityError)

/-! ### Holds and disabling (R112, R116, R117) -/

/-- HOLD_IN_FORCE: the next hold comes into force, HOLD_ADVANCE before its Clause, and a pre-emptable frame still in
transmission is pre-empted at its next permitted point. -/
def execHoldInForce (p : Nat) (s : State) : Host.Outcome State Fault Refusal :=
  let t := s.portNs p
  let lim := t + 2 * s.fld F.SEN_OPER_CYCLE p
  let s' := if s.holdAt p t then some s else (s.nextHold p t lim).map (fun h => s.runToPort p h)
  atUnit (p < s.nPorts) s
    (match s' with
     | none => s
     | some u =>
       if !s.on F.PRT_MM_STATUS.ACTIVE p || s.phase ≠ .running then s
       else match u.cuttable p u.lt with
         | some (y, x) => ((u.syncCredit p).cutTx p y x).bump F.SEN_HOLD_PREEMPT p
         | none => u)

/-- The effect of a write of SEN_CTL with ENABLE at 0 (R112). -/
def State.senDisable (s : State) (p dropLate : Nat) : State :=
  let s := (s.setf F.SEN_CTL.DROP_LATE dropLate p).setf F.SEN_CTL.ENABLE 0 p
  let s := if s.swapPending p then s.setf F.SEN_STATUS.ADMIN_STATE aSTAGED p else s
  (((s.setf F.SEN_STATUS.OPER_VALID 0 p).mapCycles p (fun _ => none)).refreshDue p).regate p

/-- SEN_ENABLE_CLEAR: a write of SEN_CTL with ENABLE at 0. -/
def execSenEnableClear (p dropLate : Nat) (s : State) : Host.Outcome State Fault Refusal :=
  let o := atBar0 (0x10_0000 + 0x1_0000 * p + 0x1000)
  atUnit (p < s.nPorts) s
    (if s.hostUp then s.gated (0x10 + p) o (dropLate % 256 * 256) (fun t => t.senDisable p dropLate) else s)

/-- What a step of network time does to port `p`'s Sentence (R113): a step past the end of a cycle is that end for the frames of
DROP_LATE classes (R119). -/
def State.senStep (s : State) (p : Nat) (parity : Bool) : State :=
  if s.on F.SEN_STATUS.OPER_VALID p || s.swapPending p then
    let s := (s.bump F.SEN_TIME_STEP p).refreshDue p
    if s.swapPending p && (s.port p).sen.change ≤ s.portNs p then s.doSwap p parity
    else if s.on F.SEN_STATUS.OPER_VALID p then (s.takeCycle p).takeClause p parity
    else s
  else s

end Sys2Proof.Machine
end

