-- ==== Sys2Proof/Machine/Stores.lean ====
section
/-! DEFINITION. The entries of the CXM region (R271 to R275): delay lines, video inputs, the rules on the extents of stores,
delay-line capture and output. -/

namespace Sys2Proof.Machine

/-! ### CXL addresses (R269, R277) -/

/-- A place in CXL memory: port and offset in its range. -/
structure CxlAt where
  port : Nat
  off : Nat
  deriving DecidableEq, Repr

/-- The CXL address that a 64-bit DMA address spells, when its selector is 0x1 and its unused bits are zero. -/
def cxlAt (a : Nat) : Option CxlAt :=
  if bitsOf a 63 60 = 1 ∧ bitsOf a 59 39 = 0 then some ⟨bitsOf a 38 37, bitsOf a 36 0⟩ else none

/-- A store's extent: port, first offset and length in bytes. -/
structure Extent where
  port : Nat
  off : Nat
  len : Nat
  deriving DecidableEq, Repr

def Extent.meets (a b : Extent) : Bool :=
  a.port = b.port && a.len ≠ 0 && b.len ≠ 0 && a.off < b.off + b.len && b.off < a.off + a.len

/-- Bytes of the checkpoint region (R351). -/
def ckptSize : Nat := 1052672

/-- The checkpoint region, once placed (CXM_CKPT). -/
def State.ckptExtent (s : State) : Option Extent :=
  if s.on F.CXM_CKPT.VALID then some ⟨s.fld F.CXM_CKPT.PORT, 4096 * s.fld F.CXM_CKPT.BASE, ckptSize⟩ else none

/-! ### Entries -/

/-- First dword numbers of delay line `n` and of video input `v`. -/
def lineTab (n : Nat) : Nat := tCxm + 16 * n
def videoTab (v : Nat) : Nat := tCxm + 0x1_0000 / 4 + 8 * v

/-- Bits `[hi:lo]` of dword `w` of an entry given as its dwords. -/
def entBits (e : List Nat) (w hi lo : Nat) : Nat := bitsOf (e.getD w 0) hi lo
def entBit (e : List Nat) (w b : Nat) : Bool := (e.getD w 0).testBit b
def entNum (e : List Nat) (w : Nat) : Nat := e.getD w 0 + 2 ^ 32 * e.getD (w + 1) 0

/-- The dwords of an entry of `n` dwords. -/
def State.entry (s : State) (k n : Nat) : List Nat := (List.range n).map (fun w => s.tab (k + w))

def mDELAY : Nat := 0
def mRECORD : Nat := 1
def mHOLD : Nat := 2
def mPLAY : Nat := 3

/-- Fields of a delay-line entry. -/
def lnValid (e : List Nat) : Bool := entBit e 0 31
def lnMode (e : List Nat) : Nat := entBits e 0 30 29
def lnSlot (e : List Nat) : Nat := 512 * 2 ^ entBits e 0 28 26
def lnIsh (e : List Nat) : Nat := entBits e 0 15 0
def lnEsh (e : List Nat) : Nat := entBits e 1 15 0
def lnSlots (e : List Nat) : Nat := entBits e 4 23 0
def lnDelay (e : List Nat) : Nat := entBits e 5 31 0
def lnHead (e : List Nat) : Nat := entBits e 11 23 0
def lnFilled (e : List Nat) : Nat := entBits e 12 24 0

/-- FROM and AT in ns since the epoch. -/
def lnFrom (e : List Nat) : Nat :=
  entBits e 6 31 0 + 1000000000 * (entBits e 7 31 0 + 2 ^ 32 * entBits e 10 15 0)
def lnAt (e : List Nat) : Nat :=
  entBits e 8 31 0 + 1000000000 * (entBits e 9 31 0 + 2 ^ 32 * entBits e 10 31 16)

/-- The extent of a delay line, when its BASE is a CXL address. -/
def lnExtent (e : List Nat) : Option Extent := (cxlAt (entNum e 2)).map (fun a => ⟨a.port, a.off, lnSlots e * lnSlot e⟩)

/-- Fields of a video input entry. -/
def viValid (e : List Nat) : Bool := entBit e 0 31
def vi444 (e : List Nat) : Bool := entBit e 0 30
def viRate (e : List Nat) : Nat := entBits e 0 29 26
def viHeight (e : List Nat) : Nat := entBits e 1 31 16
def viWidth (e : List Nat) : Nat := entBits e 1 15 0
def viTsOffset (e : List Nat) : Nat := entBits e 4 31 0

/-- Octets of a pgroup of two pixels (R154). -/
def pgroupOctets (full : Bool) : Nat := if full then 9 else 5

/-- STRIDE and SIZE (R273). -/
def viStride (e : List Nat) : Nat := ceilDiv (viWidth e / 2 * pgroupOctets (vi444 e)) 256 * 256
def viSize (e : List Nat) : Nat := 3 * viHeight e * viStride e
def viExtent (e : List Nat) : Option Extent := (cxlAt (entNum e 2)).map (fun a => ⟨a.port, a.off, viSize e⟩)

def State.lineEntry (s : State) (n : Nat) : List Nat := s.entry (lineTab n) 16
def State.videoEntry (s : State) (v : Nat) : List Nat := s.entry (videoTab v) 8

/-- The first dword numbers of valid delay lines and of valid video inputs, found among the listed dwords. -/
def State.validLines (s : State) : List Nat :=
  s.tabs.filterMap (fun kw =>
    if tCxm ≤ kw.1 ∧ kw.1 < tCxm + 16384 ∧ (kw.1 - tCxm) % 16 = 0 ∧ kw.2.toNat.testBit 31 then some ((kw.1 - tCxm) / 16)
    else none)
def State.validVideos (s : State) : List Nat :=
  s.tabs.filterMap (fun kw =>
    if videoTab 0 ≤ kw.1 ∧ kw.1 < videoTab 1024 ∧ (kw.1 - videoTab 0) % 8 = 0 ∧ kw.2.toNat.testBit 31 then
      some ((kw.1 - videoTab 0) / 8)
    else none)

/-- Extents of the valid stores but the entry that starts at dword number `k`. -/
def State.extentsBut (s : State) (k : Nat) : List Extent :=
  (s.validLines.filter (fun n => lineTab n ≠ k)).filterMap (fun n => lnExtent (s.lineEntry n)) ++
    (s.validVideos.filter (fun v => videoTab v ≠ k)).filterMap (fun v => viExtent (s.videoEntry v))

/-- The mirror port is closed to stores: the pair is enabled on a part with more than one CXL port (R351). -/
def State.mirrorClosed (s : State) (port : Nat) : Bool := s.pairOn && 1 < s.nCxl && port = s.mirrorPort

/-- The conditions of R271 on the extent of the entry that starts at dword number `k`. -/
def State.extentOk (s : State) (k : Nat) (x : Option Extent) : Bool :=
  match x with
  | none => false
  | some x =>
    x.off % 4096 = 0 && x.port < s.nCxl && x.off + x.len ≤ (s.cxlPort x.port).mapped && !s.mirrorClosed x.port &&
      !(s.extentsBut k).any (fun y => x.meets y) && !(s.ckptExtent.any (fun y => x.meets y))

/-! ### Writes to the CXM region (R271, R272) -/

/-- A field of a delay-line entry has a value that the layout refuses. -/
def lnRefused (e : List Nat) : Bool :=
  5 < entBits e 0 28 26 ||
    (lnValid e &&
      (lnSlots e = 0 || lnSlots e < lnFilled e || lnSlots e ≤ lnHead e ||
        (lnMode e = mDELAY && lnDelay e < 25000) ||
        (lnMode e = mPLAY && (999999999 < entBits e 6 31 0 || 999999999 < entBits e 8 31 0))))

/-- A field of a video input entry has a value that the layout refuses. -/
def viRefused (e : List Nat) : Bool :=
  7 < viRate e ||
    (viValid e && (viHeight e = 0 || 2160 < viHeight e || viWidth e < 2 || 3840 < viWidth e || viWidth e % 2 = 1))

/-- An entry with collected dwords put over it. -/
def overlay (e : List Nat) (k : Nat) (ws : List (Nat × Word)) : List Nat :=
  ws.foldl (fun e w => e.set (w.1 - k) w.2.toNat) e

/-- The state with the dwords of an entry. -/
def State.setEntry (s : State) (k : Nat) (e : List Nat) : State :=
  (List.range e.length).foldl (fun t w => t.setTab (k + w) (e.getD w 0)) s

/-- A change of mode takes effect (R275): PLAY starts from the oldest record, DELAY reads the records that it captures from
then on, and the other modes read none. -/
def State.lineMode (s : State) (n : Nat) (old new : List Nat) : State :=
  if lnValid old && lnMode old = lnMode new then s
  else
    let oldest := (lnHead new + lnSlots new - lnFilled new) % lnSlots new
    let d := s.line n
    if lnMode new = mPLAY then s.setLine n { d with next := oldest, left := lnFilled new }
    else s.setLine n { d with next := lnHead new, left := 0 }

/-- A store entry refused by R271 or by its layout. -/
def State.refuseEntry (s : State) (o : Origin4) (data cause : Nat) : State :=
  (s.bump F.CXM_ENTRY_REFUSED.REFUSED).refuse o data cause

/-- The whole entry of delay line `n` is applied. -/
def State.applyLine (s : State) (o : Origin4) (data n : Nat) (e : List Nat) : State :=
  let old := s.lineEntry n
  let moved : Bool := !lnValid old || lnExtent old ≠ lnExtent e
  if lnRefused e then s.refuseEntry o data cVALUE
  else if lnValid e && moved && !s.extentOk (lineTab n) (lnExtent e) then s.refuseEntry o data cRULE
  else
    let s := { s.setEntry (lineTab n) e with cxmCol := none }
    if lnValid e then s.lineMode n old e else s.setLine n { s.line n with left := 0 }

/-- The whole entry of video input `v` is applied: SIZE follows; a new or moved store holds no picture. -/
def State.applyVideo (s : State) (o : Origin4) (data v : Nat) (e : List Nat) : State :=
  let old := s.videoEntry v
  let moved : Bool := !viValid old || viExtent old ≠ viExtent e
  if viRefused e then s.refuseEntry o data cVALUE
  else if viValid e && moved && !s.extentOk (videoTab v) (viExtent e) then s.refuseEntry o data cRULE
  else
    let s := { s.setEntry (videoTab v) (e.set 5 (viSize e % 2 ^ 32)) with cxmCol := none }
    if moved || !viValid e then s.modMix (fun m => { m with pictures := SMap.del m.pictures v }) else s

/-- The offset is that of a read-only dword: HEAD and FILLED of a line that is not in HOLD, SIZE and NEWEST of a video input. -/
def State.cxmRoAt (s : State) (off : Nat) : Bool :=
  if off < 0x1_0000 then (off / 4 % 16 = 11 || off / 4 % 16 = 12) && lnMode (s.lineEntry (off / 64)) ≠ mHOLD
  else off / 4 % 8 = 5 || off / 4 % 8 = 6

/-- The effect of a dword write at an offset of the CXM region. -/
def State.cxmWrite (s : State) (o : Origin4) (off data : Nat) : State :=
  let d := tCxm + off / 4
  if 0x1_8000 ≤ off then s
  else
    let isLine : Bool := off < 0x1_0000
    let n := if isLine then off / 64 else (off - 0x1_0000) / 32
    let k := if isLine then lineTab n else videoTab n
    let w := d - k
    let size := if isLine then 16 else 8
    if s.cxmRoAt off then s
    else
      let old := match s.cxmCol with
        | some c => if c.entry = k then c.writes else []
        | none => []
      let ws := old ++ [(d, BitVec.ofNat 32 data)]
      if w + 1 = size then
        let e := overlay (s.entry k size) k ws
        if isLine then s.applyLine o data n e else s.applyVideo o data n e
      else { s with cxmCol := some ⟨k, ws⟩ }

/-- CXM_ENTRY_WRITE (R271, R272). -/
def execCxmEntryWrite (off : Nat) (data : Word) (s : State) : Host.Outcome State Fault Refusal :=
  let o := atBar2 (0x1342_0000 + off)
  .next (if s.hostUp && decide (off < 0x1_8000) && !s.cxmRoAt off then s.gatedTab o data.toNat (fun t => t.cxmWrite o off data.toNat) else s)

/-! ### Accesses to CXL memory (R270) -/

/-- Port `c` is MAPPED, and the range lies within it. -/
def State.cxlOk (s : State) (c off n : Nat) : Bool := c < s.nCxl && s.mapped c && off + n ≤ (s.cxlPort c).mapped

/-- A unit of 64 bytes at `b` meets a range. -/
def unitIn (off n b : Nat) : Bool := b < off + n && off < b + 64

/-- The units of a range whose reads fail (R270). -/
def State.badUnits (s : State) (c off n : Nat) : List Nat :=
  ((s.cxlPort c).poison ++ (s.cxlPort c).late).eraseDups.filter (unitIn off n)

/-- Some unit of a range fails its read. -/
def State.cxlPoisoned (s : State) (c off n : Nat) : Bool := !(s.badUnits c off n).isEmpty

/-- A read of unit `u` of port `c` returned poison (R270): CXM_READ_POISON with the port and offset. -/
def State.poisonRead (s : State) (c u : Nat) : State :=
  (s.bump F.POISON_READS 0 c).raise 59 (c + u / 128 % 2 ^ 30 * 4)

/-- A requester reads a range: each poisoned unit counts and is raised again, but for one that CXL_READ_FAIL has just reported (R270,
log 72). -/
def State.countRead (s : State) (c off n : Nat) : State :=
  let d := { s.cxlPort c with readAt := some s.lt }
  if d.poison.isEmpty && d.late.isEmpty then s.setCxl c d
  else
    (d.poison.filter (fun u => unitIn off n u && !d.late.contains u)).foldl (fun t u => t.poisonRead c u)
      (s.setCxl c { d with late := d.late.filter (fun u => !unitIn off n u) })

/-- Bytes read from CXL memory. -/
def State.cxlRead (s : State) (c off n : Nat) : List Byte := cellsRead (s.cxlPort c).mem off n

/-- Bytes written to CXL memory; a 64-byte unit that is written whole or in part is poisoned no longer. -/
def State.cxlWrite (s : State) (c off : Nat) (bs : List Byte) : State :=
  let d := s.cxlPort c
  s.setCxl c
    { d with
      mem := cellsWrite d.mem off bs
      writeAt := some s.lt
      poison := d.poison.filter (fun b => !unitIn off bs.length b)
      late := d.late.filter (fun b => !unitIn off bs.length b) }

/-! ### Delay-line records (R274) -/

/-- The bytes of a record. -/
def recordBytes (arrival : Nat) (octets : List Byte) : List Byte :=
  leBytes 4 (arrival % 1000000000) ++ leBytes 6 (arrival / 1000000000) ++ leBytes 2 octets.length ++
    List.replicate 4 0 ++ octets

/-- Bytes of captures that wait in the write buffer of CXL port `c`. -/
def State.bufferUsed (s : State) (c : Nat) : Nat :=
  s.captures.foldl (fun a x =>
    match cxlAt (entNum (s.lineEntry x.line) 2), s.frame x.fid with
    | some y, some f => if y.port = c then a + 16 + f.octets.length else a
    | _, _ => a) 0

/-- A counter dword of a store entry counts once more. -/
def State.lineCount (s : State) (n w : Nat) : State := s.bumpTab (lineTab n + w)
def State.lineDrop (s : State) (n : Nat) : State := s.lineCount n 15

/-- A frame of a line's ISH is offered to the line. -/
def State.offerLine (s : State) (n : Nat) (f : Frame) : State :=
  let e := s.lineEntry n
  match cxlAt (entNum e 2) with
  | none => s.lineDrop n
  | some a =>
    if lnSlot e - 16 < f.octets.length ∨ 2 * 1024 * 1024 < s.bufferUsed a.port + 16 + f.octets.length then s.lineDrop n
    else { s.addUse f.id 1 with captures := s.captures ++ [⟨f.id, n, f.arrival⟩] }

/-- The lines that capture stream `ish` (R274). -/
def State.linesOf (s : State) (ish : Nat) : List Nat :=
  if s.on F.CXM_CTL.ENABLE then
    s.validLines.filter (fun n =>
      let e := s.lineEntry n
      (lnMode e = mDELAY || lnMode e = mRECORD) && lnIsh e = ish)
  else []

/-- Slot HEAD of line `n` has been written: HEAD and FILLED advance, and CAPTURED counts. In DELAY mode the record is to be
read; a record that it overwrites before its own reading is dropped. -/
def State.advanceHead (s : State) (n : Nat) : State :=
  let e := s.lineEntry n
  let h := lnHead e
  let k := lineTab n
  let s := s.setTabBits k 11 23 0 ((h + 1) % lnSlots e)
  let s := (s.setTabBits k 12 24 0 (min (lnFilled e + 1) (lnSlots e))).lineCount n 13
  let d := s.line n
  if lnMode e ≠ mDELAY then s
  else if d.left = 0 then s.setLine n { d with next := h, left := 1 }
  else if d.left = lnSlots e then
    (s.lineDrop n).setLine n { d with next := (d.next + 1) % lnSlots e }
  else s.setLine n { d with left := d.left + 1 }

/-- The write of a capture of line `n` ends. -/
def State.recordWritten (s : State) (n : Nat) (ok : Bool) : State :=
  match s.captures.find? (fun c => c.line = n) with
  | none => s
  | some c =>
    let s := { s with captures := s.captures.erase c }
    let e := s.lineEntry n
    match cxlAt (entNum e 2), s.frame c.fid with
    | some a, some f =>
      let off := a.off + lnHead e * lnSlot e
      let good : Bool := ok && s.cxlOk a.port off (lnSlot e) && lnValid e
      let s := if good then (s.cxlWrite a.port off (recordBytes c.arrival f.octets)).advanceHead n else s.lineDrop n
      s.release c.fid
    | _, _ => (s.lineDrop n).release c.fid

/-- DELAY_RECORD_WRITTEN: the memory island finishes the write of a record of line `n`, or the write fails. -/
def execDelayRecordWritten (line : Nat) (ok : Bool) (s : State) : Host.Outcome State Fault Refusal :=
  .next (s.recordWritten line ok)

/-! ### Output of records (R275) -/

/-- The record in slot `j` of line `n`: arrival in ns and octets; none when its read fails. -/
def State.recordAt (s : State) (n j : Nat) : Option (Nat × List Byte) :=
  let e := s.lineEntry n
  match cxlAt (entNum e 2) with
  | none => none
  | some a =>
    let off := a.off + j * lnSlot e
    let h := s.cxlRead a.port off 16
    let len := leNum (slice h 10 2)
    if s.cxlOk a.port off (lnSlot e) && !s.cxlPoisoned a.port off (16 + len) then
      some (leNum (slice h 0 4) + 1000000000 * leNum (slice h 4 6), s.cxlRead a.port (off + 16) len)
    else none

/-- The read of the record in slot `j` of line `n`: its header, and what follows when that is good. -/
def State.countRecord (s : State) (n j : Nat) : State :=
  let e := s.lineEntry n
  match cxlAt (entNum e 2) with
  | none => s
  | some a =>
    let off := a.off + j * lnSlot e
    if !s.cxlOk a.port off (lnSlot e) then s
    else s.countRead a.port off (if s.cxlPoisoned a.port off 16 then 16 else 16 + leNum (slice (s.cxlRead a.port off 16) 10 2))

/-- When a record that arrived at `arrival` is due; none when PLAY passes over it. -/
def lnDue (e : List Nat) (arrival : Nat) : Option Nat :=
  if lnMode e = mDELAY then some (arrival + lnDelay e)
  else if lnMode e = mPLAY ∧ lnFrom e ≤ arrival then some (lnAt e + (arrival - lnFrom e))
  else none

/-- A copy that finds its port held in reset is discarded at the sender (R16, R68). -/
def State.heldDiscard (s : State) (c : Copy) : State :=
  if 64 ≤ c.port then (s.bump F.PNL_DROPS 0 (c.port - 64)).release c.fid else (s.release c.fid).xingDiscard (c.port / 4)

/-- The port of a copy is held in reset. -/
def State.copyHeld (s : State) (c : Copy) : Bool := if 64 ≤ c.port then s.panelHeld else s.portHeld c.port

/-- A copy for an egress handle goes to its port's queues or to its panel port: whether it was taken. -/
def State.offerTo (s : State) (c : Copy) : Bool × State :=
  if s.copyHeld c then (false, s.heldDiscard c)
  else if 64 ≤ c.port then s.panelOffer (c.port - 64) c
  else ((s.offerVerdict c.port c = .accept : Bool), s.offer c.port c)

/-- Cells of the DMA pool that a frame of `n` cells to port `p` finds; a panel port's frames need none. -/
def State.dmaRoom (s : State) (p n : Nat) : Bool :=
  64 ≤ p || (s.island (p / 4)).dmaUsed + n ≤ s.dmaHeld (headPort p)

/-- A frame of octets in DMA-pool cells of port `p`'s island. -/
def State.dmaFrame (s : State) (p : Nat) (octets : List Byte) : Frame × State :=
  let n := cellsOf (frameLen octets)
  if 64 ≤ p then s.newFrame p octets .mix 0 0 (tagsOf (s.tpidOf p) octets) s.ns
  else
    let d := s.island (p / 4)
    (s.setIsland (p / 4) { d with dmaUsed := d.dmaUsed + n }).newFrame p octets .dma (p / 4) n
      (tagsOf (s.tpidOf p) octets) s.ns

/-- Line `n` goes on to its next record. -/
def State.nextRecord (s : State) (n : Nat) : State :=
  let d := s.line n
  s.setLine n { d with next := (d.next + 1) % max 1 (lnSlots (s.lineEntry n)), left := d.left - 1 }

/-- PLAY that has handled its last record becomes HOLD. -/
def State.endPlay (s : State) (n : Nat) : State :=
  let d := s.line n
  if lnMode (s.lineEntry n) = mPLAY ∧ d.left = 0 ∧ d.staged = [] then s.setTabBits (lineTab n) 0 30 29 mHOLD else s

/-- Records before `due − 20 µs` that have none, because PLAY passes over them, are passed over. -/
def State.skipRecords (s : State) (n : Nat) : (fuel : Nat) → State
  | 0 => s
  | k + 1 =>
    if (s.line n).left = 0 then s
    else match s.recordAt n (s.line n).next with
      | some (t, _) => if (lnDue (s.lineEntry n) t).isNone then State.skipRecords (s.nextRecord n) n k else s
      | none => s

/-- The next record of line `n` is read, 20 µs before it is due. -/
def State.recordFetch (s : State) (n : Nat) : State :=
  let s := s.skipRecords n (s.line n).left
  if (s.line n).left = 0 ∨ ¬ lnValid (s.lineEntry n) then s.endPlay n
  else
    let e := s.lineEntry n
    match s.recordAt n (s.line n).next with
    | none => (((s.countRecord n (s.line n).next).lineDrop n).nextRecord n).endPlay n
    | some (t, o) =>
      match lnDue e t with
      | none => s
      | some due =>
        let s := s.runToNs (due - 20000)
        let p := s.eshPort (lnEsh e)
        if due < s.ns ∨ ¬ s.eshValid (lnEsh e) then ((s.lineDrop n).nextRecord n).endPlay n
        else if ¬ s.dmaRoom p (cellsOf (frameLen o)) then s
        else
          let (f, s) := (s.countRecord n (s.line n).next).dmaFrame p o
          let s := s.nextRecord n
          s.setLine n { s.line n with staged := (s.line n).staged ++ [(f.id, due)] }

/-- The lines run: CXM_CTL ENABLE, not in STANDBY and not during a warm reset or a reset of the CXM block. Records that fall due meanwhile are
overdue at the next fetch and count DROPPED (R292). -/
def State.linesRun (s : State) : Bool :=
  s.on F.CXM_CTL.ENABLE && s.phase = .running && s.pwr.state ≠ .standby && !s.cxmHeld

/-- DELAY_RECORD_FETCH. -/
def execDelayRecordFetch (line : Nat) (s : State) : Host.Outcome State Fault Refusal :=
  .next (if s.linesRun then s.recordFetch line else s)

/-- The oldest record in cells of line `n` falls due: it is enqueued at its due time, or, when that has passed,
discarded; so it is in a state that permits no delayed frames (R29). -/
def State.recordDue (s : State) (n : Nat) : State :=
  let d := s.line n
  match d.staged with
  | [] => s
  | (fid, due) :: r =>
    let s := s.setLine n { d with staged := r }
    match s.frame fid with
    | none => s
    | some f =>
      let h := lnEsh (s.lineEntry n)
      if due < s.ns then ((s.lineDrop n).release fid).endPlay n
      else
        let s := s.runToNs due
        if s.isBad rESH h then ((s.sidParity rESH h).release fid).endPlay n
        else if ¬ s.eshValid h ∨ ¬ s.dataState (s.eshPort h) then ((s.lineDrop n).release fid).endPlay n
        else
          let (c, s) := (s.countNoSeq f.rtag [h]).eshCopy h f f.rtag false (.replay n)
          let (ok, s) := s.offerTo c
          (if ok then s.lineCount n 14 else s.lineDrop n).endPlay n

/-- DELAY_RECORD_DUE. -/
def execDelayRecordDue (line : Nat) (s : State) : Host.Outcome State Fault Refusal :=
  .next (if s.phase = .running && s.pwr.state ≠ .standby && !s.cxmHeld then s.recordDue line else s)

end Sys2Proof.Machine
end

