-- ==== Sys2Proof/Machine/Streams.lean ====
section
/-! DEFINITION. The SID block: writes to its tables (R74, R87, R92), STREAM_BIND and STREAM_UNBIND (R79, R80), and what the
classifier does with a frame (R72 to R97). -/

namespace Sys2Proof.Machine

/-! ### Where an offset of the SID region lies (R74) -/

/-- An entry of a SID table: region, index, first dword number and dwords. -/
structure SidEntry where
  region : Nat
  index : Nat
  base : Nat
  size : Nat
  deriving DecidableEq, Repr

/-- The entry that an offset of the SID region belongs to; none past the regions. -/
def sidEntry (off : Nat) : Option SidEntry :=
  let mk := fun (r start dwords : Nat) =>
    let i := (off - start) / (4 * dwords)
    some (SidEntry.mk r i (tSid + start / 4 + dwords * i) dwords)
  if off < 0x0080_0000 then mk rIDENT 0 16
  else if off < 0x00A0_0000 then mk rISH 0x0080_0000 8
  else if off < 0x00C0_0000 then mk rESH 0x00A0_0000 8
  else if off < 0x00D0_0000 then mk rFANOUT 0x00C0_0000 1
  else if off < 0x0110_0000 then mk rFILTER 0x00D0_0000 16
  else if off < 0x0120_0000 then mk rMETER 0x0110_0000 16
  else if off < 0x0128_0000 then mk rGEN 0x0120_0000 4
  else if off < 0x0148_0000 then mk rRECOV 0x0128_0000 16
  else if off < 0x0188_0000 then mk rHISTORY 0x0148_0000 32
  else none

/-- The RO bits of dword `w` of an entry. -/
def sidRo (region w : Nat) : Nat :=
  if region = rFILTER ∧ w = 0 then 2 ^ 29
  else if region = rMETER ∧ w = 4 then 2 ^ 5
  else if region = rMETER ∧ (w = 5 ∨ w = 6) then 0xFFFFFFFF
  else if region = rRECOV ∧ w = 4 then 0xFFFFFFFF
  else 0

/-! ### Flow meters (R85, R87) -/

/-- Both token counts of meter `m` are refilled up to a local instant at the present rates: 125 × rate × seconds octets, in
1/1,024 octet of local time units of 1/1,600 ns. -/
def State.meterRefill (s : State) (m t : Nat) : State :=
  let k := meterTab m
  let d := s.meter m
  let dt := t - d.last
  let c := d.c + s.tab k * dt / 12500000
  let cbs := s.tab (k + 2) * 1024
  let excess := c - cbs
  let e := d.e + s.tab (k + 1) * dt / 12500000 + (if s.tabBit k 4 1 then excess else 0)
  s.setMeter m ⟨min c cbs, min e (s.tab (k + 3) * 1024), t⟩

/-- Both buckets of meter `m` are set full. -/
def State.meterFull (s : State) (m : Nat) : State :=
  s.setMeter m ⟨s.tab (meterTab m + 2) * 1024, s.tab (meterTab m + 3) * 1024, s.lt⟩

/-- The buckets of meter `m` are clipped to their sizes. -/
def State.meterClip (s : State) (m : Nat) : State :=
  let d := s.meter m
  s.setMeter m { d with c := min d.c (s.tab (meterTab m + 2) * 1024), e := min d.e (s.tab (meterTab m + 3) * 1024) }

def State.meterValid (s : State) (m : Nat) : Bool := s.tabBit (meterTab m) 4 31

/-! ### Recovery functions (R92) -/

def State.takeAny (s : State) (f : Nat) : Bool := s.tabBit (recovTab f) 4 31
def State.recovSeq (s : State) (f : Nat) : Nat := s.tabBits (recovTab f) 4 15 0

/-- TAKE_ANY is set and the reset timer stops. -/
def State.setTakeAny (s : State) (f : Nat) : State :=
  (s.setTabBits (recovTab f) 4 31 31 1).setRecov f { s.recov f with timer := none }

/-! ### Writes (R74) -/

/-- Dword `d` of an entry takes `v` but in its RO bits. -/
def State.sidPut (s : State) (e : SidEntry) (d v : Nat) : State :=
  let ro := sidRo e.region (d - e.base)
  s.setTab d ((v &&& (0xFFFFFFFF - ro)) ||| (s.tab d &&& ro))

/-- A collection writes every dword of an entry that is not RO. -/
def complete (e : SidEntry) (ws : List (Nat × Word)) : Bool :=
  (List.range e.size).all (fun w => sidRo e.region w = 0xFFFFFFFF || ws.any (fun x => x.1 = e.base + w))

/-- The whole entry is applied, with what R85, R87, R92 and R93 tie to the change. -/
def State.sidApply (s : State) (e : SidEntry) (ws : List (Nat × Word)) : State :=
  let put := fun (t : State) => ws.foldl (fun t w => t.sidPut e w.1 w.2.toNat) t
  let s := { s with sidCol := none }
  let t :=
    if e.region = rMETER then
      let was := s.meterValid e.index
      let t := put (s.meterRefill e.index s.lt)
      if !was && t.meterValid e.index then t.meterFull e.index else t.meterClip e.index
    else if e.region = rRECOV then
      let was := s.tabBit e.base 0 28
      let t := put s
      let t := if ws.any (fun w => w.1 < e.base + 4) then t.setTakeAny e.index else t
      if !was && t.tabBit e.base 0 28 then
        t.setRecov e.index { t.recov e.index with accepted := 0, discarded := 0 }
      else t
    else put s
  if complete e ws then t.clearBad e.region e.index else t

/-- A dword write to an entry that software may write is collected; the entry's highest dword applies it. -/
def State.sidCollect (s : State) (e : SidEntry) (d data : Nat) : State :=
  let old := match s.sidCol with
    | some c => if c.entry = e.base then c.writes else []
    | none => []
  let lost : Bool := s.sidCol.any (fun c => c.entry ≠ e.base)
  let s := if lost then s.bump F.SID_COLLECT_ABORT else s
  let ws := old ++ [(d, BitVec.ofNat 32 data)]
  if d + 1 = e.base + e.size then s.sidApply e ws else { s with sidCol := some ⟨e.base, ws⟩ }

/-- The effect of a dword write at an offset of the SID region: identification entries and histories take no writes (R79,
R88), a write to an RO dword is ignored. -/
def State.sidWrite (s : State) (o : Origin4) (off data : Nat) : State :=
  match sidEntry off with
  | none => s
  | some e =>
    let d := tSid + off / 4
    if e.region = rIDENT ∨ e.region = rHISTORY then s.refuse o data cRULE
    else if sidRo e.region (d - e.base) = 0xFFFFFFFF then s
    else s.sidCollect e d data

/-- The offset is that of a dword that is read only as a whole (R332). -/
def sidRoAt (off : Nat) : Bool :=
  (sidEntry off).any (fun e => sidRo e.region (tSid + off / 4 - e.base) = 0xFFFFFFFF)

/-- SID_ENTRY_WRITE (R74). -/
def execSidEntryWrite (off : Nat) (data : Word) (s : State) : Host.Outcome State Fault Refusal :=
  let o := atBar2 (0x1000_0000 + off)
  .next (if s.hostUp && (sidEntry off).isSome && !sidRoAt off then s.gatedTab o data.toNat (fun t => t.sidWrite o off data.toNat) else s)

/-! ### Latch release (R84, R86) -/

/-- BLOCKED of a filter, or MARK_RED of a meter, clears. -/
def State.clearLatch (s : State) (x : Unblock) : State :=
  if x.meter then (if x.index ≤ 16383 then s.setTabBits (meterTab x.index) 4 5 5 0 else s)
  else s.setTabBits (filterTab x.index) 0 29 29 0

/-- Some frame of core cycle `k`, or of one before, still waits to be filtered, or is still on its way to the classifier. -/
def State.unfiltered (s : State) (k : Nat) : Bool :=
  s.inbox.any (fun a => a.cycle ≤ k) || s.xing.any (fun x => x.dst = islClassifier && x.due / coreCycle ≤ k)

/-- The writes to SID_UNBLOCK whose core cycle has no frame left take effect. -/
def State.settleUnblocks (s : State) : State :=
  (s.unblocks.filter (fun x => !s.unfiltered x.cycle)).foldl State.clearLatch
    { s with unblocks := s.unblocks.filter (fun x => s.unfiltered x.cycle) }

/-- The effect of a write to SID_UNBLOCK: after every frame of its core cycle has been filtered (R84). -/
def State.unblock (s : State) (meter : Bool) (i : Nat) : State :=
  State.settleUnblocks { s with unblocks := s.unblocks ++ [⟨s.lt / coreCycle, meter, i⟩] }

def execUnblockFilter (index : Nat) (s : State) : Host.Outcome State Fault Refusal :=
  let v := index % 65536
  .next (if s.hostUp then s.gated 0x0A (atBar0 0xA0008) v (fun t => t.unblock false v) else s)

def execClearMarkRed (index : Nat) (s : State) : Host.Outcome State Fault Refusal :=
  let v := index % 65536
  .next (if s.hostUp then s.gated 0x0A (atBar0 0xA0008) (2 ^ 31 + v) (fun t => t.unblock true v) else s)

/-! ### Identification entries (R79, R80) -/

/-- An identification entry as its first 13 dwords. -/
def idValid (e : List Nat) : Bool := entBit e 0 31
def idType (e : List Nat) : Nat := entBits e 0 30 28
def idV6 (e : List Nat) : Bool := entBit e 0 27
def idPort (e : List Nat) : Nat := entBits e 0 22 16
def idIsh (e : List Nat) : Nat := entBits e 0 15 0

/-- Bytes 0 to 51 of an entry. -/
def idBytes (e : List Nat) : List Byte := (List.range 13).flatMap (fun w => leBytes 4 (e.getD w 0))

/-- Bytes 4 to 49, with the masked fields of an IP-tuple entry zero. -/
def idKey (m : IpMask) (e : List Nat) : List Byte :=
  let k := slice (idBytes e) 4 46
  if idType e = 3 then maskKey m k else k

/-- The dwords of an entry with the masked fields zero. -/
def idStored (m : IpMask) (e : List Nat) : List Nat :=
  let b := (idBytes e).take 4 ++ idKey m e ++ [0, 0]
  (List.range 13).map (fun w => leNum (slice b (4 * w) 4))

def State.identEntry (s : State) (i : Nat) : List Nat := s.entry (identTab i) 13

/-- Reserved bits and fields that the TYPE does not use are zero (detail 0x01). -/
def idReservedOk (e : List Nat) : Bool :=
  let b := idBytes e
  let zero := fun (k n : Nat) => (slice b k n).all (· = 0)
  bitsOf (e.getD 0 0) 26 23 &&& 0xF = 0 && bitsOf (e.getD 2 0) 31 28 = 0 && bitsOf (e.getD 11 0) 7 6 = 0 && zero 50 2 &&
    (if idType e ≤ 2 then !idV6 e && zero 12 38
     else if idType e = 3 then zero 4 6 && (idV6 e || (zero 16 12 && zero 32 12))
     else true)

/-- The function that issued a command is a VF (R301). -/
def Cmd.vf (c : Cmd) : Bool := 0 < c.src && c.src < 16

/-- Handle `ish` lies in the range of VF `v` (R315). -/
def State.ishOf (s : State) (v ish : Nat) : Bool := s.fld F.HIF_VF_ISH.BASE 0 v ≤ ish && ish ≤ s.fld F.HIF_VF_ISH.LIMIT 0 v

/-- The entries of a bucket. -/
def bucketEntries (b : Nat) : List Nat := (List.range 8).map (fun i => 8 * b + i)

/-- Entry `i` holds the type, port and key of `e`. -/
def State.sameKey (s : State) (i : Nat) (e : List Nat) : Bool :=
  let x := s.identEntry i
  idValid x && !s.isBad rIDENT i && idType x = idType e && idPort x = idPort e && idV6 x = idV6 e &&
    idKey s.ipMask x = idKey s.ipMask e

/-- STREAM_BIND: the checks of R79, R314 and R315, then the entry. -/
def State.bind (s : State) (c : Cmd) : State :=
  let e := (List.range 13).map (fun w => c.word (w + 1))
  let p := idPort e
  let bucket := bucketEntries (bucketOf (idType e) (idKey s.ipMask e))
  if ¬ idReservedOk e then s.finish xBADARG 1 []
  else if 3 < idType e ∨ (72 ≤ p ∧ p ≠ 0x7F) then s.finish xBADARG 2 []
  else if p < 64 ∧ s.nPorts ≤ p then s.finish xBADARG 3 []
  else if c.vf ∧ ¬ s.ishOf c.src (idIsh e) then s.finish xBADARG 4 []
  else if ¬ idValid e then s.finish xBADARG 7 []
  else if bucket.any (fun i => s.sameKey i e) then s.finish xBADARG 5 []
  else match bucket.find? (fun i => ¬ idValid (s.identEntry i) ∧ ¬ s.isBad rIDENT i) with
    | none => s.finish xNORES 7 []
    | some i => (s.setEntry (identTab i) (idStored s.ipMask e)).finishOk [i]

def execStreamBind (s : State) : Host.Outcome State Fault Refusal := .next (s.xci 0x30 (fun c t => t.bind c))

/-- STREAM_UNBIND (R79, R315). -/
def State.unbind (s : State) (c : Cmd) : State :=
  let i := bitsOf (c.word 1) 16 0
  let zero := fun (t : State) => ((t.setEntry (identTab i) (List.replicate 13 0)).clearBad rIDENT i).finishOk []
  if s.isBad rIDENT i then (if c.vf then s.finish xBADARG 4 [] else zero s)
  else if c.vf ∧ ¬ s.ishOf c.src (idIsh (s.identEntry i)) then s.finish xBADARG 4 []
  else if ¬ idValid (s.identEntry i) then s.finish xBADARG 7 []
  else zero s

def execStreamUnbind (s : State) : Host.Outcome State Fault Refusal := .next (s.xci 0x31 (fun c t => t.unbind c))

/-! ### What a frame meets (R72) -/

/-- How a function of the classifier leaves a frame. -/
inductive Met (α : Type) where
  | pass (x : α) (s : State)
  | drop (s : State)

/-- The next function applies to a frame that passed. -/
def Met.andThen {α β : Type} (m : Met α) (f : α → State → Met β) : Met β :=
  match m with
  | .pass x s => f x s
  | .drop s => .drop s

/-- The first of the entries that reads with a parity error. -/
def State.firstBad (s : State) (region : Nat) (is : List Nat) : Option Nat := is.find? (fun i => s.isBad region i)

/-- The frame goes on unless one of the entries reads with a parity error. -/
def State.checked {α : Type} (s : State) (region : Nat) (is : List Nat) (k : State → Met α) : Met α :=
  match s.firstBad region is with
  | some i => .drop (s.sidParity region i)
  | none => k s

/-! ### Identification (R75 to R80) -/

/-- A lookup: type, IPV6 bit and key. -/
def State.lookups (s : State) (f : Frame) : List (Nat × Bool × List Byte) :=
  [3, 2, 1, 0].filterMap (fun ty => (f.key s.ipMask ty).map (fun k => (ty, k.1, k.2)))

/-- An entry answers a lookup for an ingress port. -/
def State.answers (s : State) (ty : Nat) (v6 : Bool) (key : List Byte) (port i : Nat) : Bool :=
  let e := s.identEntry i
  idValid e && idType e = ty && idPort e = port && (ty ≠ 3 || idV6 e = v6) && idKey s.ipMask e = key

/-- The ISH of a frame (R77): by type, and within a type the entry of the ingress port before that of any port. -/
def State.matchIsh (s : State) (f : Frame) : Option Nat :=
  (s.lookups f).findSome? (fun l =>
    let b := bucketEntries (bucketOf l.1 l.2.2)
    ([f.port, 0x7F].findSome? (fun p => b.find? (fun i => s.answers l.1 l.2.1 l.2.2 p i))).map
      (fun i => idIsh (s.identEntry i)))

/-- The default handle of an ingress port (R78). -/
def State.defaultIsh (s : State) (port : Nat) : Option Nat :=
  if port < 64 then
    (if s.on F.SID_DEFAULT.DEFAULT_EN 0 port then some (s.fld F.SID_DEFAULT.ISH 0 port) else none)
  else
    (if s.on F.SID_DEFAULT_PNL.DEFAULT_EN 0 (port - 64) then some (s.fld F.SID_DEFAULT_PNL.ISH 0 (port - 64)) else none)

/-- Stream identification. -/
def State.identify (s : State) (f : Frame) : Met Nat :=
  s.checked rIDENT ((s.lookups f).flatMap (fun l => bucketEntries (bucketOf l.1 l.2.2))) (fun s =>
    match s.matchIsh f with
    | some h => .pass h s
    | none => match s.defaultIsh f.port with
      | some h => .pass h s
      | none => .drop (s.bump F.SID_NOMATCH_DROP))

/-! ### The ISH (R81) -/

def State.ishBit (s : State) (h b : Nat) : Bool := s.tabBit (ishTab h) 0 b

/-- An invalid handle, or one with DISCARD, discards the frame. -/
def State.useIsh (s : State) (h : Nat) : Met Nat :=
  s.checked rISH [h] (fun s =>
    if !s.ishBit h 31 || s.ishBit h 30 then .drop (s.bump F.SID_DISCARD_DROP) else .pass h s)

/-! ### Filter and meter (R83 to R86) -/

/-- A frame that a check of the filter discards counts in its dword `w`. -/
def State.filterDrop (s : State) (i w : Nat) : Met Bool := .drop (s.bumpTab (filterTab i + w))

/-- The gate of a filter was open when the frame's last byte arrived (R83 check 4); that of an absent port never is. -/
def State.filterGate (s : State) (i : Nat) (f : Frame) : Bool :=
  (f.gates.getD (s.tabBits (filterTab i) 1 22 16) 0).testBit (s.tabBits (filterTab i) 1 26 24)

/-- Colours of R85. -/
inductive Colour where
  | green
  | yellow
  | red
  deriving DecidableEq, Repr

/-- A valid meter colours a frame: the pseudocode of R85. -/
def State.colour (s : State) (m : Nat) (f : Frame) : Colour × State :=
  let k := meterTab m
  let s := s.meterRefill m s.lt
  let d := s.meter m
  let l := frameLen f.octets * 1024
  if s.tabBit k 4 5 then (.red, s)
  else if (!s.tabBit k 4 3 || !f.dei) && l ≤ d.c then (.green, s.setMeter m { d with c := d.c - l })
  else if l ≤ d.e then (.yellow, s.setMeter m { d with e := d.e - l })
  else (.red, s)

/-- What the device does on the colour (R86): whether the outgoing copies carry DEI. A meter with VALID 0 marks every frame green and
counts none of them (DESIGN CHOICE, log 70). -/
def State.meterAct (s : State) (i m : Nat) (f : Frame) : Met Bool :=
  s.checked rMETER [m] (fun s =>
    if !s.meterValid m then .pass false s
    else
      let k := meterTab m
      let (c, s) := s.colour m f
      match c with
      | .green => .pass false (s.bumpTab (k + 7))
      | .yellow =>
        let s := s.bumpTab (k + 8)
        if s.tabBit k 4 2 then s.filterDrop i 8 else .pass true s
      | .red =>
        let s := s.bumpTab (k + 9)
        (if s.tabBit k 4 4 then s.setTabBits k 4 5 5 1 else s).filterDrop i 8)

/-- The checks of R83 in their order, then the meter. -/
def State.filter (s : State) (i : Nat) (f : Frame) : Met Bool :=
  s.checked rFILTER [i] (fun s =>
    let k := filterTab i
    if !s.tabBit k 0 31 then .pass false s
    else
      let s := s.bumpTab (k + 2)
      let sdu := s.tabBits k 1 15 0
      if s.tabBit k 0 29 then s.filterDrop i 7
      else if !(s.tabBits k 0 23 16).testBit f.pcp then s.filterDrop i 4
      else if sdu ≠ 0 && sdu < frameLen f.octets then
        (if s.tabBit k 0 30 then s.setTabBits k 0 29 29 1 else s).filterDrop i 5
      else if s.tabBit k 0 28 && !s.filterGate i f then s.filterDrop i 6
      else
        let s := s.bumpTab (k + 3)
        if s.tabBit k 0 27 then s.meterAct i (s.tabBits k 0 13 0) f else .pass false s)

/-- The filter of an ISH, when it has one. -/
def State.useFilter (s : State) (h : Nat) (f : Frame) : Met Bool :=
  if s.ishBit h 29 then s.filter (s.tabBits (ishTab h) 0 15 0) f else .pass false s

/-! ### Recovery (R89 to R93) -/

/-- The history length H. -/
def State.histLen (s : State) (r : Nat) : Nat :=
  let h := s.tabBits (recovTab r) 0 10 0
  if h = 0 ∨ 1024 < h then 1024 else h

/-- The reset timer restarts on an accepted frame (R92). -/
def State.restartTimer (s : State) (r : Nat) : State :=
  let t := s.tabBits (recovTab r) 1 15 0
  s.setRecov r { s.recov r with timer := if t = 0 then none else some (s.lt + t * 10 * ltUs) }

/-- The window counts of latent error detection, which a sequence recovery function with LAT_EN keeps (R93). -/
def State.latentCount (s : State) (r : Nat) (isSeq accepted : Bool) : State :=
  if isSeq && s.tabBit (recovTab r) 0 28 then
    let d := s.recov r
    s.setRecov r (if accepted then { d with accepted := d.accepted + 1 } else { d with discarded := d.discarded + 1 })
  else s

/-- A frame with number `n` is accepted: PASSED counts, the reset timer restarts. -/
def State.accept (s : State) (r : Nat) (isSeq : Bool) : Met Unit :=
  .pass () (((s.bumpTab (recovTab r + 5)).restartTimer r).latentCount r isSeq true)

/-- A duplicate is discarded. -/
def State.duplicate (s : State) (r : Nat) (isSeq : Bool) : Met Unit :=
  .drop ((s.bumpTab (recovTab r + 6)).latentCount r isSeq false)

/-- Zero bits among bits `[lo, lo + n)` of a history. -/
def zeroBits (h lo n : Nat) : Nat := ((List.range n).filter (fun i => !h.testBit (lo + i))).length

/-- A counter dword of a recovery entry rises by `n`, saturating. -/
def State.addTab (s : State) (k n : Nat) : State := s.setTab k (min (s.tab k + n) 0xFFFFFFFF)

/-- RECOV_SEQ and the history take new values, TAKE_ANY falls. -/
def State.setSeq (s : State) (r n history : Nat) : State :=
  let s := (s.setTabBits (recovTab r) 4 15 0 n).setTabBits (recovTab r) 4 31 31 0
  s.setRecov r { s.recov r with history := history }

/-- Vector recovery of a frame numbered `n` (R90). -/
def State.vector (s : State) (r n : Nat) (isSeq : Bool) : Met Unit :=
  let h := s.histLen r
  let d := toSigned 16 (n + 65536 - s.recovSeq r)
  let hist := (s.recov r).history
  if s.takeAny r then ((s.setSeq r n (2 ^ h - 1)).clearBad rHISTORY r).accept r isSeq
  else
    if (h : Int) ≤ d ∨ d ≤ -(h : Int) then .drop (s.bumpTab (recovTab r + 9))
    else if d ≤ 0 then
      let i := (-d).toNat
      if hist.testBit i then s.duplicate r isSeq
      else
        ((s.setRecov r { s.recov r with history := withBits hist i i 1 }).bumpTab (recovTab r + 7)).accept r isSeq
    else
      let k := d.toNat
      let s := s.addTab (recovTab r + 8) (zeroBits hist (h - k) k)
      let s := s.setSeq r n ((hist * 2 ^ k + 1) % 2 ^ h)
      (if k ≠ 1 then s.bumpTab (recovTab r + 7) else s).accept r isSeq

/-- Match recovery of a frame numbered `n` (R91). -/
def State.matching (s : State) (r n : Nat) (isSeq : Bool) : Met Unit :=
  let any := s.takeAny r
  let d := (n + 65536 - s.recovSeq r) % 65536
  if any || d ≠ 0 then
    let s := s.setSeq r n (s.recov r).history
    (if !any && d ≠ 1 then s.bumpTab (recovTab r + 7) else s).accept r isSeq
  else s.duplicate r isSeq

/-- Recovery function `r` judges a frame (R89); a vector function that it reaches while TAKE_ANY is 0 reads its history (R96). -/
def State.recover (s : State) (r : Nat) (f : Frame) (isSeq : Bool) : Met Unit :=
  s.checked rRECOV [r] (fun s =>
    let vec := !s.tabBit (recovTab r) 0 30
    if !s.tabBit (recovTab r) 0 31 then .pass () s
    else s.checked rHISTORY (if vec && !s.takeAny r then [r] else []) (fun s =>
      match f.rtag with
      | none =>
        let s := s.bumpTab (recovTab r + 10)
        if s.tabBit (recovTab r) 0 29 then .pass () s else .drop s
      | some n => if vec then s.vector r n isSeq else s.matching r n isSeq))

/-- Individual recovery and sequence recovery of an ISH. -/
def State.useRecovery (s : State) (h : Nat) (f : Frame) : Met Unit :=
  (if s.ishBit h 27 then s.recover (s.tabBits (ishTab h) 1 29 15) f false else .pass () s).andThen (fun _ s =>
    if s.ishBit h 26 then s.recover (s.tabBits (ishTab h) 2 14 0) f true else .pass () s)

/-! ### Generation and numbers (R82, R88) -/

/-- The frame's number. -/
def State.useGen (s : State) (h : Nat) (f : Frame) : Met (Option Nat) :=
  if s.ishBit h 28 then
    let g := s.tabBits (ishTab h) 1 14 0
    s.checked rGEN [g] (fun s =>
      let (n, s) := s.generate g
      .pass (n.or f.rtag) s)
  else .pass f.rtag s

/-! ### Fan-out (R81) -/

/-- The fan-out indices of an ISH. -/
def State.fanOut (s : State) (h : Nat) : List Nat :=
  (List.range (min 72 (s.tabBits (ishTab h) 3 24 18))).map (fun i => s.tabBits (ishTab h) 3 17 0 + i)

/-- A fan-out entry that lies in the table and is valid. -/
def State.fanValid (s : State) (i : Nat) : Bool := i < 262144 && s.tabBit (fanTab i) 0 31
def State.fanEsh (s : State) (i : Nat) : Nat := s.tabBits (fanTab i) 0 15 0

/-- The valid handles of a fan-out, in order, and how many entries yield none. -/
def State.fanHandles (s : State) (is : List Nat) : List Nat :=
  (is.filter (fun i => s.fanValid i && s.eshValid (s.fanEsh i))).map s.fanEsh

/-- The entry at the island of egress port `p`: a panel port has its own crossing; a port held in reset has the copy discarded
here (R16, R68). -/
def State.presentCopy (s : State) (c : Copy) : State :=
  if s.copyHeld c then s.heldDiscard c
  else s.present islClassifier (if 64 ≤ c.port then islPanel else c.port / 4) (4 * coreCycle) (.copy c)

/-- A copy for each valid handle; an R-TAG insert without a number counts once for the frame (R82). -/
def State.sendCopies (s : State) (f : Frame) (seq : Option Nat) (dei : Bool) (hs : List Nat) (bad : Nat) : State :=
  let (cs, s) := s.eshCopies f seq dei .forwarded hs
  let s := (s.bump F.SID_FANOUT_DROP 0 0 bad).countNoSeq seq hs
  cs.foldl State.presentCopy (s.addUse f.id cs.length)

/-- From the descriptor's delivery to the classifier, the verdict takes 4 core cycles, the crossing back to the ingress island 3, and
that of the samples to the engine islands 3 (R14, R23; log 67), which keeps the 40 cycles of R159. -/
def unpackLt : Nat := 10 * coreCycle

/-- A surviving frame waits to be unpacked for its sum bindings (R159, R192), unless a stage parity error spoils it (R21). -/
def State.queueUnpack (s : State) (h : Nat) (f : Frame) : State :=
  let n := s.tabBits (ishTab h) 5 15 0
  if n = 0 ∨ f.parity ∨ ¬ f.unpack then s
  else (s.addUse f.id 1).modMix (fun m =>
    { m with unpack := m.unpack ++ [⟨f.id, s.tabBits (ishTab h) 4 22 0, n, f.arrival, s.lt + unpackLt⟩] })

/-- A frame that step 3 of R72 has passed is offered to the delay lines of its stream (R274), unless a stage parity error spoils it
(R21). -/
def State.offerLines (s : State) (h : Nat) (f : Frame) : State :=
  if f.parity then s else (s.linesOf h).foldl (fun t n => t.offerLine n f) s

/-- Fan-out to the egress handles and the sum bindings. -/
def State.useFan (s : State) (h : Nat) (f : Frame) (seq : Option Nat) (dei : Bool) : Met Unit :=
  let is := s.fanOut h
  s.checked rFANOUT (is.filter (· < 262144)) (fun s =>
    s.checked rESH ((is.filter s.fanValid).map s.fanEsh) (fun s =>
      let hs := s.fanHandles is
      .pass () ((s.sendCopies f seq dei hs (is.length - hs.length)).queueUnpack h f)))

/-! ### CLASSIFY -/

/-- The functions of R72 in their order. -/
def State.classifyFrame (s : State) (f : Frame) : Met Unit :=
  (s.identify f).andThen (fun h s =>
    (s.useIsh h).andThen (fun h s =>
      (s.useFilter h f).andThen (fun dei s =>
        (s.useRecovery h f).andThen (fun _ s =>
          (s.useGen h f).andThen (fun seq s => (s.offerLines h f).useFan h f seq dei)))))

/-- The state that a frame leaves behind. -/
def Met.state {α : Type} : Met α → State
  | .pass _ s => s
  | .drop s => s

/-- The oldest descriptor at the classifier is classified; those of one core cycle wait in ascending ingress port (R73). -/
def State.classifyNext (s : State) : State :=
  match s.inbox with
  | [] => s
  | x :: r =>
    let s := { s with inbox := r }
    match s.frame x.fid with
    | none => s.settleUnblocks
    | some f =>
      let s := if s.on F.SID_CTL.ENABLE then (s.classifyFrame f).state else s.bump F.SID_DISABLED_DROP
      (s.release x.fid).settleUnblocks

/-- CLASSIFY: `upsets` are the entries that the reading finds with a parity error (R96). -/
def execClassify (upsets : List Upset) (s : State) : Host.Outcome State Fault Refusal :=
  .next (if s.phase = .running then (upsets.foldl (fun t u => t.markBad u.table u.index) s).classifyNext else s)

/-! ### Timers of recovery functions (R92, R93) -/

/-- RECOVERY_RESET_TIMER. -/
def execRecoveryResetTimer (f : Nat) (s : State) : Host.Outcome State Fault Refusal :=
  .next (match (s.recov f).timer with
    | none => s
    | some t => ((s.runToLt t).setTakeAny f).bumpTab (recovTab f + 11))

/-- Function `f` is valid and runs latent error detection. -/
def State.latentRuns (s : State) (f : Nat) : Bool := s.tabBit (recovTab f) 0 31 && s.tabBit (recovTab f) 0 28

/-- The latent error test (R93). -/
def State.latentTest (s : State) (f : Nat) : State :=
  let d := s.recov f
  let paths := max 2 (s.tabBits (recovTab f) 2 19 16)
  let a := d.accepted * (paths - 1)
  let diff := if a ≤ d.discarded then d.discarded - a else a - d.discarded
  if s.tabBits (recovTab f) 2 15 0 < diff then
    ((s.setRecov f { d with latent := true }).bumpTab (recovTab f + 12)).raise 25 f
  else s.setRecov f { d with latent := false }

/-- LATENT_TEST: every LAT_TEST ms. -/
def execLatentTest (f : Nat) (s : State) : Host.Outcome State Fault Refusal :=
  .next (if s.latentRuns f && s.phase = .running then
      (s.runPeriod (max 1 (s.tabBits (recovTab f) 3 15 0) * ltMs)).latentTest f
    else s)

/-- LATENT_RESET_PERIOD: every LAT_RESET × 100 ms. -/
def execLatentResetPeriod (f : Nat) (s : State) : Host.Outcome State Fault Refusal :=
  .next (if s.latentRuns f && s.phase = .running then
      let t := s.runPeriod (max 1 (s.tabBits (recovTab f) 3 31 16) * 100 * ltMs)
      (t.setRecov f { t.recov f with accepted := 0, discarded := 0 }).bumpTab (recovTab f + 13)
    else s)

/-- Dword 4 of a recovery entry as it reads: TAKE_ANY, LATENT and RECOV_SEQ. -/
def State.recovWord4 (s : State) (f : Nat) : Nat := withBits (s.tab (recovTab f + 4)) 30 30 (s.recov f).latent.toNat

end Sys2Proof.Machine
end

