-- ==== Sys2Proof/Machine/MixTab.lean ====
section
/-! DEFINITION. The tables of the mix region (R152, R184 to R194): where entries lie, their fields, and the writes to them. -/

namespace Sys2Proof.Machine

/-! ### Where entries lie (R184) -/

/-- Table numbers of R314: sum, term, tile, cut, output group, binding, channel context. -/
def xSUM : Nat := 0
def xTERM : Nat := 1
def xTILE : Nat := 2
def xCUT : Nat := 3
def xGROUP : Nat := 4
def xBIND : Nat := 5
def xCTX : Nat := 6

/-- First dword numbers of entries, by bank and index. -/
def sumTab (b i : Nat) : Nat := 0x0400_0000 / 4 * b + 8 * i
def termTab (b i : Nat) : Nat := 0x0400_0000 / 4 * b + 0x0020_0000 / 4 + 2 * i
def tileTab (b i : Nat) : Nat := 0x0400_0000 / 4 * b + 0x0220_0000 / 4 + 8 * i
def cutTab (b i : Nat) : Nat := 0x0400_0000 / 4 * b + 0x0230_0000 / 4 + 8 * i
def groupTab (b i : Nat) : Nat := 0x0400_0000 / 4 * b + 0x0240_0000 / 4 + 64 * i
def bindTab (i : Nat) : Nat := 0x0800_0000 / 4 + 2 * i
def ctxTab (i : Nat) : Nat := 0x0880_0000 / 4 + 4 * i

/-- The code of a mix table among the tables with parity, and that of the sample stores. -/
def badMix (table : Nat) : Nat := 16 + table
def badStore : Nat := 24

/-- The index of a banked entry among the entries with a parity error. -/
def banked (b i : Nat) : Nat := 2 ^ 22 * b + i

/-- Entries of a table in each engine island (R152, R184); bindings belong to none. -/
def share (table : Nat) : Nat :=
  if table = xSUM then 4096 else if table = xTERM then 262144 else if table = xTILE then 2048
  else if table = xCUT then 1024 else if table = xGROUP then 2048 else if table = xCTX then 32768 else 0

/-- The island of an index of a table. -/
def islandOf (table i : Nat) : Nat := i / share table

/-- The entry that an offset of the mix region belongs to: table, bank, index, first dword number and dwords. -/
structure MixEntry where
  table : Nat
  bank : Nat
  index : Nat
  base : Nat
  size : Nat
  deriving DecidableEq, Repr

def mixEntry (off : Nat) : Option MixEntry :=
  let b := off / 0x0400_0000
  let x := off % 0x0400_0000
  let mk := fun (t start size : Nat) (f : Nat → Nat) =>
    let i := (x - start) / (4 * size)
    some (MixEntry.mk t b i (f i) size)
  if off < 0x0800_0000 then
    if x < 0x0020_0000 then mk xSUM 0 8 (sumTab b)
    else if x < 0x0220_0000 then mk xTERM 0x0020_0000 2 (termTab b)
    else if x < 0x0230_0000 then mk xTILE 0x0220_0000 8 (tileTab b)
    else if x < 0x0238_0000 then mk xCUT 0x0230_0000 8 (cutTab b)
    else if 0x0240_0000 ≤ x ∧ x < 0x02C0_0000 then mk xGROUP 0x0240_0000 64 (groupTab b)
    else none
  else if off < 0x0880_0000 then
    let i := (off - 0x0800_0000) / 8
    some ⟨xBIND, 0, i, bindTab i, 2⟩
  else if off < 0x0900_0000 then
    let i := (off - 0x0880_0000) / 16
    some ⟨xCTX, 0, i, ctxTab i, 4⟩
  else none

/-- The entry's engine island is absent (R184). -/
def State.mixAbsent (s : State) (e : MixEntry) : Bool := e.table ≠ xBIND && s.nIslands ≤ islandOf e.table e.index

/-! ### Sum entries -/

def smValid (e : List Nat) : Bool := entBit e 0 31
def smKind (e : List Nat) : Nat := entBits e 0 30 29
def smPin (e : List Nat) : Bool := entBit e 0 28
def smEngine (e : List Nat) : Nat := entBits e 0 27 23
def smBlack (e : List Nat) : Bool := entBit e 0 22
def smPeriodCode (e : List Nat) : Nat := entBits e 0 21 20
def smPeriod (e : List Nat) : Nat := 125000 * 2 ^ smPeriodCode e
def smPhase (e : List Nat) : Nat := entBits e 0 19 0
def smFirst (e : List Nat) : Nat := entBits e 1 21 0
def smCount (e : List Nat) : Nat := entBits e 2 16 0
def smGroup (e : List Nat) : Nat := entBits e 3 29 15
def smChannel (e : List Nat) : Nat := entBits e 3 5 0
def smParent (e : List Nat) : Nat := entBits e 4 31 16
def smParentTerm (e : List Nat) : Nat := entBits e 4 15 0
def smDelay (e : List Nat) : Nat := entBits e 5 15 0
def kAUDIO : Nat := 0
def kMINUS : Nat := 1
def kVIDEO : Nat := 2

/-! ### Term entries -/

def tmValid (e : List Nat) : Bool := entBit e 0 31
def tmCtx (e : List Nat) : Nat := entBits e 0 18 0
def tmGain (e : List Nat) : Int := toSigned 24 (entBits e 1 23 0)

/-! ### Output group entries -/

def gpValid (e : List Nat) : Bool := entBit e 0 31
def gpVideo (e : List Nat) : Bool := entBit e 0 30
def gpFormat (e : List Nat) : Nat := entBits e 0 29 27
def gpRate (e : List Nat) : Nat := entBits e 0 26 26
def gpChannels (e : List Nat) : Nat := if entBits e 0 25 20 = 0 then 64 else entBits e 0 25 20
def gpEshCount (e : List Nat) : Nat := entBits e 0 19 16
def gpGenEn (e : List Nat) : Bool := entBit e 0 15
def gpGen (e : List Nat) : Nat := entBits e 0 14 0
def gpSeqOffset (e : List Nat) : Nat := entBits e 1 31 16
def gpPgroups (e : List Nat) : Nat := entBits e 1 15 0
def gpTsOffset (e : List Nat) : Nat := entBits e 2 31 0
def gpHeight (e : List Nat) : Nat := entBits e 3 31 16
def gpWidth (e : List Nat) : Nat := entBits e 3 15 0
def gpPicRate (e : List Nat) : Nat := entBits e 4 3 0
def gpEsh (e : List Nat) (k : Nat) : Nat := entBits e (5 + k / 2) (if k % 2 = 1 then 31 else 15) (if k % 2 = 1 then 16 else 0)
def gpEshs (e : List Nat) : List Nat := (List.range (gpEshCount e)).map (gpEsh e)
def gpFull (e : List Nat) : Bool := gpFormat e = 5

/-- The 128 octets of the template, and its header. -/
def gpTemplateArea (e : List Nat) : List Byte := (List.range 32).flatMap (fun w => leBytes 4 (e.getD (32 + w) 0))
def gpHeaderLen (e : List Nat) : Nat := if oct2 (gpTemplateArea e) 12 = 0x86DD then 74 else 54
def gpTemplate (e : List Nat) : List Byte := (gpTemplateArea e).take (gpHeaderLen e)

/-- Sample rate of a RATE code. -/
def fsOf (rate : Nat) : Nat := if rate = 0 then 48000 else 96000

/-- Sample periods in a period of `p` ns, and m(t) of R157 for `t` in ns. -/
def samplesIn (p rate : Nat) : Nat := p * fsOf rate / 1000000000
def mediaAt (t rate : Nat) : Nat := t * fsOf rate / 1000000000

/-- Octets of one sample in a frame. -/
def sampleOctets (format : Nat) : Nat := if format = 0 then 2 else if format = 1 then 3 else 4

/-- The picture period as a fraction (numerator and denominator in ns) by code. -/
def picPeriod (code : Nat) : Nat × Nat :=
  match code with
  | 0 => (1000000000, 24)
  | 1 => (1000000000, 25)
  | 2 => (1000000000, 30)
  | 3 => (1000000000, 50)
  | 4 => (1000000000, 60)
  | 5 => (1001000000, 24)
  | 6 => (1001000000, 30)
  | _ => (1001000000, 60)

/-! ### Channel contexts and bindings -/

def cxValid (e : List Nat) : Bool := entBit e 0 31
def cxBus (e : List Nat) : Bool := entBit e 0 30
def cxRingJ (e : List Nat) : Nat := entBits e 0 29 28
def cxRing (e : List Nat) : Nat := 64 * 2 ^ cxRingJ e
def cxFormat (e : List Nat) : Nat := entBits e 0 27 26
def cxRate (e : List Nat) : Nat := entBits e 0 25 25
def cxChannels (e : List Nat) : Nat := if entBits e 0 21 16 = 0 then 64 else entBits e 0 21 16
def cxTsOffset (e : List Nat) : Nat := entBits e 1 31 0
def cxBusChannel (e : List Nat) : Nat := entBits e 2 9 0

def bdValid (e : List Nat) : Bool := entBit e 0 31
def bdVideo (e : List Nat) : Bool := entBit e 0 30
def bdChannel (e : List Nat) : Nat := entBits e 0 24 19
def bdTarget (e : List Nat) : Nat := entBits e 0 18 0

/-! ### Tiles and cuts -/

def tlValid (e : List Nat) : Bool := entBit e 0 31
def tlPin (e : List Nat) : Bool := entBit e 0 30
def tlEngine (e : List Nat) : Nat := entBits e 0 29 25
def tlDh (e : List Nat) : Nat := entBits e 0 24 23 + 1
def tlDv (e : List Nat) : Nat := entBits e 0 22 21 + 1
def tlCutEn (e : List Nat) : Bool := entBit e 0 20
def tlCut (e : List Nat) : Nat := entBits e 0 13 0
def tlGain (e : List Nat) : Int := toSigned 24 (entBits e 1 23 0)
def tlSource (e : List Nat) : Nat := entBits e 2 9 0
def tlY (e : List Nat) : Nat := entBits e 3 31 16
def tlX (e : List Nat) : Nat := entBits e 3 15 0
def tlH (e : List Nat) : Nat := entBits e 4 31 16
def tlW (e : List Nat) : Nat := entBits e 4 15 0
def tlYout (e : List Nat) : Nat := entBits e 5 31 16
def tlXout (e : List Nat) : Nat := entBits e 5 15 0
def tlHout (e : List Nat) : Nat := tlH e / tlDv e
def tlWout (e : List Nat) : Nat := tlW e / tlDh e

def ctValid (e : List Nat) : Bool := entBit e 0 31
def ctSource (e : List Nat) : Nat := entBits e 0 25 16
def ctDissolve (e : List Nat) : Nat := entBits e 0 7 0
def ctTime (e : List Nat) : Nat := entBits e 1 29 0 + 1000000000 * (entBits e 2 31 0 + 2 ^ 32 * entBits e 3 15 0)

/-! ### Reading entries -/

def State.sum (s : State) (b i : Nat) : List Nat := s.entry (sumTab b i) 8
def State.term (s : State) (b i : Nat) : List Nat := s.entry (termTab b i) 2
def State.tile (s : State) (b i : Nat) : List Nat := s.entry (tileTab b i) 8
def State.cut (s : State) (b i : Nat) : List Nat := s.entry (cutTab b i) 8
def State.group (s : State) (b i : Nat) : List Nat := s.entry (groupTab b i) 64
def State.binding (s : State) (i : Nat) : List Nat := s.entry (bindTab i) 2
def State.ctx (s : State) (i : Nat) : List Nat := s.entry (ctxTab i) 4

/-- Indices of the entries, among `n` of `size` dwords from dword number `k`, of which some dword is listed. -/
def State.listedIn (s : State) (k size n : Nat) : List Nat :=
  (s.tabs.filterMap (fun kw => if k ≤ kw.1 ∧ kw.1 < k + size * n then some ((kw.1 - k) / size) else none)).eraseDups

/-- The valid sums of a bank, in ascending index. -/
def State.validSums (s : State) (b : Nat) : List Nat :=
  (s.listedIn (sumTab b 0) 8 65536).filter (fun i => smValid (s.sum b i))

/-- The bank of R185. -/
def State.operBank (s : State) : Nat := s.fld F.MIX_STATUS.OPER_BANK

/-- The previous bank drains (R199). -/
def State.draining (s : State) : Bool := s.mix.drainEnd.any (fun d => s.ns < d)

/-- The terms of a sum, as entries, and its tiles as indices. -/
def State.sumTerms (s : State) (b : Nat) (e : List Nat) : List (List Nat) :=
  (List.range (smCount e)).map (fun j => s.term b (smFirst e + j))
def sumTiles (e : List Nat) : List Nat := (List.range (smCount e)).map (fun j => smFirst e + j)

/-- The contexts that a bank reads: through the valid terms of its valid sums (R193). -/
def State.ctxsOf (s : State) (b : Nat) : List Nat :=
  ((s.validSums b).flatMap (fun i =>
    let e := s.sum b i
    if smKind e = kVIDEO then [] else ((s.sumTerms b e).filter tmValid).map tmCtx)).eraseDups

/-- The tiles that a bank's video sums use. -/
def State.tilesOf (s : State) (b : Nat) : List Nat :=
  (s.validSums b).flatMap (fun i => let e := s.sum b i; if smKind e = kVIDEO then sumTiles e else [])

/-- A context is allocated. -/
def State.allocated (s : State) (c : Nat) : Bool := (SMap.look s.mix.ctxs c).isSome

/-- The dissolve of a tile's cut; none where no cut applies. -/
def State.tileDissolve (s : State) (b : Nat) (e : List Nat) : Option Nat :=
  if tlCutEn e then some (ctDissolve (s.cut b (tlCut e))) else none

/-! ### Gated engine islands (R17) -/

/-- The operative bank, once a bank has been activated. -/
def State.banksInUse (s : State) : List Nat := if s.mix.activated then [s.operBank] else []

/-- The banks that hold committed sums: operative, pending, and draining. -/
def State.heldBanks (s : State) : List Nat :=
  s.banksInUse ++ s.mix.pending.toList.map (fun x => x.bank) ++ (if s.draining then [1 - s.operBank] else [])

/-- Engine island `m` is clock-gated: it holds no committed sum (R17). -/
def State.islandGated (s : State) (m : Nat) : Bool :=
  !s.heldBanks.any (fun b => (s.validSums b).any (fun i => islandOf xSUM i = m))

/-- A crossing that reaches engine island `m` off the mix path: a gated one is ungated first, which takes 16 cycles (R17). -/
def State.reachEngine (s : State) (m : Nat) : State := if s.islandGated m then s.run (16 * coreCycle) else s

/-- An access at an offset of the mix region reaches the engine island that holds the entry; the bindings are the unpacker's, which
every island has. -/
def State.reachMix (s : State) (off : Nat) : State :=
  match mixEntry off with
  | some e => if e.table = xBIND ∨ s.mixAbsent e then s else s.reachEngine (islandOf e.table e.index)
  | none => s

/-! ### Writes (R185, R186, R193) -/

/-- The dword is read only. -/
def mixRo (e : MixEntry) (w : Nat) : Bool :=
  (e.table = xSUM && w = 6) || (e.table = xTILE && w = 6) || (e.table = xCUT && w = 4) || (e.table = xCTX && w = 3)

/-- The offset is that of a read-only dword: a write there is discarded without capture (R332). -/
def mixRoAt (off : Nat) : Bool := (mixEntry off).any (fun e => mixRo e (off / 4 - e.base))

/-- MIX_COMMIT is in execution: its checks have begun, and their outcome has not come (R185). -/
def State.commitChecks (s : State) : Bool := (s.curOp 0x20).any (fun c => c.word 1 % 2 = 0)

/-- A write to a banked entry. -/
def State.bankWrite (s : State) (o : Origin4) (e : MixEntry) (w data : Nat) : State :=
  if mixRo e w then s
  else if e.bank = s.operBank ∨ s.mix.pending.isSome ∨ s.draining ∨ s.commitChecks then s.refuse o data cRULE
  else { (s.setTab (e.base + w) data).clearBad (badMix e.table) (banked e.bank e.index) with mixCol := none }

/-- A write to a live entry: it is collected, and the highest writable dword applies the whole entry. -/
def State.liveWrite (s : State) (o : Origin4) (e : MixEntry) (w data : Nat) : State :=
  if mixRo e w then s
  else if e.table = xCTX ∧ s.allocated e.index ∧ ¬ s.isBad (badMix xCTX) e.index then s.refuse o data cRULE
  else
    let old := match s.mixCol with
      | some c => if c.entry = e.base then c.writes else []
      | none => []
    let ws := old ++ [(e.base + w, BitVec.ofNat 32 data)]
    let last := if e.table = xCTX then 2 else 1
    if w = last then
      let t := { ws.foldl (fun (t : State) x => t.setTab x.1 x.2.toNat) s with mixCol := none }
      if (List.range (last + 1)).all (fun j => ws.any (fun x => x.1 = e.base + j)) then t.clearBad (badMix e.table) e.index
      else t
    else { s with mixCol := some ⟨e.base, ws⟩ }

/-- An offset of the mix region at which an entry of this part lies (R6, R326). -/
def State.mixUsed (s : State) (off : Nat) : Bool := (mixEntry off).any (fun e => !s.mixAbsent e)

/-- The effect of a dword write at an offset of the mix region. -/
def State.mixWrite (s : State) (o : Origin4) (off data : Nat) : State :=
  match mixEntry off with
  | none => s
  | some e =>
    if s.mixAbsent e then s
    else
      let w := off / 4 - e.base
      if e.table = xBIND ∨ e.table = xCTX then s.liveWrite o e w data else s.bankWrite o e w data

/-- MIX_BANK_WRITE (R185). -/
def execMixBankWrite (off : Nat) (data : Word) (s : State) : Host.Outcome State Fault Refusal :=
  let o := atBar2 off
  .next (if s.hostUp && s.mixUsed off && !mixRoAt off then
      s.gatedTab o data.toNat (fun t => (t.reachMix off).mixWrite o off data.toNat)
    else s)

/-- MIX_LIVE_ENTRY_WRITE (R186, R193). -/
def execMixLiveEntryWrite (off : Nat) (data : Word) (s : State) : Host.Outcome State Fault Refusal :=
  let o := atBar2 off
  .next (if s.hostUp && s.mixUsed off && !mixRoAt off then
      s.gatedTab o data.toNat (fun t => (t.reachMix off).mixWrite o off data.toNat)
    else s)

/-! ### Frames that a group builds (R177, R189 to R191) -/

/-- Packets per row of a video group. -/
def gpPerRow (e : List Nat) : Nat := ceilDiv (gpWidth e / 2) (gpPgroups e)

/-- The octets after the RTP header in the largest frame of a group whose period is `p` ns. -/
def gpPayload (e : List Nat) (p : Nat) : Nat :=
  if gpVideo e then 8 + min (gpPgroups e) (gpWidth e / 2) * pgroupOctets (gpFull e)
  else gpChannels e * samplesIn p (gpRate e) * sampleOctets (gpFormat e)

/-- The length, FCS counted, of the group's largest frame as it leaves by handle `h` after the tag edits (R47). -/
def State.gpLen (s : State) (e : List Nat) (p h : Nat) : Nat :=
  let o := gpTemplate e ++ List.replicate (gpPayload e p) 0#8
  let f : Frame := ⟨0, s.eshPort h, o, .mix, 0, 0, 0, false, 0, none, 1, false, false, none, [], none⟩
  (s.eshCopy h f (if gpGenEn e then some 0 else none) false .forwarded).1.len

/-- The largest number of rows that a window of `p` ns can hold (R161, R167): a row every T_pic / HEIGHT. -/
def gpRows (e : List Nat) (p : Nat) : Nat :=
  let t := picPeriod (gpPicRate e)
  ceilDiv (p * t.2 * gpHeight e) t.1

/-- Frames of a group in a window, at most. -/
def gpFrames (e : List Nat) (p : Nat) : Nat := if gpVideo e then gpRows e p * gpPerRow e else 1

/-- Cells that a group reserves for handle `h` (R139, R191). -/
def State.gpCells (s : State) (e : List Nat) (p h : Nat) : Nat := 2 * gpFrames e p * cellsOf (s.gpLen e p h)

/-! ### Work (R153, R172) -/

/-- L of R172 in ns, and the length of the allotment. -/
def batchLatency (blocks : Nat) : Nat := 800 + 400 * ceilDiv blocks 1024
def allotment (blocks : Nat) : Nat := 400 * ceilDiv blocks 1024

/-- Blocks of an audio sum of `n` terms with `samples` per channel. -/
def audioBlocks (n samples : Nat) : Nat := n * ceilDiv samples 8

/-- Components per pixel of a format. -/
def compsOf (full : Bool) : Nat := if full then 3 else 2

/-- Blocks of a tile of a group whose period is `p`: the largest number of rows, doubled with a dissolve (R194). -/
def State.tileBlocks (s : State) (b : Nat) (t g : List Nat) (p : Nat) : Nat :=
  let rows := min (gpRows g p) (tlHout t)
  let n := rows * ceilDiv (tlWout t * compsOf (gpFull g)) 8 * tlDh t * tlDv t
  if (s.tileDissolve b t).any (fun d => 0 < d) then 2 * n else n

/-- Store blocks of a tile's buffer (R161, R194): twice with a cut. -/
def State.tileStore (_s : State) (_b : Nat) (t g : List Nat) (p : Nat) : Nat :=
  let n := 2 * (tlDv t * gpRows g p) * ceilDiv (tlW t * compsOf (gpFull g) * 2) 256
  if tlCutEn t then 2 * n else n

/-- Blocks that a sum itself adds to its engine's batch. -/
def State.sumBlocks (s : State) (b : Nat) (e : List Nat) : Nat :=
  let g := s.group b (smGroup e)
  let n := samplesIn (smPeriod e) (gpRate g)
  if smKind e = kVIDEO then 0
  else if smKind e = kMINUS then audioBlocks (smCount e + 1) n
  else audioBlocks (smCount e) n

/-! ### Windows and deadline instants (R170) -/

/-- The deadline port of a sum. -/
def State.deadlinePort (s : State) (b : Nat) (e : List Nat) : Nat := s.eshPort (gpEsh (s.group b (smGroup e)) 0)

end Sys2Proof.Machine
end

