-- ==== Sys2Proof/Machine/MixCommit.lean ====
section
/-! DEFINITION. Committing a mix bank (R141, R152 to R154, R156, R161, R164, R166, R171, R178, R185 to R201): the checks in
R196's order, placement, activation, drain and withdrawal. -/

namespace Sys2Proof.Machine

/-- Ascending insertion. -/
def insertNat (n : Nat) : List Nat → List Nat
  | [] => [n]
  | x :: r => if n ≤ x then n :: x :: r else x :: insertNat n r

def sortNat (l : List Nat) : List Nat := l.foldr insertNat []

/-- A refused commit: reason code, table, island and index of the failing entry (R196). -/
structure Bad where
  reason : Nat
  table : Nat
  island : Nat
  index : Nat
  deriving DecidableEq, Repr

/-! ### Pass 1: each entry's own fields -/

/-- A sum's own fields; PARENT_TERM has to be 0, as PARENT has, in a sum that is not MINUS_ONE (DESIGN CHOICE, log 73). -/
def sumOwn (e : List Nat) : Option Nat :=
  let k := smKind e
  if entBits e 1 31 22 ≠ 0 ∨ entBits e 2 31 17 ≠ 0 ∨ entBits e 3 31 30 ≠ 0 ∨ entBits e 3 14 6 ≠ 0 ∨ entBits e 5 31 16 ≠ 0 ∨
      entBits e 7 31 0 ≠ 0 then some 1
  else if ¬ smValid e then none
  else if k = 3 ∨ smPeriod e ≤ smPhase e ∨ (k ≠ kMINUS ∧ e.getD 4 0 ≠ 0) then some 1
  else if k = kVIDEO then
    (if smCount e = 0 ∨ 2048 < smCount e ∨ smChannel e ≠ 0 ∨ smDelay e ≠ 0 then some 1 else none)
  else if smPeriodCode e = 2 ∨ smBlack e ∨ 65536 < smCount e then some 1
  else none

def termOwn (e : List Nat) : Option Nat :=
  if tmValid e ∧ (entBits e 0 30 19 ≠ 0 ∨ entBits e 1 31 24 ≠ 0) then some 1 else none

def tileOwn (e : List Nat) : Option Nat :=
  if entBits e 0 19 14 ≠ 0 ∨ entBits e 1 31 24 ≠ 0 ∨ entBits e 2 31 10 ≠ 0 ∨ entBits e 7 31 0 ≠ 0 then some 1 else none

def cutOwn (e : List Nat) : Option Nat :=
  if entBits e 0 30 26 ≠ 0 ∨ entBits e 0 15 8 ≠ 0 ∨ entBits e 1 31 30 ≠ 0 ∨ entBits e 3 31 16 ≠ 0 ∨ e.getD 5 0 ≠ 0 ∨
      e.getD 6 0 ≠ 0 ∨ e.getD 7 0 ≠ 0 then some 1
  else if ctValid e ∧ 999999999 < entBits e 1 29 0 then some 1
  else none

def groupOwn (e : List Nat) : Option Nat :=
  if entBits e 4 31 4 ≠ 0 ∨ (List.range 23).any (fun j => e.getD (9 + j) 0 ≠ 0) then some 1
  else if ¬ gpValid e then none
  else if 5 < gpFormat e ∨ ((gpVideo e : Bool) ≠ (4 ≤ gpFormat e : Bool)) then some 3
  else if gpEshCount e = 0 ∨ 8 < gpEshCount e ∨ 7 < gpPicRate e then some 1
  else if gpVideo e then
    (if entBits e 0 25 20 ≠ 0 ∨ gpPgroups e = 0 ∨ gpHeight e = 0 ∨ gpWidth e = 0 ∨ gpWidth e % 2 = 1 then
        some 1
      else if 3840 < gpWidth e ∨ 2160 < gpHeight e then some 3 else none)
  else if gpPgroups e ≠ 0 then some 1
  else none

def bindOwn (e : List Nat) : Option Nat := if entBits e 0 29 25 ≠ 0 ∨ e.getD 1 0 ≠ 0 then some 1 else none

def ctxOwn (e : List Nat) : Option Nat :=
  if entBits e 0 24 22 ≠ 0 ∨ entBits e 0 15 0 ≠ 0 ∨ entBits e 2 31 10 ≠ 0 then some 1 else none

/-- The first entry of a table, among ascending indices, whose own fields fail. -/
def firstOwn (table m : Nat) (is : List Nat) (own : Nat → Option Nat) : Option Bad :=
  is.findSome? (fun i => (own i).map (fun r => ⟨r, table, m, i⟩))

/-- Listed indices of a banked table that belong to island `m`. -/
def State.listedOf (s : State) (table m k size : Nat) : List Nat :=
  (s.listedIn (k + size * (share table * m)) size (share table)).map (fun i => share table * m + i)

/-- The valid bindings. -/
def State.bindings (s : State) : List Nat :=
  (s.listedIn (bindTab 0) 2 1048576).filter (fun i => bdValid (s.binding i))

/-- The video inputs that a tile of a bank reads. -/
def State.tileInputs (s : State) (b t : Nat) : List Nat :=
  let e := s.tile b t
  tlSource e :: (if tlCutEn e then [ctSource (s.cut b (tlCut e))] else [])

/-- The bindings to the contexts and video inputs that island `m` reads for a bank. -/
def State.bindingsOf (s : State) (b m : Nat) : List Nat :=
  let cs := (s.ctxsOf b).filter (fun c => islandOf xCTX c = m)
  let vs := ((s.tilesOf b).filter (fun t => islandOf xTILE t = m)).flatMap (s.tileInputs b)
  s.bindings.filter (fun i =>
    let e := s.binding i
    if bdVideo e then vs.contains (bdTarget e) else cs.contains (bdTarget e))

def State.passOwn (s : State) (b m : Nat) : Option Bad :=
  (firstOwn xSUM m (s.listedOf xSUM m (sumTab b 0) 8) (fun i => sumOwn (s.sum b i))).or
    ((firstOwn xTERM m (s.listedOf xTERM m (termTab b 0) 2) (fun i => termOwn (s.term b i))).or
      ((firstOwn xTILE m (s.listedOf xTILE m (tileTab b 0) 8) (fun i => tileOwn (s.tile b i))).or
        ((firstOwn xCUT m (s.listedOf xCUT m (cutTab b 0) 8) (fun i => cutOwn (s.cut b i))).or
          ((firstOwn xGROUP m (s.listedOf xGROUP m (groupTab b 0) 64) (fun i => groupOwn (s.group b i))).or
            ((firstOwn xBIND m (s.bindingsOf b m) (fun i => bindOwn (s.binding i))).or
              (firstOwn xCTX m (sortNat ((s.ctxsOf b).filter (fun c => islandOf xCTX c = m)))
                (fun i => ctxOwn (s.ctx i))))))))

/-! ### Pass 2: the rules that relate entries -/

/-- Deadline offsets of a Sentence within its cycle, truncation applied: from Clause `i` at offset `d`. -/
def State.deadlineOffs (s : State) (p b cycle : Nat) : (n i d : Nat) → List Nat
  | 0, _, _ => []
  | n + 1, i, d =>
    if cycle ≤ d then []
    else
      let w := s.clause p b i
      (if clDeadline w then [d] else []) ++ State.deadlineOffs s p b cycle n (i + 1) (d + clDuration w)

/-- The rule of R171 for windows of `period` and `phase` under a Sentence of port `p`. -/
def State.windowsServed (s : State) (p period phase : Nat) (x : Sent) : Bool :=
  let offs := s.deadlineOffs p x.bank x.cycle x.len 0 0
  let first := (phase + period - x.at' % period) % period
  x.cycle % period = 0 &&
    (List.range (x.cycle / period)).all (fun j =>
      let a := first + j * period
      offs.any (fun d => (a ≤ d && d < a + period) || (a ≤ d + x.cycle && d + x.cycle < a + period)))

/-- The deadline rule of a sum on port `p` (R196): under the operative Sentence and a pending one; some Sentence exists. -/
def State.deadlineRule (s : State) (p period phase : Nat) : Bool :=
  let oper := s.on F.SEN_STATUS.OPER_VALID p
  let adm := s.swapPending p
  (oper || adm) && (!oper || s.windowsServed p period phase (s.operSent p)) &&
    (!adm || s.windowsServed p period phase (s.adminSent p))

/-- A group's header template has the form of R189. -/
def templateOk (e : List Nat) : Bool :=
  let a := gpTemplateArea e
  let v6 : Bool := oct2 a 12 = 0x86DD
  let rtp := if v6 then 62 else 42
  (v6 || oct2 a 12 = 0x0800) && (if v6 then oct a 14 / 16 = 6 && oct a 20 = 17 else oct a 14 = 0x45 && oct a 23 = 17) &&
    oct a rtp &&& 0xDF = 0x80 && (a.drop (gpHeaderLen e)).all (· = 0)

/-- A frame of the group fits its egress port by handle `h`. -/
def State.gpFits (s : State) (e : List Nat) (p h : Nat) : Bool :=
  if s.eshPort h < 64 then s.gpLen e p h ≤ s.fld F.PRT_MAXLEN.MAXLEN (s.eshPort h) else s.gpLen e p h ≤ 1522

/-- The valid sums of a bank that name group `g`. -/
def State.groupSums (s : State) (b g : Nat) : List Nat := (s.validSums b).filter (fun i => smGroup (s.sum b i) = g)

/-- The group rules that concern the group alone. -/
def State.groupOk (s : State) (b g : Nat) : Bool :=
  let e := s.group b g
  let ms := (s.groupSums b g).map (s.sum b)
  let p := (ms.head?.map smPeriod).getD 125000
  templateOk e && (gpEshs e).all s.eshValid && s.eshPort (gpEsh e 0) < 64 && (gpEshs e).all (s.gpFits e p) &&
    (if gpVideo e then ms.length ≤ 1 else sortNat (ms.map smChannel) = List.range (gpChannels e))

/-- The group rules of a sum: it agrees with every other sum of its group. -/
def State.groupRule (s : State) (b i : Nat) : Bool :=
  let e := s.sum b i
  let g := smGroup e
  s.groupOk b g && ((gpVideo (s.group b g) : Bool) = (smKind e = kVIDEO : Bool)) &&
    (s.groupSums b g).all (fun j =>
      let x := s.sum b j
      smPeriod x = smPeriod e && smPhase x = smPhase e && islandOf xSUM j = islandOf xSUM i)

/-- Another valid sum of the bank uses some of the sum's terms or tiles. -/
def State.sharesTerms (s : State) (b i : Nat) : Bool :=
  let e := s.sum b i
  (s.validSums b).any (fun j =>
    let x := s.sum b j
    j ≠ i && ((smKind x = kVIDEO : Bool) = (smKind e = kVIDEO : Bool)) &&
      overlap (smFirst e) (smCount e) (smFirst x) (smCount x))

/-- Why a sum of island `m` may not name index `i` of a table: an absent island (R6), or one that is not its own (R152). -/
def State.ownIsland (s : State) (table m i : Nat) : Option Nat :=
  if s.nIslands ≤ islandOf table i then some 0xB else if islandOf table i ≠ m then some 2 else none

/-- Why a sum of island `m` may not use the terms or tiles `[a, a + n)`. -/
def State.ownRange (s : State) (table m a n : Nat) : Option Nat :=
  if n = 0 then none else (s.ownIsland table m a).or (s.ownIsland table m (a + n - 1))

/-- Why the indices that sum `e` of island `m` names lie wrong: terms or tiles, group, parent. -/
def State.sumPlaces (s : State) (m : Nat) (e : List Nat) : Option Nat :=
  (s.ownRange (if smKind e = kVIDEO then xTILE else xTERM) m (smFirst e) (smCount e)).or
    ((s.ownIsland xGROUP m (smGroup e)).or (if smKind e = kMINUS then s.ownIsland xSUM m (smParent e) else none))

/-- An egress handle of a group names a port that the part does not have (R6). -/
def State.offDevice (s : State) (g : List Nat) : Bool :=
  (gpEshs g).any (fun h => s.tabBit (eshTab h) 0 31 && s.nPorts ≤ s.eshPort h && s.eshPort h < 64)

/-- Ownership and references of the terms of a sum of island `m`. -/
def State.termRefs (s : State) (b m : Nat) (e : List Nat) : Option Bad :=
  (sumTiles e).findSome? (fun t =>
    let x := s.term b t
    if ¬ tmValid x then none
    else match s.ownIsland xCTX m (tmCtx x) with
      | some r => some ⟨r, xTERM, m, t⟩
      | none => if cxValid (s.ctx (tmCtx x)) then none else some ⟨0xB, xTERM, m, t⟩)

/-- Ownership and references of the tiles of a video sum of island `m`. -/
def State.tileRefs (s : State) (b m : Nat) (e : List Nat) : Option Bad :=
  (sumTiles e).findSome? (fun t =>
    let x := s.tile b t
    let c := s.cut b (tlCut x)
    let far := if tlCutEn x then s.ownIsland xCUT m (tlCut x) else none
    if ¬ tlValid x then some ⟨0xB, xTILE, m, t⟩
    else if far.isSome then some ⟨far.getD 0, xTILE, m, t⟩
    else if tlCutEn x ∧ ¬ ctValid c then some ⟨0xB, xTILE, m, t⟩
    else if ¬ viValid (s.videoEntry (tlSource x)) then some ⟨0xB, xTILE, m, t⟩
    else if tlCutEn x ∧ ¬ viValid (s.videoEntry (ctSource c)) then some ⟨0xB, xCUT, m, tlCut x⟩
    else none)

/-- The rules of a minus-one sum (R164, R187). -/
def State.minusOk (s : State) (b i : Nat) : Bool :=
  let e := s.sum b i
  let x := s.sum b (smParent e)
  smValid x && smKind x = kAUDIO && smParentTerm e < smCount x && smDelay e = smDelay x && !smPin e &&
    smCount e + smCount x ≤ 65536 && smPeriod e = smPeriod x && smPhase e = smPhase x &&
    s.deadlinePort b e = s.deadlinePort b x

/-- The first term of a sum whose context a term before it has. -/
def State.dupTerm (s : State) (b : Nat) (e : List Nat) : Option Nat :=
  let valid := (sumTiles e).filter (fun t => tmValid (s.term b t))
  valid.find? (fun t => valid.any (fun u => u < t && tmCtx (s.term b u) = tmCtx (s.term b t)))

/-- The geometry rules of a tile and its cut (R166, R194): whether the tile or the cut breaks one. -/
def State.tileRule (s : State) (b m : Nat) (g : List Nat) (t : Nat) : Option Bad :=
  let x := s.tile b t
  let a := s.videoEntry (tlSource x)
  let c := s.videoEntry (ctSource (s.cut b (tlCut x)))
  let inside := fun (v : List Nat) => tlX x + tlW x ≤ viWidth v && tlY x + tlH x ≤ viHeight v
  if tlW x % (2 * tlDh x) ≠ 0 ∨ tlH x % tlDv x ≠ 0 ∨ tlX x % 2 = 1 ∨ tlXout x % 2 = 1 ∨ ¬ inside a ∨
      gpWidth g < tlXout x + tlWout x ∨ gpHeight g < tlYout x + tlHout x ∨ vi444 a ≠ gpFull g ∨
      viRate a ≠ gpPicRate g then some ⟨5, xTILE, m, t⟩
  else if tlCutEn x ∧ (vi444 c ≠ vi444 a ∨ viRate c ≠ viRate a ∨ ¬ inside c) then some ⟨5, xCUT, m, tlCut x⟩
  else none

/-- A sum that is valid in both banks keeps its windows (R198). -/
def State.keepsWindows (s : State) (b i : Nat) : Bool :=
  let e := s.sum b i
  let x := s.sum (1 - b) i
  !smValid x || !s.mix.activated ||
    (smKind x = smKind e && smPeriod x = smPeriod e && smPhase x = smPhase e &&
      s.deadlinePort (1 - b) x = s.deadlinePort b e)

/-- The contexts that a sum reads through its terms, with their terms. -/
def State.readTerms (s : State) (b : Nat) (e : List Nat) : List (Nat × Nat) :=
  ((sumTiles e).filter (fun t => tmValid (s.term b t))).map (fun t => (t, tmCtx (s.term b t)))

/-- The contexts that a sum reads, a minus-one sum's parent's among them (R154). -/
def State.rateTerms (s : State) (b : Nat) (e : List Nat) : List (Nat × Nat) :=
  s.readTerms b e ++ (if smKind e = kMINUS then s.readTerms b (s.sum b (smParent e)) else [])

/-- A context's rate is the output group's; a bus channel's samples run at 48 kHz. -/
def State.rateOk (s : State) (g : List Nat) (c : Nat) : Bool :=
  cxRate (s.ctx c) = gpRate g && !(cxBus (s.ctx c) && cxRate (s.ctx c) = 1)

/-- All rules of one sum of island `m`. -/
def State.sumRule (s : State) (b m i : Nat) : Option Bad :=
  let e := s.sum b i
  let g := s.group b (smGroup e)
  let video : Bool := smKind e = kVIDEO
  let bad := fun (r : Nat) => some (Bad.mk r xSUM m i)
  let n := samplesIn (smPeriod e) (gpRate g)
  let place := s.sumPlaces m e
  if place.isSome then bad (place.getD 0)
  else if s.sharesTerms b i then bad 9
  else if ¬ gpValid g then bad 0xB
  else if s.offDevice g then some ⟨0xB, xGROUP, m, smGroup e⟩
  else match if video then s.tileRefs b m e else s.termRefs b m e with
    | some x => some x
    | none =>
      if smKind e = kMINUS ∧ ¬ s.minusOk b i then bad 4
      else match if video then none else s.dupTerm b e with
        | some t => some ⟨9, xTERM, m, t⟩
        | none =>
          let rs := if video then [] else s.readTerms b e
          match rs.find? (fun r => cxRing (s.ctx r.2) < smDelay e + n) with
          | some r => some ⟨8, xTERM, m, r.1⟩
          | none => match (if video then [] else s.rateTerms b e).find? (fun r => !s.rateOk g r.2) with
            | some r => some ⟨3, xTERM, m, r.1⟩
            | none =>
              if ¬ s.groupRule b i then some ⟨6, xGROUP, m, smGroup e⟩
              else match if video then (sumTiles e).findSome? (s.tileRule b m g) else none with
                | some x => some x
                | none =>
                  if ¬ s.keepsWindows b i then bad 0xA
                  else if ¬ s.deadlineRule (s.deadlinePort b e) (smPeriod e) (smPhase e) then bad 7
                  else none

/-- The sums of island `m`, then the groups of the island that no sum names. -/
def State.passRules (s : State) (b m : Nat) : Option Bad :=
  (((s.validSums b).filter (fun i => islandOf xSUM i = m)).findSome? (s.sumRule b m)).or
    ((s.listedOf xGROUP m (groupTab b 0) 64).findSome? (fun g =>
      let e := s.group b g
      if ¬ gpValid e ∨ s.groupSums b g ≠ [] then none
      else if s.offDevice e then some ⟨0xB, xGROUP, m, g⟩
      else if s.groupOk b g then none
      else some ⟨6, xGROUP, m, g⟩))

/-! ### Families (R188) and pass 3 -/

/-- Two sums of a bank belong to one family directly: a shared group, or parent and minus-one. -/
def State.related (s : State) (b i j : Nat) : Bool :=
  let x := s.sum b i
  let y := s.sum b j
  smGroup x = smGroup y || (smKind x = kMINUS && smParent x = j) || (smKind y = kMINUS && smParent y = i)

/-- A sum joins the families it is related to. -/
def State.joinFamily (s : State) (b : Nat) (fs : List (List Nat)) (i : Nat) : List (List Nat) :=
  let hit := fs.filter (fun f => f.any (s.related b i))
  let rest := fs.filter (fun f => !f.any (s.related b i))
  rest ++ [sortNat (i :: hit.flatten)]

/-- Insertion by lowest member. -/
def insertFam (f : List Nat) : List (List Nat) → List (List Nat)
  | [] => [f]
  | x :: r => if f.headD 0 ≤ x.headD 0 then f :: x :: r else x :: insertFam f r

/-- The families of a bank, in ascending lowest sum index. -/
def State.families (s : State) (b : Nat) : List (List Nat) :=
  (((s.validSums b).foldl (s.joinFamily b) []).foldr insertFam [])

/-- The engines, in their island, to which members of a family are pinned. -/
def State.pins (s : State) (b : Nat) (f : List Nat) : List Nat :=
  ((f.filter (fun i => smPin (s.sum b i))).map (fun i => smEngine (s.sum b i))).eraseDups

def State.passPins (s : State) (b m : Nat) : Option Bad :=
  ((s.families b).filter (fun f => islandOf xSUM (f.headD 0) = m)).findSome? (fun f =>
    if 1 < (s.pins b f).length then some ⟨0xC, xSUM, m, f.headD 0⟩ else none)

/-- The BAD_ARG checks, island by island. -/
def State.checkArgs (s : State) (b : Nat) : Option Bad :=
  (List.range s.nIslands).findSome? (fun m => (s.passOwn b m).or ((s.passRules b m).or (s.passPins b m)))

/-! ### Resources: Mix pools (R141) and store blocks (R156, R161) -/

/-- What the groups of a bank reserve: one record for each network egress handle of each group that a sum uses. -/
def State.reserves (s : State) (b : Nat) : List Reserve :=
  ((s.validSums b).map (fun i => smGroup (s.sum b i))).eraseDups.flatMap (fun g =>
    let e := s.group b g
    let x := s.sum b ((s.groupSums b g).headD 0)
    ((gpEshs e).filter (fun h => s.eshPort h < 64)).map (fun h =>
      { bank := b, group := g, island := s.eshPort h / 4, cells := s.gpCells e (smPeriod x) h,
        port := s.eshPort (gpEsh e 0), period := smPeriod x, phase := smPhase x, old := none }))

def cellsAt (rs : List Reserve) (q : Nat) : Nat := ((rs.filter (fun r => r.island = q)).map (fun r => r.cells)).sum

def State.checkPools (s : State) (b : Nat) : Option Bad :=
  let rs := s.reserves b
  let held := s.mix.reserved.filter (fun r => r.old.isNone)
  ((List.range s.nIslands).find? (fun q =>
    0 < cellsAt rs q && s.mixHeld (4 * q) < cellsAt held q + cellsAt rs q)).map (fun q => ⟨0x20, 7, q, q⟩)

/-- The key of a tile's buffer among the store allocations. -/
def tileKey (b t : Nat) : Nat := 2 ^ 20 + 2 ^ 16 * b + t

/-- The island of a store allocation. -/
def storeIsland (key : Nat) : Nat := if key < 2 ^ 20 then islandOf xCTX key else islandOf xTILE (key % 2 ^ 16)

/-- The store blocks in use in island `m`; their number is STORE_USED. -/
def State.storeBlocks (s : State) (m : Nat) : List Nat :=
  (s.mix.store.filter (fun x => storeIsland x.1 = m)).flatMap (fun x => x.2)

/-- What a bank has to allocate: table, index, key and store blocks, contexts before tiles. -/
def State.storeNeeds (s : State) (b : Nat) : List (Nat × Nat × Nat × Nat) :=
  (((sortNat (s.ctxsOf b)).filter (fun c => ¬ s.allocated c)).map (fun c => (xCTX, c, c, 2 ^ cxRingJ (s.ctx c)))) ++
    (s.validSums b).flatMap (fun i =>
      let e := s.sum b i
      if smKind e = kVIDEO then
        (sumTiles e).map (fun t =>
          (xTILE, t, tileKey b t, s.tileStore b (s.tile b t) (s.group b (smGroup e)) (smPeriod e)))
      else [])

/-- The first need of island `m` that exceeds the store when `used` blocks are taken. -/
def storeOver (m : Nat) : Nat → List (Nat × Nat × Nat × Nat) → Option Bad
  | _, [] => none
  | used, x :: r =>
    if storeIsland x.2.2.1 ≠ m then storeOver m used r
    else if 32768 < used + x.2.2.2 then some ⟨0x23, x.1, m, x.2.1⟩
    else storeOver m (used + x.2.2.2) r

/-- The store-block check: island by island in ascending order, within an island contexts before tiles, and the first entry whose
need takes the sum past the store is named (DESIGN CHOICE, log 73). -/
def State.checkStore (s : State) (b : Nat) : Option Bad :=
  let ns := s.storeNeeds b
  (List.range s.nIslands).findSome? (fun m => storeOver m (s.storeBlocks m).length ns)

/-! ### Placement (R178) -/

/-- Blocks placed: engine, deadline instant, blocks. -/
abbrev Loads := List (Nat × Nat × Nat)

def loadAt (l : Loads) (e d : Nat) : Nat := ((l.filter (fun x => x.1 = e && x.2.1 = d)).map (fun x => x.2.2)).sum

/-- The windows of a sum that begin in `[a, a + 1 ms)`. -/
def windowsFrom (period phase a : Nat) : List Nat :=
  let k0 := ceilDiv (a - phase) period
  (List.range (1000000 / period)).map (fun j => k0 + j)

/-- The deadline instants that a sum of a bank meets in the millisecond from `a`. -/
def State.instants (s : State) (b : Nat) (e : List Nat) (a : Nat) : List Nat :=
  (windowsFrom (smPeriod e) (smPhase e) a).filterMap (fun k =>
    s.deadlineOf (s.deadlinePort b e) (windowAt (smPeriod e) (smPhase e) k) (smPeriod e))

/-- What a family adds at each of its deadline instants. -/
def State.famLoad (s : State) (b a : Nat) (f : List Nat) : List (Nat × Nat) :=
  f.flatMap (fun i => let e := s.sum b i; (s.instants b e a).map (fun d => (d, s.sumBlocks b e)))

/-- What a tile of sum `i` adds. -/
def State.tileLoad (s : State) (b a i t : Nat) : List (Nat × Nat) :=
  let e := s.sum b i
  (s.instants b e a).map (fun d => (d, s.tileBlocks b (s.tile b t) (s.group b (smGroup e)) (smPeriod e)))

/-- The batches of engine `e`: deadline instants with their blocks. -/
def batchesOf (l : Loads) (e : Nat) : List (Nat × Nat) :=
  ((l.filter (fun x => x.1 = e)).map (fun x => x.2.1)).eraseDups.map (fun d => (d, loadAt l e d))

/-- Two batches' allotments overlap (R172); that of a batch without blocks is empty. -/
def allotsMeet (x y : Nat × Nat) : Bool :=
  let a := fun (z : Nat × Nat) => z.1 + 200 - batchLatency z.2
  x.1 ≠ y.1 && x.2 ≠ 0 && y.2 ≠ 0 && a x < a y + allotment y.2 && a y < a x + allotment x.2

/-- Why engine `e` cannot hold what is placed on it: reason 0x21 or 0x22. -/
def engineFault (l : Loads) (e : Nat) : Option Nat :=
  let bs := batchesOf l e
  if bs.any (fun x => 65536 < x.2) then some 0x21
  else if bs.any (fun x => bs.any (allotsMeet x)) then some 0x22
  else none

/-- A placement in progress: the loads, the engines chosen, or why it failed. -/
structure Placing where
  loads : Loads
  place : Placement
  bad : Option Bad
  deriving DecidableEq, Repr

def onEngine (e : Nat) (l : List (Nat × Nat)) : Loads := l.map (fun x => (e, x.1, x.2))

/-- The allowed engine of island `m` with the smallest of the largest batches already placed at the load's instants. -/
def State.chooseEngine (s : State) (l : Loads) (m : Nat) (add : List (Nat × Nat)) : Option Nat :=
  let fit := ((List.range 32).filter (fun e => s.fbit F.ENG_ALLOW.ALLOW e m)).filter (fun e =>
    (engineFault (l ++ onEngine (32 * m + e) add) (32 * m + e)).isNone)
  let cost := fun (e : Nat) => (add.map (fun x => loadAt l (32 * m + e) x.1)).foldl max 0
  (fit.foldl (fun (b : Option Nat) e =>
    match b with
    | some c => if cost e < cost c then some e else b
    | none => some e) none).map (fun e => 32 * m + e)

/-- A unit of island `m` goes to its pinned engine, or to the one that R178 chooses. -/
def State.placeUnit (s : State) (p : Placing) (table m idx : Nat) (pin : Option Nat) (add : List (Nat × Nat))
    (put : Nat → Placement → Placement) : Placing :=
  if p.bad.isSome then p
  else match pin with
    | some e =>
      let l := p.loads ++ onEngine (32 * m + e) add
      { loads := l, place := put (32 * m + e) p.place, bad := (engineFault l (32 * m + e)).map (fun r => ⟨r, table, m, idx⟩) }
    | none => match s.chooseEngine p.loads m add with
      | some e => { p with loads := p.loads ++ onEngine e add, place := put e p.place }
      | none => { p with bad := some ⟨0x24, table, m, idx⟩ }

/-- A family is placed as one unit. -/
def State.placeFamily (s : State) (b a : Nat) (p : Placing) (f : List Nat) : Placing :=
  s.placeUnit p xSUM (islandOf xSUM (f.headD 0)) (f.headD 0) (s.pins b f).head? (s.famLoad b a f)
    (fun e q => { q with sums := q.sums ++ f.map (fun i => (i, e)) })

/-- A tile of video sum `x.1` is placed. -/
def State.placeTile (s : State) (b a : Nat) (p : Placing) (x : Nat × Nat) : Placing :=
  let t := s.tile b x.2
  s.placeUnit p xTILE (islandOf xTILE x.2) x.2 (if tlPin t then some (tlEngine t) else none) (s.tileLoad b a x.1 x.2)
    (fun e q => { q with tiles := q.tiles ++ [(x.2, e)] })

/-- The tiles of a bank with their sums, in ascending tile index. -/
def State.sumTilesOf (s : State) (b : Nat) : List (Nat × Nat) :=
  let l := (s.validSums b).flatMap (fun i =>
    let e := s.sum b i
    if smKind e = kVIDEO then (sumTiles e).map (fun t => (t, i)) else [])
  (sortNat (l.map (fun x => x.1))).filterMap (fun t => (SMap.look l t).map (fun i => (i, t)))

/-- Pinned families and tiles come in ascending lowest index, a family before a tile of the same index. -/
inductive PlaceItem where
  | fam (f : List Nat)
  | tile (i t : Nat)
  deriving DecidableEq, Repr

def PlaceItem.index : PlaceItem → Nat
  | .fam f => f.headD 0
  | .tile _ t => t

def insertItem (x : PlaceItem) : List PlaceItem → List PlaceItem
  | [] => [x]
  | y :: r => if x.index ≤ y.index then x :: y :: r else y :: insertItem x r

def State.placeItem (s : State) (b a : Nat) (p : Placing) : PlaceItem → Placing
  | .fam f => s.placeFamily b a p f
  | .tile i t => s.placeTile b a p (i, t)

/-- Placement of a bank, checked in the millisecond from `a` ns, island by island. -/
def State.placeBank (s : State) (b a : Nat) : Placing :=
  (List.range s.nIslands).foldl (fun p m =>
    let fs := (s.families b).filter (fun f => islandOf xSUM (f.headD 0) = m)
    let ts := (s.sumTilesOf b).filter (fun x => islandOf xTILE x.2 = m)
    let pinF := fs.filter (fun f => s.pins b f ≠ [])
    let pinT := ts.filter (fun x => tlPin (s.tile b x.2))
    let pinned := (pinF.map PlaceItem.fam ++ pinT.map (fun x => PlaceItem.tile x.1 x.2)).foldr insertItem []
    let free := (fs.filter (fun f => s.pins b f = [])).map PlaceItem.fam ++
      (ts.filter (fun x => !tlPin (s.tile b x.2))).map (fun x => PlaceItem.tile x.1 x.2)
    (pinned ++ free).foldl (s.placeItem b a) p) ⟨[], ⟨[], []⟩, none⟩

/-- First dword number of the contribution entry of bus channel `ch`, and its fields (R217). -/
def contribTab (ch : Nat) : Nat := tRing + 2 * ch
def State.contribEntry (s : State) (ch : Nat) : List Nat := s.entry (contribTab ch) 2

/-- The bus channels to which the node contributes. -/
def State.contributed (s : State) : List Nat :=
  (s.listedIn (contribTab 0) 2 1024).filter (fun ch => tmValid (s.contribEntry ch))

/-- Contexts and tile buffers that no bank in use reads are freed (R193); a context that a valid contribution entry names
stays (R217). -/
def State.freeStore (s : State) (banks : List Nat) : State :=
  let cs := banks.flatMap s.ctxsOf ++ s.contributed.map (fun ch => tmCtx (s.contribEntry ch))
  let ks := banks.flatMap (fun b => (s.tilesOf b).map (tileKey b))
  s.modMix (fun m =>
    { m with
      ctxs := m.ctxs.filter (fun x => cs.contains x.1)
      store := m.store.filter (fun x => if x.1 < 2 ^ 20 then cs.contains x.1 else ks.contains x.1) })

/-- The end of a drain: what the old bank alone read is freed (R193, R199). Its placement stays known (R357). -/
def State.endDrain (s : State) : State :=
  let t := s.freeStore (s.banksInUse ++ s.mix.pending.toList.map (fun x => x.bank))
  t.modMix (fun m => { m with drainEnd := none })

/-! ### MIX_COMMIT (R195 to R197) -/

/-- Blocks that a key takes: the lowest free ones of its island. What raw writes had put into engine stores may be gone
(log 31). -/
def State.takeStore (s : State) (key n : Nat) : State :=
  let used := s.storeBlocks (storeIsland key)
  let free := ((List.range 32768).filter (fun x => ¬ used.contains x)).take n
  { s with
    raw := s.raw.filter (fun x => x.1 / 2 ^ 60 ≠ 3)
    mix := { s.mix with store := SMap.put s.mix.store key free } }

/-- A bank's store blocks and contexts are allocated; a new context is empty, with FRESH zero (R193). -/
def State.allocate (s : State) (b : Nat) : State :=
  (s.storeNeeds b).foldl (fun t x =>
    let t := t.takeStore x.2.2.1 x.2.2.2
    if x.1 = xCTX then
      (t.setTab (ctxTab x.2.1 + 3) 0).modMix (fun m => { m with ctxs := SMap.put m.ctxs x.2.1 CtxDyn.reset })
    else t) s

/-- Cells move between the Mix pools' free cells and reservations. -/
def State.mixCells (s : State) (rs : List Reserve) (up : Bool) : State :=
  rs.foldl (fun t r =>
    let d := t.island r.island
    t.setIsland r.island { d with mixUsed := if up then d.mixUsed + r.cells else d.mixUsed - r.cells }) s

/-- The placement as the entries report it: PLACED and CUR_ENGINE. -/
def State.showPlacement (s : State) (b : Nat) (p : Placement) : State :=
  let s := p.sums.foldl (fun t x => t.setTab (sumTab b x.1 + 6) (2 ^ 31 + x.2 % 32)) s
  p.tiles.foldl (fun t x => t.setTab (tileTab b x.1 + 6) (x.2 % 32)) s

/-- The first failure of a commit of bank `b` aimed at `a` ns, with the placement found. -/
def State.commitCheck (s : State) (b a : Nat) : Option Bad × Placement :=
  match (s.checkArgs b).or ((s.checkPools b).or (s.checkStore b)) with
  | some x => (some x, ⟨[], []⟩)
  | none => let p := s.placeBank b a; (p.bad, p.place)

/-- The time that the checks take (log 21), at most 2 ms. -/
def State.commitTime (s : State) : State :=
  { s.run (min (Config.commitNs s.draws).toNat 2000000 * ltNs) with draws := s.draws + 1 }

/-- Request words 2 and 3 as a number. -/
def Cmd.ms (c : Cmd) : Nat := c.word 2 + 2 ^ 32 * c.word 3

/-- The last commit's status and reason, for MIX_STATUS. -/
def State.noteCommit (s : State) (st reason : Nat) : State :=
  s.modMix (fun m => { m with lastStatus := st, lastReason := reason })

/-- An accepted commit with activation time `a` in ms (R197). -/
def State.acceptCommit (s : State) (b a : Nat) (p : Placement) : State :=
  let lead := s.ns + 100000
  let onTime : Bool := lead ≤ a * 1000000
  let aeff := if onTime then a else ceilDiv lead 1000000
  let st := if onTime then xOK else xLATE
  let rs := s.reserves b
  let s := ((s.mixCells rs true).allocate b).showPlacement b p
  let s := s.modMix (fun m => { m with pending := some ⟨aeff, b, p, false⟩, reserved := m.reserved ++ rs })
  (s.noteCommit st 0).finish st 0 [aeff % 2 ^ 32, aeff / 2 ^ 32, sat32 (aeff - a)]

/-- MIX_COMMIT without WITHDRAW. -/
def State.commit (s : State) (c : Cmd) : State :=
  if s.mix.pending.isSome then s.finish xWRONGSTATE 0 []
  else if s.draining then s.finish xBUSY 0 []
  else
    let s := (if s.mix.drainEnd.isSome then s.endDrain else s).commitTime
    let b := 1 - s.operBank
    match s.commitCheck b (c.ms * 1000000) with
    | (some x, _) =>
      let st := if x.reason < 0x20 then xBADARG else xNORES
      (s.noteCommit st x.reason).finish st x.reason [0, 0, 0, x.table * 2 ^ 28 + x.island * 2 ^ 24 + x.index % 2 ^ 22]
    | (none, p) => s.acceptCommit b c.ms p

/-- A withdrawn commit leaves nothing reserved (R201). -/
def State.dropCommit (s : State) (x : Commit) : State :=
  let mine := s.mix.reserved.filter (fun r => r.bank = x.bank && r.old.isNone)
  let s := s.mixCells mine false
  let s := (s.modMix (fun m =>
    { m with pending := none, reserved := m.reserved.filter (fun r => ¬ (r.bank = x.bank ∧ r.old.isNone)) })).freeStore
      s.banksInUse
  let s := x.place.sums.foldl (fun t y => t.setTab (sumTab x.bank y.1 + 6) 0) s
  x.place.tiles.foldl (fun t y => t.setTab (tileTab x.bank y.1 + 6) 0) s

/-- A commit still can be withdrawn: A_eff − 50 µs has not come. -/
def State.canWithdraw (s : State) (x : Commit) : Bool := s.ns + 50000 < x.aeff * 1000000

def State.withdraw (s : State) : State :=
  match s.mix.pending with
  | none => s.finish xWRONGSTATE 0 []
  | some x => if s.canWithdraw x then (s.dropCommit x).finishOk [] else s.finish xLATE 0 []

/-- MIX_COMMIT (R195 to R197). -/
def execMixCommit (s : State) : Host.Outcome State Fault Refusal :=
  .next (s.xci 0x20 (fun c t => if c.word 1 % 2 = 1 then t.withdraw else t.commit c))

/-- MIX_WITHDRAW: MIX_COMMIT with its withdraw flag set (R201). -/
def execMixWithdraw (s : State) : Host.Outcome State Fault Refusal :=
  .next (s.xci 0x20 (fun c t => if c.word 1 % 2 = 1 then t.withdraw else t))

/-- MIX_STATUS (R201, R314). -/
def State.mixStatus (s : State) : State :=
  let m := s.mix
  let a := match m.pending with
    | some x => x.aeff
    | none => if m.activated then m.lastAeff else 0
  let e := if m.activated then m.lastAeff + 1 else 0
  s.finishOk [s.operBank + m.pending.isSome.toNat * 2 + s.draining.toNat * 4 + m.lastReason * 2 ^ 8 + m.lastStatus * 2 ^ 16,
    a % 2 ^ 32, a / 2 ^ 32, e % 2 ^ 32, e / 2 ^ 32]

def execMixStatus (s : State) : Host.Outcome State Fault Refusal := .next (s.xci 0x21 (fun _ t => t.mixStatus))

/-! ### Activation and drain (R197 to R200) -/

/-- PLACEMENT_LOAD: the placement of the pending commit is in the engine islands by A_eff − 50 µs (R197). -/
def execPlacementLoad (s : State) : Host.Outcome State Fault Refusal :=
  .next (match s.mix.pending with
    | none => s
    | some x =>
      (s.runToNs (x.aeff * 1000000 - 50000)).modMix (fun m => { m with pending := some { x with loaded := true } }))

/-- The gains of a bank, for the ramp of its successor (R165, R200). -/
def State.gains (s : State) (b : Nat) : List (Nat × Nat × Int) :=
  (s.validSums b).flatMap (fun i =>
    let e := s.sum b i
    if smKind e = kVIDEO then []
    else ((s.sumTerms b e).filter tmValid).map (fun t => (i, tmCtx t, tmGain t)))

/-- The pending bank becomes the operative one (R199). A commit that a takeover kept for a bank that is operative already leaves no old
bank to drain (R357). -/
def State.activate (s : State) (x : Commit) : State :=
  let old := s.operBank
  let g := if s.mix.activated then s.gains old else []
  let at' := x.aeff * 1000000 + 1000000
  (s.setf F.MIX_STATUS.OPER_BANK x.bank).modMix (fun m =>
    { m with
      pending := none
      placed := SMap.put m.placed x.bank x.place
      activated := true
      unplaced := false
      lastAeff := x.aeff
      drainEnd := if x.bank = old then none else some at'
      ramp := some g
      reserved := m.reserved.map (fun r => if r.bank = old ∧ r.bank ≠ x.bank ∧ r.old.isNone then { r with old := some at' } else r) })

/-- MIX_ACTIVATION: network time reaches A_eff. -/
def execMixActivation (s : State) : Host.Outcome State Fault Refusal :=
  .next (match s.mix.pending with
    | none => s
    | some x => if s.phase = .running then (s.runToNs (x.aeff * 1000000)).activate x else s)

/-- MIX_DRAIN_END: at A_eff + 1 ms the old bank is writable, and what it alone read is freed (R193, R199). -/
def execMixDrainEnd (s : State) : Host.Outcome State Fault Refusal :=
  .next (match s.mix.drainEnd with
    | none => s
    | some d =>
      if s.phase = .running then
        (s.runToNs d).endDrain
      else s)

/-- When an old group's cells return: its first deadline instant after `t` (R199); with none in the 16
windows looked at they return at `t` itself (DESIGN CHOICE, log 73). -/
def State.returnAt (s : State) (r : Reserve) (t : Nat) : Nat :=
  let k := (t - r.phase) / r.period
  (((List.range 16).map (fun j => k + j)).findSome? (fun j =>
    (s.deadlineOf r.port (windowAt r.period r.phase j) r.period).filter (fun d => t < d))).getD t

/-- MIX_POOL_RETURN: the cells of an old output group return to the Mix pools. -/
def execMixPoolReturn (group : Nat) (s : State) : Host.Outcome State Fault Refusal :=
  .next (
    if s.phase ≠ .running then s
    else
      let mine := s.mix.reserved.filter (fun r => r.group = group && r.old.isSome)
      match mine with
      | [] => s
      | r :: _ =>
        let t := s.runToNs (s.returnAt r (r.old.getD 0))
        (t.mixCells mine false).modMix (fun m =>
          { m with reserved := m.reserved.filter (fun x => ¬ (x.group = group ∧ x.old.isSome)) }))

end Sys2Proof.Machine
end

