-- ==== Sys2Proof/Machine/Arm.lean ====
section
/-! DEFINITION. SENTENCE_ARM (R108, R171). -/

namespace Sys2Proof.Machine

/-- The banks whose sums R171 judges: the operative one, and one whose commit is pending (R196). -/
def State.judgedBanks (s : State) : List Nat := s.banksInUse ++ s.mix.pending.toList.map (fun x => x.bank)

/-- The admin Sentence of port `p`, its cycles placed at `c`, serves every committed sum on the port (R171). -/
def State.armServes (s : State) (p c : Nat) : Bool :=
  let x := { s.adminSent p with at' := c }
  s.judgedBanks.all (fun b => (s.validSums b).all (fun i =>
    let e := s.sum b i
    s.deadlinePort b e ≠ p || s.windowsServed p (smPeriod e) (smPhase e) x))

/-- The base time of the admin Sentence in ns. -/
def State.adminBase (s : State) (p : Nat) : Nat :=
  s.fld F.SEN_ADMIN_BASE_NS p + 1000000000 * (s.fld F.SEN_ADMIN_BASE_SL p + 2 ^ 32 * s.fld F.SEN_ADMIN_BASE_SH p)

/-- SENTENCE_ARM of port `p`. -/
def State.arm (s : State) (p : Nat) : State :=
  let base := s.adminBase p
  let cycle := s.fld F.SEN_ADMIN_CYCLE p
  let lead := s.ns + 1000
  let n := if lead ≤ base then 0 else ceilDiv (lead - base) cycle
  let c := base + n * cycle
  let refused := fun (st : Nat) => s.finish st 7 []
  if ¬ s.on F.SEN_CTL.ENABLE p ∨ s.adminState p ≠ aSTAGED then refused xWRONGSTATE
  else if s.shedAgreed p then refused xBUSY
  else if ¬ s.armServes p c then refused xBADARG
  else
    let s := (s.setf F.SEN_STATUS.ADMIN_STATE aPENDING p).setf F.SEN_SKIPPED.SKIPPED (sat32 n) p
    let s := (s.modSen p (fun x => { x with change := c, armed := s.portNs p })).refreshDue p
    s.finish (if n = 0 then xOK else xLATE) 0
      [sat32 n, c % 1000000000, c / 1000000000 % 2 ^ 32, c / 1000000000 / 2 ^ 32]

def execSentenceArm (s : State) : Host.Outcome State Fault Refusal :=
  .next (s.xci 0x11 (fun c t => t.arm (bitsOf (c.word 1) 5 0)))

end Sys2Proof.Machine
end

