-- ==== Sys2Proof/Machine/Cxm.lean ====
section
/-! DEFINITION. The CXL root ports: enumeration, failed reads, link loss (R267, R268, R270). -/

namespace Sys2Proof.Machine

/-- Codes of CXM_PORT_STATUS.STATE (R294). -/
def pNOTPRESENT : Nat := 0
def pTRAINING : Nat := 1
def pNOTTYPE3 : Nat := 2
def pNOTREADY : Nat := 3
def pMAPPED : Nat := 4
def pDOWN : Nat := 5
def pUNUSABLE : Nat := 6

def State.cxlState (s : State) (c : Nat) : Nat := s.fld F.CXM_PORT_STATUS.STATE 0 c
def State.setCxlState (s : State) (c v : Nat) : State := s.setf F.CXM_PORT_STATUS.STATE v 0 c

/-! ### Enumeration (R268) -/

/-- A port starts to enumerate, CXLc_PERSTn being released `wait` later (R433). -/
def State.startEnumIn (s : State) (wait c : Nat) : State :=
  (s.setCxlState c pTRAINING).setCxl c { s.cxlPort c with perstAt := some (s.lt + wait) }

/-- A port starts to enumerate. -/
def State.startEnum (s : State) (c : Nat) : State := s.startEnumIn 0 c

/-- The effect of a write of 1 to bit `c` of CXM_CTL.ENUM: an absent port has no bit (R294). CXLc_PERSTn is first held low for 1 ms
(R433). -/
def State.enumWrite (s : State) (o : Origin4) (data c : Nat) : State :=
  if s.nCxl ≤ c then s else if s.mapped c then s.refuse o data cRULE else s.startEnumIn ltMs c

/-- CXM_ENUM: a write of CXM_CTL.ENUM for port `c`. -/
def execCxmEnum (c : Nat) (s : State) : Host.Outcome State Fault Refusal :=
  let d := 2 ^ (16 + c) + s.fld F.CXM_CTL.ENABLE
  atUnit (c < s.nCxl) s (if s.hostUp then s.gated 7 (atBar0 0x70000) d (fun t => t.enumWrite (atBar0 0x70000) d c) else s)

/-- 256 MiB, and the bytes that a port maps of a capacity. -/
def mib256 : Nat := 256 * 1024 * 1024
def mapOf (capacity : Nat) : Nat := min capacity 128000000000 / mib256 * mib256

/-- A valid entry whose extent lies beyond the mapped range of its port becomes invalid (R270). -/
def State.dropEntry (s : State) (k : Nat) (x : Option Extent) (c : Nat) : State :=
  if x.any (fun y => y.port = c && (s.cxlPort c).mapped < y.off + y.len) then
    (s.setTab k (withBits (s.tab k) 31 31 0)).bump F.CXM_ENTRY_REFUSED.REFUSED
  else s

def State.dropEntries (s : State) (c : Nat) : State :=
  let s := s.validLines.foldl (fun t n => t.dropEntry (lineTab n) (lnExtent (t.lineEntry n)) c) s
  s.validVideos.foldl (fun t v => t.dropEntry (videoTab v) (viExtent (t.videoEntry v)) c) s

/-- A usable link's width and rate; one below x16 at 64 GT/s raises CXM_LINK_DEGRADED (R267). -/
def State.trainedAt (s : State) (c : Nat) (d : CxlDevice) : State :=
  let slow : Bool := d.width ≠ 0 || d.speed ≠ 0
  let s := (s.setf F.CXM_PORT_STATUS.WIDTH d.width 0 c).setf F.CXM_PORT_STATUS.SPEED d.speed 0 c
  let s := s.setf F.CXM_PORT_STATUS.DEGRADED slow.toNat 0 c
  if slow then s.raise 57 c else s

/-- The device is mapped and its latency recorded; CXM_PORT_UP. -/
def State.mapPort (s : State) (c : Nat) (d : CxlDevice) : State :=
  let n := mapOf d.capacity
  let s := (s.setf F.CXM_PORT_STATUS.MHD d.mhd.toNat 0 c).setf F.CXM_PORT_STATUS.HEAD (if d.mhd then d.head else 0) 0 c
  let s := (s.setf F.CXM_PORT_CAP.REPORTED (min 0xFFFF (d.capacity / mib256)) 0 c).setf F.CXM_PORT_CAP.MAPPED (n / mib256) 0 c
  let s := (s.setf F.CXM_PORT_LAT.MIN (min 0xFFFF d.latMin) 0 c).setf F.CXM_PORT_LAT.MEAN (min 0xFFFF d.latMean) 0 c
  let s := s.setf F.CXM_PORT_LAT_MAX (min 0xFFFF d.latMax) 0 c
  let s := s.setCxl c { s.cxlPort c with mapped := n }
  ((s.dropEntries c).setCxlState c pMAPPED).raise 56 c

/-- What enumeration finds, in the order of its steps. -/
def State.enumerated (s : State) (c : Nat) (d : CxlDevice) : State :=
  if ¬ d.trained then s.setCxlState c pNOTPRESENT
  else if ¬ d.usable ∨ 2 < d.width ∨ 1 < d.speed then s.setCxlState c pUNUSABLE
  else
    let s := s.trainedAt c d
    if ¬ d.type3 then s.setCxlState c pNOTTYPE3
    else if ¬ d.ready then s.setCxlState c pNOTREADY
    else s.mapPort c d

/-- ENUMERATION_DONE. -/
def execEnumerationDone (c : Nat) (dev : CxlDevice) (s : State) : Host.Outcome State Fault Refusal :=
  atUnit (c < s.nCxl) s (if s.cxlState c = pTRAINING then (s.runToLt ((s.cxlPort c).perstAt.getD 0)).enumerated c dev else s)

/-! ### Failed reads and link loss (R270) -/

/-- A list with an element that it does not hold yet. -/
def putNew (l : List Nat) (x : Nat) : List Nat := if l.contains x then l else l ++ [x]

/-- CXL_READ_FAIL: a read at offset `off` of port `c` returns poison or an error, or nothing within 100 µs; a unit of 64 bytes
that returned poison stays poisoned until it is written. The requester whose read it was meets the failure at its own next
command: a burst, a record's fetch, a tile's rows, a checkpoint (log 72). -/
def State.readFail (s : State) (c off : Nat) (poison : Bool) : State :=
  let u := off / 64 * 64
  if ¬ s.mapped c then s
  else if ¬ poison then
    (s.setCxl c { s.cxlPort c with late := putNew (s.cxlPort c).late u }).bump F.READ_TIMEOUTS 0 c
  else
    let d := s.cxlPort c
    (s.setCxl c { d with poison := putNew d.poison u, late := putNew d.late u }).poisonRead c u

def execCxlReadFail (c off : Nat) (poison : Bool) (s : State) : Host.Outcome State Fault Refusal :=
  atUnit (c < s.nCxl) s (s.readFail c off poison)

/-! ### The wipe of a life-cycle transition (R407, R408) -/

/-- How long the wipe of `n` mapped bytes takes: at 112 bytes a ns. -/
def wipeTime (n : Nat) : Nat := ceilDiv (n * ltNs) 112

/-- A mapped range is zeros: all of it, or up to a write that fails, where a free value says how far (log 32). -/
def State.wipeCxl (s : State) (failed : Bool) (c : Nat) : State :=
  let d := s.cxlPort c
  if failed then
    let n := (Config.wipedBytes s.draws).toNat
    ({ s with draws := s.draws + 1 }).setCxl c { d with mem := d.mem.filter (fun x => n ≤ x.1), poison := d.poison.filter (n ≤ ·), late := [] }
  else s.setCxl c { d with mem := [], poison := [], late := [] }

/-- The wipe of port `y.1` ends here: not begun, cut off on its way, or complete. A wipe that is not complete has failed. -/
def State.haltWipe (s : State) (x : Transition) (y : Nat × Nat) : State :=
  if x.failed.contains y.1 then s
  else
    let since := x.start + 40 * ltMs
    let done := since + wipeTime y.2 ≤ s.lt
    let s := if s.lt ≤ since then s else s.wipeCxl (!done) y.1
    s.modBst (fun b =>
      { b with
        advance := b.advance.map (fun a =>
          if done then { a with ports := a.ports.filter (fun z => z.1 ≠ y.1) } else { a with failed := a.failed ++ [y.1] }) })

/-- The wipes of the ports that `f` names end here: a link is lost, or a reset cuts the transition off. -/
def State.haltWipes (s : State) (f : Nat → Bool) : State :=
  match s.bst.advance with
  | none => s
  | some x => (x.ports.filter (fun y => f y.1)).foldl (fun t y => t.haltWipe x y) s

/-- The link of CXL port `c` may have trained: not while no device is there, after it went down, or before CXLc_PERSTn is released. -/
def State.cxlTrained (s : State) (c : Nat) : Bool :=
  [pNOTTYPE3, pNOTREADY, pMAPPED, pUNUSABLE].contains (s.cxlState c) ||
    (s.cxlState c = pTRAINING && (s.cxlPort c).perstAt.any (fun t => t ≤ s.lt))

/-- CXL_LINK_DOWN: the link of a port that had trained goes down. -/
def execCxlLinkDown (c : Nat) (s : State) : Host.Outcome State Fault Refusal :=
  atUnit (c < s.nCxl) s
    (if s.cxlTrained c then
      (((s.haltWipes (· = c)).setCxlState c pDOWN).bump F.LINK_DOWN_EVENTS 0 c).raise 58 c
    else s)

end Sys2Proof.Machine
end

