-- ==== Sys2Proof/Machine/MixWindows.lean ====
section
/-! DEFINITION. Windows and batches of the mix fabric (R158, R159, R161, R165, R167 to R175, R178 to R181, R198, R444): fixing,
cutoff, the choice of pictures, the allotment, parity errors, and rebalancing. -/

namespace Sys2Proof.Machine

/-! ### Which bank a window uses (R198) -/

/-- A bank with its placement. -/
structure View where
  bank : Nat
  place : Placement
  deriving DecidableEq, Repr

/-- The bank of a window that starts at `w` ns: the pending one from its A_eff on, the operative one, the old one before
the last A_eff while it drains. -/
def State.viewAt (s : State) (w : Nat) : Option View :=
  let m := s.mix
  match m.pending.filter (fun x => x.aeff * 1000000 ≤ w) with
  | some x => some ⟨x.bank, x.place⟩
  | none =>
    if ¬ m.activated then none
    else
      let b := if m.drainEnd.isSome ∧ w < m.lastAeff * 1000000 then 1 - s.operBank else s.operBank
      some ⟨b, SMap.val m.placed b ⟨[], []⟩⟩

/-- The banks that windows may use now. -/
def State.liveBanks (s : State) : List Nat :=
  (s.mix.pending.toList.map (fun x => x.bank) ++ s.banksInUse ++
    (if s.mix.drainEnd.isSome then [1 - s.operBank] else [])).eraseDups

/-- A window of a sum: index, window number, start, view, entry. -/
structure Win where
  idx : Nat
  k : Nat
  w : Nat
  view : View
  e : List Nat
  deriving DecidableEq, Repr

/-- Window `k` of sum `i`, when a bank in which the sum is valid serves it. -/
def State.win (s : State) (i k : Nat) : Option Win :=
  s.liveBanks.findSome? (fun b =>
    let e := s.sum b i
    let w := windowAt (smPeriod e) (smPhase e) k
    if smValid e then (s.viewAt w).bind (fun v => if v.bank = b then some ⟨i, k, w, v, e⟩ else none) else none)

/-- The deadline instant of a window. -/
def State.winDeadline (s : State) (x : Win) : Option Nat := s.deadlineOf (s.deadlinePort x.view.bank x.e) x.w (smPeriod x.e)

def placedOn (l : List (Nat × Nat)) (i : Nat) : Nat := (SMap.look l i).getD 0

/-- The engine that computes a sum, or a tile, of a window: that of the placement, or, in a window that began before a move, the one
that it moved from (R26, R179). -/
def State.engineOf (s : State) (x : Win) (tile : Bool) (i : Nat) : Nat :=
  match s.mix.moved.find? (fun y => y.bank = x.view.bank && y.tile = tile && y.idx = i && x.w < y.since) with
  | some y => y.engine
  | none => placedOn (if tile then x.view.place.tiles else x.view.place.sums) i

/-! ### Batches (R172) -/

/-- The batches that a window joins: engine, tile and blocks of each tile. A video sum's own engine is that of the tile
whose batch is the longest. -/
def State.winTiles (s : State) (x : Win) : List (Nat × Nat × Nat) :=
  if smKind x.e = kVIDEO then
    (sumTiles x.e).map (fun t =>
      (s.engineOf x true t, t,
        s.tileBlocks x.view.bank (s.tile x.view.bank t) (s.group x.view.bank (smGroup x.e)) (smPeriod x.e)))
  else []

/-- The windows of the valid sums that have `d` as their deadline instant. -/
def State.winsAt (s : State) (d : Nat) : List Win :=
  s.liveBanks.flatMap (fun b => (s.validSums b).filterMap (fun i =>
    let e := s.sum b i
    if d < smPhase e then none
    else match s.win i ((d - smPhase e) / smPeriod e) with
      | some x => if x.view.bank = b ∧ s.winDeadline x = some d then some x else none
      | none => none))

/-- Blocks of the batch on engine `e` among windows that share a deadline instant. -/
def State.blocksOn (s : State) (xs : List Win) (e : Nat) : Nat :=
  (xs.map (fun x =>
    (if smKind x.e ≠ kVIDEO ∧ s.engineOf x false x.idx = e then s.sumBlocks x.view.bank x.e else 0) +
      (((s.winTiles x).filter (fun t => t.1 = e)).map (fun t => t.2.2)).sum)).sum

/-- The engines that a window needs. -/
def State.winEngines (s : State) (x : Win) : List Nat :=
  if smKind x.e = kVIDEO then sortNat ((s.winTiles x).map (fun t => t.1)).eraseDups else [s.engineOf x false x.idx]

/-- The engine whose batch carries a window: that of the audio sum, or of the video sum's longest tile batch. -/
def State.homeOf (s : State) (xs : List Win) (x : Win) : Nat :=
  ((s.winEngines x).foldl (fun (b : Option Nat) e =>
    match b with
    | some c => if s.blocksOn xs c < s.blocksOn xs e then some e else b
    | none => some e) none).getD 0

/-- The latency of a window: that of the longest batch that it needs (R172). -/
def State.winLatency (s : State) (xs : List Win) (x : Win) : Nat := batchLatency (s.blocksOn xs (s.homeOf xs x))

def State.batch (s : State) (e d : Nat) : Option Batch := s.mix.batches.find? (fun b => b.e = e && b.d = d)

def State.setBatch (s : State) (b : Batch) : State :=
  s.modMix (fun m => { m with batches := m.batches.map (fun x => if x.e = b.e ∧ x.d = b.d then b else x) })

def State.dropBatch (s : State) (e d : Nat) : State :=
  s.modMix (fun m => { m with batches := m.batches.filter (fun b => ¬ (b.e = e ∧ b.d = d)) })

/-- The batches of a deadline instant take `f`. -/
def State.mapBatches (s : State) (d : Nat) (f : Batch → Batch) : State :=
  s.modMix (fun m => { m with batches := m.batches.map (fun x => if x.d = d then f x else x) })

/-- The sums that a batch serves, its own and those of its tiles. -/
def Batch.serves (b : Batch) : List Nat := ((b.sums ++ b.tiles).map (fun x => x.sum)).eraseDups

/-- The sums `is` produce no output at `d`. -/
def State.silence (s : State) (d : Nat) (is : List Nat) : State :=
  s.mapBatches d (fun x => { x with silent := (x.silent ++ is).eraseDups })

/-- The island of an engine, and of a sum. -/
def engIsland (e : Nat) : Nat := e / 32
def sumIsland (i : Nat) : Nat := islandOf xSUM i

/-- An empty batch. -/
def newBatch (e d : Nat) : Batch :=
  { e := e, d := d, sums := [], tiles := [], blocks := 0, stage := .fixed, inputs := [], silent := [], late := [], quiet := [],
    black := [], rows := [], allotEnd := 0, built := [] }

/-- The windows `ys`, among all the windows `xs` that share `d`, join the batch of engine `e` there, which is not yet cut. -/
def State.joinBatch (s : State) (xs ys : List Win) (d e : Nat) : State :=
  let sums := (ys.filter (fun x => s.homeOf xs x = e)).map (fun x => ⟨x.idx, x.idx, x.k, x.view.bank⟩)
  let tiles := ys.flatMap (fun x => ((s.winTiles x).filter (fun t => t.1 = e)).map (fun t => ⟨t.2.1, x.idx, x.k, x.view.bank⟩))
  let s := if (s.batch e d).isSome then s else s.modMix (fun m => { m with batches := m.batches ++ [newBatch e d] })
  match s.batch e d with
  | some b =>
    if b.stage ≠ .fixed then s
    else s.setBatch { b with sums := b.sums ++ sums, tiles := b.tiles ++ tiles, blocks := b.blocks + s.blocksOn ys e }
  | none => s

/-- The window is already in a batch, or its cutoff has decided that it is not computed (R159). -/
def State.fixedAlready (s : State) (x : Win) : Bool :=
  s.mix.batches.any (fun b => b.sums.any (fun y => y.idx = x.idx && y.k = x.k)) ||
    s.mix.decided.any (fun y => y.1 = x.idx && y.2.1 = x.k)

/-- A window whose deadline instant is `d` is fixed 1 µs before its cutoff, with every other window of that instant whose fixing
instant has come by then and whose own cutoff has not; one whose cutoff has passed is not computed (R173, R444). -/
def State.fixAt (s : State) (x : Win) (d : Nat) : State :=
  if s.fixedAlready x then s
  else
    let xs := s.winsAt d
    let l := s.winLatency xs x
    if d < s.ns + l then s
    else
      let ys := xs.filter (fun y => l ≤ s.winLatency xs y && s.ns + s.winLatency xs y ≤ d && !s.fixedAlready y)
      (ys.flatMap s.winEngines).eraseDups.foldl (fun t e => t.joinBatch xs ys d e) s

/-- A window leaves no frame for want of a deadline instant: it counts, for its sum, when it opens (R170), in
every running state and whatever MIX_CTL.ENABLE says (DESIGN CHOICE, log 73). -/
def State.noDeadline (s : State) (x : Win) : State :=
  if x.w + smPeriod x.e ≤ s.ns then s else (s.runToNs x.w).bump F.ENG_NO_DEADLINE (sumIsland x.idx)

/-- The Clauses of the deadline port that the fixing of a window reads (R125, R173). -/
def State.readForFix (s : State) (x : Win) (upsets : List Nat) : State :=
  s.readClauses (s.deadlinePort x.view.bank x.e) x.w (x.w + smPeriod x.e - 1) upsets

/-- Window `k` of sum `i` is fixed (R170, R173): at its fixing instant the deadline instant is read anew. -/
def State.windowFix (s : State) (i k : Nat) (upsets : List Nat) : State :=
  match s.win i k with
  | none => s
  | some x =>
    match s.winDeadline x with
    | none => s.noDeadline x
    | some d =>
      if s.mix.unplaced then s.bump F.ENG_LATE_OUTPUT (sumIsland i)
      else
        let t := (s.runToNs (d - s.winLatency (s.winsAt d) x - 1000)).readForFix x upsets
        match t.winDeadline x with
        | none => t.noDeadline x
        | some d => t.fixAt x d

/-- WINDOW_FIX. -/
def execWindowFix (sum k : Nat) (s : State) (upsets : List Nat := []) : Host.Outcome State Fault Refusal :=
  .next (if s.phase = .running && s.pwr.state ≠ .standby then s.windowFix sum k upsets else s)

/-! ### Samples (R156 to R158) -/

/-- The lap tag of a media index in a ring. -/
def lapTag (ring n : Nat) : Nat := n / ring % 256

/-- Sample `n` of a context, when it is present. -/
def State.sampleAt (s : State) (c n : Nat) : Option Int :=
  match SMap.look s.mix.ctxs c with
  | none => none
  | some d =>
    let ring := cxRing (s.ctx c)
    if n ≤ d.fresh ∧ d.fresh < n + ring then
      match SMap.look d.slots (n % ring) with
      | some (v, t) => if t = lapTag ring n then some v else none
      | none => none
    else none

/-- The word address, in its island's store, of a slot of a context. -/
def State.slotWord (s : State) (c slot : Nat) : Nat := (SMap.val s.mix.store c []).getD (slot / 64) 0 * 64 + slot % 64

/-- The index of a word of an island's store among the entries with a parity error. -/
def storeIdx (island word : Nat) : Nat := island * 2 ^ 21 + word % 2 ^ 21

/-! ### What a sum reads (R164, R165, R174) -/

/-- The entry of a batch's member, and the start of its window. -/
def State.memSum (s : State) (x : Member) : List Nat := s.sum x.bank x.sum
def State.memStart (s : State) (x : Member) : Nat := windowAt (smPeriod (s.memSum x)) (smPhase (s.memSum x)) x.k

/-- The old gains while a window is the first of its sum under its bank (R165, R200); none elsewhere, or when the ramp has been
abandoned (R182). -/
def State.rampFor (s : State) (bank w period : Nat) : Option (List (Nat × Nat × Int)) :=
  match s.mix.pending.filter (fun x => x.bank = bank) with
  | some x =>
    if x.aeff * 1000000 ≤ w ∧ w < x.aeff * 1000000 + period then
      some (if s.mix.activated then s.gains s.operBank else [])
    else none
  | none =>
    if bank = s.operBank ∧ s.mix.lastAeff * 1000000 ≤ w ∧ w < s.mix.lastAeff * 1000000 + period then s.mix.ramp else none

/-- A product's context with its gain at the start and at the end of the period. -/
structure Mult where
  ctx : Nat
  old : Int
  new : Int
  deriving DecidableEq, Repr

/-- The products of a sum's own terms in a window. -/
def State.mults (s : State) (bank i w : Nat) : List Mult :=
  let e := s.sum bank i
  let ts := (s.sumTerms bank e).filter tmValid
  match s.rampFor bank w (smPeriod e) with
  | none => ts.map (fun t => ⟨tmCtx t, tmGain t, tmGain t⟩)
  | some g =>
    let mine := g.filter (fun x => x.1 = i)
    let oldOf := fun (c : Nat) => ((mine.find? (fun x => x.2.1 = c)).map (fun x => x.2.2)).getD 0
    ts.map (fun t => ⟨tmCtx t, oldOf (tmCtx t), tmGain t⟩) ++
      (mine.filter (fun x => ¬ ts.any (fun t => tmCtx t = x.2.1))).map (fun x => ⟨x.2.1, x.2.2, 0⟩)

/-- The product that a minus-one sum takes away: that of its parent's named term, none when that term is invalid. -/
def State.minusMult (s : State) (bank i w : Nat) : Option Mult :=
  let e := s.sum bank i
  if smKind e ≠ kMINUS then none
  else
    let t := s.term bank (smFirst (s.sum bank (smParent e)) + smParentTerm e)
    if tmValid t then (s.mults bank (smParent e) w).find? (fun m => m.ctx = tmCtx t) else none

/-- The products of a sum, its parent's among them. -/
def State.allMults (s : State) (bank i w : Nat) : List Mult :=
  let e := s.sum bank i
  (if smKind e = kMINUS then s.mults bank (smParent e) w else []) ++ s.mults bank i w

/-- S and the first media index that a sum reads in a window. -/
def State.readWindow (s : State) (bank i w : Nat) : Nat × Int :=
  let e := s.sum bank i
  let r := gpRate (s.group bank (smGroup e))
  (samplesIn (smPeriod e) r, (mediaAt w r : Int) - smDelay e)

/-- The samples that a member reads: context and media index. -/
def State.reads (s : State) (x : Member) : List (Nat × Int) :=
  if smKind (s.memSum x) = kVIDEO then []
  else
    let w := s.memStart x
    let (n, first) := s.readWindow x.bank x.sum w
    ((s.allMults x.bank x.sum w).map (fun m => m.ctx)).eraseDups.flatMap (fun c =>
      (List.range n).map (fun (j : Nat) => (c, first + (j : Int))))

/-! ### Cutoff (R159, R168, R169, R174) -/

/-- Presence is frozen for the batch; what is absent counts once per sample and is remembered (R159, R174). -/
def State.freeze (s : State) (b : Batch) : State :=
  let rs := (b.sums.flatMap s.reads).eraseDups
  let hit := rs.filterMap (fun r => if r.2 < 0 then none else (s.sampleAt r.1 r.2.toNat).map (fun v => (r.1, r.2, v)))
  let miss := rs.filter (fun r => r.2 < 0 || (s.sampleAt r.1 r.2.toNat).isNone)
  let s := s.bump F.ENG_ABSENT_SAMPLES (engIsland b.e) 0 miss.length
  let s := s.modMix (fun m =>
    { m with ctxs := m.ctxs.map (fun x =>
        let new := (miss.filter (fun r => r.1 = x.1 && 0 ≤ r.2)).map (fun r => r.2.toNat)
        (x.1, { x.2 with absentRead := (x.2.absentRead ++ new).eraseDups })) })
  s.setBatch { b with stage := .cut, inputs := hit }

/-- The rows due in a window of a video group: the first row number and the one after the last, counting all rows of all
pictures (R167). -/
def gpRowRange (g : List Nat) (w period : Nat) : Nat × Nat :=
  let t := picPeriod (gpPicRate g)
  (ceilDiv (w * t.2 * gpHeight g) t.1, ceilDiv ((w + period) * t.2 * gpHeight g) t.1)

/-- The picture whose row 0 is due in the window. -/
def gpPictureIn (g : List Nat) (w period : Nat) : Option Nat :=
  let (a, b) := gpRowRange g w period
  let n := ceilDiv a (gpHeight g)
  if n * gpHeight g < b then some n else none

/-- The 90 kHz count of a picture nearest to picture `n` of rate `code`, from its RTP timestamp. -/
def picCount (ts tsOff n code : Nat) : Int :=
  let t := picPeriod code
  let near : Int := (n * t.1 * 90000 / (t.2 * 1000000000) : Nat)
  near + toSigned 32 (ofSigned 32 ((ts : Int) - tsOff - near))

/-- The picture of count `x` starts in (t_n − 2 T, t_n − T] (R168). -/
def expectedAt (x : Int) (n code : Nat) : Bool :=
  let t := picPeriod code
  let c := x * 1000000000 * t.2
  decide (((n : Int) - 2) * t.1 * 90000 < c) && decide (c ≤ ((n : Int) - 1) * t.1 * 90000)

/-- The newest of the complete pictures of an input that satisfy `f`. -/
def State.newestPic (s : State) (v n : Nat) (f : Int → Bool) : Option Nat :=
  let e := s.videoEntry v
  let cnt := fun (p : Picture) => picCount p.ts (viTsOffset e) n (viRate e)
  let ps := (SMap.val s.mix.pictures v []).filter (fun p => p.complete && f (cnt p))
  (ps.foldl (fun (b : Option Picture) p =>
    match b with
    | some q => if cnt q < cnt p then some p else b
    | none => some p) none).map (fun p => p.slot)

/-- The slot that a source of a tile shows in picture `n`, with the counters that its absence moves. -/
def State.chooseSource (s : State) (m n : Nat) (black : Bool) (v : Nat) : Option Nat × State :=
  match s.newestPic v n (fun x => expectedAt x n (viRate (s.videoEntry v))) with
  | some k => (some k, s)
  | none => match if black then none else s.newestPic v n (fun _ => true) with
    | some k => (some k, s.bump F.ENG_VIDEO_HOLD m)
    | none => (none, s.bump F.ENG_VIDEO_BLACK m)

/-- Gains and inputs of a tile in picture `n` of rate `code` (R169), with the step and whether B alone is used. -/
def State.tileSources (s : State) (b n code : Nat) (t : List Nat) : List (Int × Nat) × Nat × Bool :=
  let c := s.cut b (tlCut t)
  let r := picPeriod code
  let first := ceilDiv (ctTime c * r.2) r.1
  let d := ctDissolve c
  let j := n - first
  let a := (tlGain t, tlSource t)
  if ¬ tlCutEn t ∨ n < first ∨ (n = first ∧ 0 < d) then ([a], 0, false)
  else if d < j ∨ d = 0 then ([(tlGain t, ctSource c)], 0, true)
  else
    let gb := (tlGain t * j).fdiv ((d : Int) + 1)
    ([(tlGain t - gb, tlSource t), (gb, ctSource c)], j, false)

/-- The picture of a tile is chosen for the whole of picture `n`. -/
def State.chooseTile (s : State) (x : Member) (n : Nat) (t : Nat) : State :=
  let sm := s.memSum x
  let code := gpPicRate (s.group x.bank (smGroup sm))
  let e := s.tile x.bank t
  let (src, step, done) := s.tileSources x.bank n code e
  let s := if tlCutEn e then s.setTab (cutTab x.bank (tlCut e) + 4) (done.toNat * 2 ^ 31 + step) else s
  let (l, s) := src.foldl (fun (acc : List (Int × Nat × Option Nat) × State) g =>
    let (k, u) := acc.2.chooseSource (sumIsland x.sum) n (smBlack sm) g.2
    (acc.1 ++ [(g.1, g.2, k)], u)) ([], s)
  s.modMix (fun m =>
    { m with choices :=
        m.choices.filter (fun c => ¬ (c.sum = x.sum ∧ c.tile = t ∧ (c.picture = n ∨ c.picture + 1 < n))) ++
          [⟨x.sum, t, n, e, l⟩] })

/-- The pictures of a video sum whose window holds row 0 are chosen. -/
def State.choosePictures (s : State) (x : Member) : State :=
  let e := s.memSum x
  if smKind e ≠ kVIDEO then s
  else match gpPictureIn (s.group x.bank (smGroup e)) (s.memStart x) (smPeriod e) with
    | none => s
    | some n => (sumTiles e).foldl (fun t k => t.chooseTile x n k) s

/-- The choice for a tile in picture `n`. -/
def State.choiceOf (s : State) (sum tile n : Nat) : Option TileChoice :=
  s.mix.choices.find? (fun c => c.sum = sum && c.tile = tile && c.picture = n)

/-- A source row that a tile needs: video input, slot, row, and the crop's first pixel and width, as the tile's choice for the
picture has them (R169). -/
structure RowNeed where
  input : Nat
  slot : Nat
  row : Nat
  left : Nat
  width : Nat
  deriving DecidableEq, Repr

/-- The source rows that a tile needs in a window (R161, R167). -/
def State.tileRows (s : State) (x : Member) (t : Nat) : List RowNeed :=
  let e := s.memSum x
  let g := s.group x.bank (smGroup e)
  let (a, b) := gpRowRange g (s.memStart x) (smPeriod e)
  ((List.range (b - a)).flatMap (fun j =>
    let r := (a + j) % gpHeight g
    match s.choiceOf x.sum t ((a + j) / gpHeight g) with
    | none => []
    | some c =>
      let y := c.entry
      if r < tlYout y ∨ tlYout y + tlHout y ≤ r then []
      else c.sources.flatMap (fun q => match q.2.2 with
        | none => []
        | some k => (List.range (tlDv y)).map (fun i =>
            ⟨q.2.1, k, tlY y + (r - tlYout y) * tlDv y + i, tlX y, tlW y⟩)))).eraseDups

/-- Where a source row's pgroups of the crop lie in its picture store. -/
def State.rowAt (s : State) (q : RowNeed) : Option Extent :=
  let e := s.videoEntry q.input
  let g := pgroupOctets (vi444 e)
  (cxlAt (entNum e 2)).map (fun a =>
    ⟨a.port, a.off + (q.slot * viHeight e + q.row) * viStride e + q.left / 2 * g, q.width / 2 * g⟩)

/-- A source row as the picture store holds it. -/
def State.rowBuf (s : State) (t : Nat) (q : RowNeed) : RowBuf :=
  ⟨t, q.input, q.slot, q.row, q.left, q.width, (s.rowAt q).elim [] (fun a => s.cxlRead a.port a.off a.len)⟩

/-- The rows of a fetch as reads of CXL memory on the ports that were mapped: whether all succeed (R270). -/
def State.readRows (s : State) (ports : List Nat) (rows : List RowNeed) : Bool × State :=
  let l := rows.filterMap s.rowAt
  (l.all (fun a => ports.contains a.port && !s.cxlPoisoned a.port a.off a.len),
    l.foldl (fun u a => u.countRead a.port a.off a.len) s)

/-- The ports that were mapped when the fetch for a tile and a deadline instant ended, if it has. -/
def State.fetchedAt (s : State) (t d : Nat) : Option (List Nat) :=
  (s.mix.fetched.find? (fun f => f.1 = t && f.2.1 = d)).map (fun f => f.2.2)

/-- Tile `t` of the video sum `x` at the sum's cutoff: its rows stand in its buffer, or, when their fetch has not completed, it is
black in this window (R161; log 71). -/
def State.checkFetch (s : State) (e d : Nat) (x : Member) (t : Nat) : State :=
  let rows := s.tileRows x t
  match s.batch e d with
  | none => s
  | some b =>
    if rows = [] then s
    else
      let (ok, u) := match s.fetchedAt t d with
        | some ports => s.readRows ports rows
        | none => (false, s)
      if ok then u.setBatch { b with rows := b.rows ++ rows.map (s.rowBuf t) }
      else (u.setBatch { b with black := b.black ++ [t] }).bump F.ENG_VIDEO_BLACK (engIsland e)

/-- A video sum at its cutoff, that of its longest tile batch (R172): its pictures are chosen, and its tiles looked at. -/
def State.cutVideo (s : State) (e d : Nat) (x : Member) : State :=
  let y := s.memSum x
  if smKind y ≠ kVIDEO then s
  else
    let s := (sumTiles y).foldl (fun t k => t.checkFetch e d x k) (s.choosePictures x)
    s.modMix (fun m => { m with fetched := m.fetched.filter (fun f => ¬ (f.2.1 ≤ d ∧ (sumTiles y).contains f.1)) })

/-- The windows of a batch are decided: they are not computed, and are not fixed again before their deadline instant (R159). -/
def State.decide' (s : State) (b : Batch) : State :=
  s.modMix (fun m => { m with
    decided := m.decided.filter (fun y => s.ns < y.2.2) ++ b.sums.map (fun x => (x.idx, x.k, b.d)) })

/-- The cutoff of a batch: it computes only in OPERATIONAL with ENABLE at 1; otherwise its sums produce no frame and count
nothing (R159). -/
def State.cutoff (s : State) (b : Batch) : State :=
  let s := s.runToNs (b.d - batchLatency b.blocks)
  if s.op ≠ .operational ∨ ¬ s.on F.MIX_CTL.ENABLE then
    ((s.dropBatch b.e b.d).decide' b).mapBatches b.d (fun x => { x with quiet := (x.quiet ++ b.serves).eraseDups })
  else b.sums.foldl (fun t x => t.cutVideo b.e b.d x) (s.freeze b)

/-- BATCH_CUTOFF. -/
def execBatchCutoff (e d : Nat) (s : State) : Host.Outcome State Fault Refusal :=
  .next (match s.batch e d with
    | none => s
    | some b => if b.stage = .fixed then s.cutoff b else s)

/-- The memory island can fetch for tile `t`: CXM runs, a bank in use has the tile, and one of its video inputs lies on a port that is
MAPPED (R270). -/
def State.canFetch (s : State) (t : Nat) : Bool :=
  s.phase = .running && s.on F.CXM_CTL.ENABLE && s.liveBanks.any (fun b =>
    (s.tilesOf b).contains t && (s.tileInputs b t).any (fun v =>
      (cxlAt (entNum (s.videoEntry v) 2)).any (fun a => s.mapped a.port)))

/-- ROW_FETCH_DONE: the memory island has fetched the rows of a tile for the window of deadline instant `d`, which need not be fixed
yet, or failed to (R161). -/
def execRowFetchDone (tile d : Nat) (ok : Bool) (s : State) : Host.Outcome State Fault Refusal :=
  .next (
    if ok && s.ns ≤ d && s.canFetch tile && (s.fetchedAt tile d).isNone then
      s.modMix (fun m => { m with fetched := m.fetched ++ [(tile, d, (List.range s.nCxl).filter s.mapped)] })
    else s)

/-! ### Parity errors (R180, R181) -/

/-- The entries that the engine of a sum's batch reads for it, the contexts of the old bank's terms in a ramp among them: code among
the tables with parity, and index. -/
def State.usedBy (s : State) (x : Member) : List (Nat × Nat) :=
  let e := s.memSum x
  let b := x.bank
  let own := fun (i : Nat) (y : List Nat) => (badMix xSUM, banked b i) ::
    (if smKind y = kVIDEO then [] else (sumTiles y).map (fun t => (badMix xTERM, banked b t)))
  (badMix xGROUP, banked b (smGroup e)) :: own x.sum e ++
    (if smKind e = kMINUS then own (smParent e) (s.sum b (smParent e)) else []) ++
    (if smKind e = kVIDEO then []
     else ((s.allMults b x.sum (s.memStart x)).map (fun m => m.ctx)).eraseDups.map (fun c => (badMix xCTX, c)))

/-- The entries that the engine of a tile's batch reads for it: the tile and its cut. -/
def State.usedByTile (s : State) (x : Member) : List (Nat × Nat) :=
  let y := s.tile x.bank x.idx
  (badMix xTILE, banked x.bank x.idx) :: (if tlCutEn y then [(badMix xCUT, banked x.bank (tlCut y))] else [])

/-- The store words that a member's samples are read from. -/
def State.wordsOf (s : State) (x : Member) : List Nat :=
  (s.reads x).filterMap (fun r =>
    if r.2 < 0 ∨ ¬ s.allocated r.1 then none
    else some (storeIdx (islandOf xCTX r.1) (s.slotWord r.1 (r.2.toNat % cxRing (s.ctx r.1)))))

/-- A word of a tile's row buffers. -/
def State.tileWord (s : State) (x : Member) (idx : Nat) : Bool :=
  idx / 2 ^ 21 = islandOf xTILE x.idx && (SMap.val s.mix.store (tileKey x.bank x.idx) []).contains (idx % 2 ^ 21 / 64)

/-- A store word is read with a parity error (R180). -/
def State.storeParity (s : State) (idx : Nat) : State :=
  let m := idx / 2 ^ 21
  let w := idx % 2 ^ 21
  let s := s.bump F.ENG_STORE_PARITY m
  let s := if s.on F.ENG_PARITY.VALID m then s else (s.setf F.ENG_PARITY.VALID 1 m).setf F.ENG_PARITY.ADDRESS w m
  s.raise 40 (m + w * 2 ^ 4)

/-- An entry of a mix table is read with a parity error (R181): a binding belongs to no island. -/
def State.tableParity (s : State) (table idx : Nat) : State :=
  let i := if table = xBIND ∨ table = xCTX then idx else idx % 2 ^ 22
  let s := if table = xBIND then s else s.bump F.ENG_TABLE_PARITY (islandOf table i)
  s.raise 41 (table * 2 ^ 28 + i)

/-- An upset of the allotment: a table entry, or (table 7) a word of an island's store. -/
def State.noteUpset (s : State) (bank : Nat) (u : Upset) : State :=
  if u.table = 7 then s.markBad badStore (u.index % 2 ^ 25)
  else if u.table = xCTX then s.markBad (badMix xCTX) u.index
  else s.markBad (badMix u.table) (banked bank u.index)

/-- What the batch reads with a parity error: its sums produce no output, and each entry or word counts once. -/
def State.batchParity (s : State) (b : Batch) (upsets : List Upset) : State :=
  let bank := ((b.sums ++ b.tiles).head?.map (fun x => x.bank)).getD 0
  let s := upsets.foldl (fun t u => t.noteUpset bank u) s
  let badE := fun (l : List (Nat × Nat)) => l.filter (fun z => s.bad.contains z)
  let words := (s.bad.filter (fun z => z.1 = badStore)).map (fun z => z.2)
  let hit := b.sums.map (fun x => (x.sum, badE (s.usedBy x), (s.wordsOf x).filter words.contains)) ++
    b.tiles.map (fun x => (x.sum, badE (s.usedByTile x), words.filter (s.tileWord x)))
  let t := s.silence b.d ((hit.filter (fun h => h.2.1 ≠ [] || h.2.2 ≠ [])).map (fun h => h.1))
  let t := (hit.flatMap (fun h => h.2.1)).eraseDups.foldl (fun t z => t.tableParity (z.1 - 16) z.2) t
  let t := (hit.flatMap (fun h => h.2.2)).eraseDups.foldl State.storeParity t
  (words.filter (fun w => b.tiles.any (fun x => s.tileWord x w))).foldl (fun t w => t.clearBad badStore w) t

/-! ### The allotment (R172, R175) -/

/-- When engine `e` is free of allotments that began. -/
def State.engineFree (s : State) (e : Nat) : Nat :=
  ((s.mix.batches.filter (fun b => b.e = e && (b.stage = .running || b.stage = .done))).map (fun b => b.allotEnd)).foldl max 0

/-- The sums `is` are late at `d` and produce nothing; each counts once (R175). -/
def State.lateSums (s : State) (d : Nat) (is : List Nat) : State :=
  let new := is.filter (fun i => ¬ s.mix.batches.any (fun b => b.d = d && (b.late.contains i || b.quiet.contains i)))
  let t := (s.silence d is).mapBatches d (fun x => { x with late := x.late ++ new })
  new.foldl (fun t i => t.bump F.ENG_LATE_OUTPUT (sumIsland i)) t

/-- The allotment of a batch begins; a batch whose frames would be ready after D is late. -/
def State.allot (s : State) (b : Batch) (upsets : List Upset) : State :=
  let start := max (b.d - batchLatency b.blocks + 200) (s.engineFree b.e)
  let s := s.runToNs start
  let fin := start + allotment b.blocks
  let s := (s.setBatch { b with stage := .running, allotEnd := fin }).batchParity b upsets
  if fin + 600 ≤ b.d then s else s.lateSums b.d b.serves

/-- ALLOTMENT_START: `upsets` are the entries, and under table 7 the store words (island × 2^21 plus word address), that the
reading finds with a parity error. -/
def execAllotmentStart (e d : Nat) (upsets : List Upset) (s : State) : Host.Outcome State Fault Refusal :=
  .next (match s.batch e d with
    | none => s
    | some b => if b.stage = .cut then s.allot b upsets else s)

/-- What a step of network time does to batches fixed before it (R444): their sums count once each, but those that were late already
and those that count nothing. -/
def State.abandonBatches (s : State) : State :=
  let is := (s.mix.batches.flatMap (fun b =>
    (b.sums.filter (fun x => ¬ (b.late.contains x.sum ∨ b.quiet.contains x.sum))).map (fun x => (x.sum, x.k)))).eraseDups
  let s := is.foldl (fun t x => t.bump F.ENG_LATE_OUTPUT (sumIsland x.1)) s
  s.modMix (fun m => { m with batches := [], decided := [], fetched := [] })

/-! ### Rebalancing (R179) -/

/-- What a unit adds in the millisecond from now, when it computes. -/
def State.unitLoad (s : State) (b : Nat) : PlaceItem → List (Nat × Nat)
  | .fam f => s.famLoad b s.ns f
  | .tile i t => s.tileLoad b s.ns i t

/-- The engine of a unit. -/
def unitEngine (p : Placement) : PlaceItem → Nat
  | .fam f => placedOn p.sums (f.headD 0)
  | .tile _ t => placedOn p.tiles t

/-- All loads of a bank under a placement, from now. -/
def State.allLoads (s : State) (b : Nat) (p : Placement) : Loads :=
  ((s.families b).flatMap (fun f => onEngine (unitEngine p (.fam f)) (s.unitLoad b (.fam f)))) ++
    (s.sumTilesOf b).flatMap (fun x => onEngine (unitEngine p (.tile x.1 x.2)) (s.unitLoad b (.tile x.1 x.2)))

/-- The loads without what a unit adds on its engine. -/
def without (l : Loads) (x : Loads) : Loads := x.foldl (fun l y => l.erase y) l

/-- The latency of the batch of engine `e` at the deadline instant `d`; none without one. -/
def latencyAt (l : Loads) (e d : Nat) : Nat := if l.any (fun x => x.1 = e && x.2.1 = d) then batchLatency (loadAt l e d) else 0

/-- The larger latency of the source batch `a` and the destination batch `e`, at the worst of a unit's deadline instants. -/
def pairLatency (l : Loads) (add : List (Nat × Nat)) (a e : Nat) : Nat :=
  (add.map (fun x => max (latencyAt l a x.1) (latencyAt l e x.1))).foldl max 0

/-- Moving a unit to engine `e` lowers the larger of the source and destination batches' latencies and breaks no condition of
R178. -/
def moveHelps (l : Loads) (add : List (Nat × Nat)) (a e : Nat) : Bool :=
  let l' := without l (onEngine a add) ++ onEngine e add
  e ≠ a && pairLatency l' add a e < pairLatency l add a e && (engineFault l' e).isNone

/-- A placement with a unit on engine `e`. -/
def moveUnit (p : Placement) (e : Nat) : PlaceItem → Placement
  | .fam f => { p with sums := p.sums.map (fun x => if f.contains x.1 then (x.1, e) else x) }
  | .tile _ t => { p with tiles := p.tiles.map (fun x => if x.1 = t then (x.1, e) else x) }

/-- What a unit's move from engine `a` leaves to its old engine: the windows that began before now (R26). -/
def State.movedBy (s : State) (b a : Nat) : PlaceItem → List Moved
  | .fam f => f.map (fun i => ⟨b, false, i, a, s.ns⟩)
  | .tile _ t => [⟨b, true, t, a, s.ns⟩]

/-- The moves whose old windows, of 1 ms at most, may last. -/
def State.lastingMoves (s : State) : List Moved := s.mix.moved.filter (fun x => s.ns < x.since + 1000000)

/-- The sum by whose index a unit comes in turn: the lowest of a family, or the tile's. -/
def PlaceItem.sumIndex : PlaceItem → Nat
  | .fam f => f.headD 0
  | .tile i _ => i

def insertBySum (x : PlaceItem) : List PlaceItem → List PlaceItem
  | [] => [x]
  | y :: r => if x.sumIndex ≤ y.sumIndex then x :: y :: r else y :: insertBySum x r

/-- The unpinned units of island `m` in ascending sum index, the tiles of one sum in ascending tile index. -/
def State.movable (s : State) (b m : Nat) : List PlaceItem :=
  (((s.families b).filter (fun f => islandOf xSUM (f.headD 0) = m && s.pins b f = [])).map PlaceItem.fam ++
    ((s.sumTilesOf b).filter (fun x => islandOf xTILE x.2 = m && !tlPin (s.tile b x.2))).map
      (fun x => PlaceItem.tile x.1 x.2)).foldr insertBySum []

/-- A pass over the units: the placement, the units moved with the engines that they leave, and whether some move needs an engine
outside ENG_ALLOW. -/
structure Moving where
  place : Placement
  moves : List (Nat × PlaceItem)
  held : Bool
  deriving DecidableEq, Repr

/-- The pass looks at one unit: it moves to the allowed engine that R178 would choose among those where the move helps. -/
def State.tryMove (s : State) (b m budget : Nat) (v : Moving) (u : PlaceItem) : Moving :=
  let l := s.allLoads b v.place
  let add := s.unitLoad b u
  let a := unitEngine v.place u
  let es := ((List.range 32).map (fun e => 32 * m + e)).filter (moveHelps l add a)
  let cost := fun (e : Nat) => (add.map (fun x => loadAt l e x.1)).foldl max 0
  match (es.filter (fun e => s.fbit F.ENG_ALLOW.ALLOW (e % 32) m)).foldl (fun (c : Option Nat) e =>
    match c with
    | some q => if cost e < cost q then some e else c
    | none => some e) none with
  | none => { v with held := v.held || !es.isEmpty }
  | some e => if v.moves.length < budget then { v with place := moveUnit v.place e u, moves := v.moves ++ [(a, u)] } else v

/-- Rebalancing of island `m` at a window boundary. -/
def State.rebalance (s : State) (m : Nat) : State :=
  let b := s.operBank
  let p := SMap.val s.mix.placed b ⟨[], []⟩
  let v := (s.movable b m).foldl (s.tryMove b m (s.fld F.MIX_REBAL.MAX_MOVES)) ⟨p, [], false⟩
  let new := s.lastingMoves ++ v.moves.flatMap (fun x => s.movedBy b x.1 x.2)
  let s := (s.bump F.ENG_MOVES m 0 v.moves.length).setf F.ENG_STATUS.PINNED v.held.toNat m
  let s := if v.held then s.bump F.ENG_REBAL_CONFLICT m else s
  (s.modMix (fun x => { x with placed := SMap.put x.placed b v.place, moved := new })).showPlacement b v.place

/-- REBALANCE: the window boundaries lie at the multiples of 125 µs of network time. -/
def execRebalance (m : Nat) (s : State) : Host.Outcome State Fault Refusal :=
  atUnit (m < s.nIslands) s
    (if s.phase = .running && s.on F.MIX_CTL.REBAL_EN && s.mix.activated && !s.mix.unplaced then
      (s.runToNs ((s.ns / 125000 + 1) * 125000)).rebalance m
    else s)

end Sys2Proof.Machine
end

