-- ==== Sys2Proof/Machine/Ptp.lean ====
section
/-! DEFINITION. PTP, link delay and live calibration (R249 to R263): Sync, offsets and SYNCED, Pdelay exchanges, probes, the
commands CAL_START and CAL_RESULT. -/

namespace Sys2Proof.Machine

/-! ### Link delay in use (R258, R263) -/

/-- The source in use is the probes. -/
def State.probeSource (s : State) (p : Nat) : Bool :=
  s.on F.TSU_CTL.DELAY_SRC p && s.on F.PRT_PARTNER.VALID p && s.on F.PRT_PARTNER.PROBE p && s.on F.TSU_STATUS.CAL_CONVERGED p

/-- Cable length in decimetres for a mean delay in 2^-16 ns, rounded half up (R263); 0xFFFF being the value of no delay, a longer
cable reads 0xFFFE (DESIGN CHOICE, log 73). -/
def cableDm (delay : Int) (vf : Nat) : Nat :=
  if delay < 0 then 0
  else min ((delay.toNat * 299792458 * vf * 10 * 2 + 65536 * 10 ^ 12) / (2 * 65536 * 10 ^ 12)) 0xFFFE

/-- SOURCE, TSU_LINK_DELAY and the cable length follow the source in use; a source that has given no result yet leaves the last
value (DESIGN CHOICE, log 73), and so does STANDBY with its entry (R264). -/
def State.refreshDelay (s : State) (p : Nat) : State :=
  let pr := s.probeSource p
  let x := (s.port p).tsu
  let d := if pr then x.prDelay else x.pdDelay
  let none' : Bool := if pr then x.prDelays.isEmpty else x.pdMeans.isEmpty
  let s := s.setf F.TSU_STATUS.SOURCE pr.toNat p
  if s.on F.TSU_STATUS.DELAY_VALID p && !none' && s.pwr.state ≠ .standby && s.pwr.entry.isNone then
    (s.setf F.TSU_LINK_DELAY (ofSigned 32 d) p).setf F.TSU_CABLE.LENGTH_DM (cableDm d (s.fld F.TSU_CABLE.VF p)) p
  else s

/-- The mean link delay, and the receive one-way delay that other chapters use (R258). -/
def State.meanDelay (s : State) (p : Nat) : Int := s.fldS F.TSU_LINK_DELAY p
def State.rxDelay (s : State) (p : Nat) : Int := s.meanDelay p + s.fldS F.TSU_ASYM p

/-- A result of port `p` is accepted: DELAY_VALID, and STALE clears when the source in use brought it. -/
def State.accepted (s : State) (p : Nat) (probe : Bool) : State :=
  let s := s.setf F.TSU_STATUS.DELAY_VALID 1 p
  let s := s.refreshDelay p
  if s.probeSource p = probe then s.setf F.TSU_STATUS.STALE 0 p else s

/-- The average of a list, rounded down; zero for none. -/
def avg (l : List Int) : Int := if l.isEmpty then 0 else (l.foldl (· + ·) 0).fdiv l.length

/-- nrr − 1 in 2^-32 from the newest and the eighth older of a list of (numerator, denominator) stamps (R257); nrr is 1
before there are nine (DESIGN CHOICE, log 73). -/
def nrrOf (l : List (Int × Int)) : Int :=
  match l.head?, l[8]? with
  | some a, some b => if a.2 = b.2 then 0 else (((a.1 - b.1) - (a.2 - b.2)) * (2 ^ 32 : Nat)).fdiv (a.2 - b.2)
  | _, _ => 0

/-! ### Synchronisation (R254, R255) -/

/-- Codes of NTM_CTL.ROLE. -/
def State.roleSlave (s : State) : Bool := s.fld F.NTM_CTL.ROLE = 1
def State.slavePort (s : State) (p : Nat) : Bool := s.roleSlave && s.fld F.NTM_CTL.SLAVE_PORT = p

/-- SYNCED takes a value; a fall raises NTM_SYNC_LOST. -/
def State.setSynced (s : State) (b : Bool) : State :=
  let was := s.on F.NTM_STATUS.SYNCED
  let s := s.setf F.NTM_STATUS.SYNCED b.toNat
  if was && !b then (s.bump F.NTM_SYNC_LOST_EVENTS).raise 34 0 else s

/-- All of the last 8 offsets lie within the limit. -/
def State.offsetsIn (s : State) : Bool :=
  let l := s.time.offsets.take 8
  l.length = 8 && l.all (fun o => o.natAbs ≤ s.fld F.NTM_SYNC.LIMIT * 65536)

/-- The local time at which NTM_SYNC.TIMEOUT runs out after the last Sync, or after power-on while none has come. -/
def State.syncLimit (s : State) : Nat := s.time.lastSync.getD s.time.syncFrom + s.fld F.NTM_SYNC.TIMEOUT * ltMs

/-- A Sync arrived within NTM_SYNC.TIMEOUT. -/
def State.syncRecent (s : State) : Bool := s.time.lastSync.isSome && s.lt < s.syncLimit

/-- SYNCED by the role in force. -/
def State.resync (s : State) : State :=
  match s.fld F.NTM_CTL.ROLE with
  | 1 => s.setSynced (s.offsetsIn && s.syncRecent)
  | 2 => s.setSynced (s.on F.NTM_CTL.GM_SYNCED)
  | _ => s.setSynced false

/-- An offset is formed on the slave port: record, run of offsets within the limit, SYNCED. -/
def State.takeOffset (s : State) (p : Nat) (rx corr origin : Int) (len : Nat) (msg : List Byte) : State :=
  let off := rx - (origin + corr + s.meanDelay p + s.fldS F.TSU_ASYM p)
  let s := (s.bump F.SYNC_RX p).hostRing p 2 (s.ringFlags p len true) len rx off msg
  let s := s.modTime (fun x => { x with offsets := (off :: x.offsets).take 8 })
  let inLim : Bool := off.natAbs ≤ s.fld F.NTM_SYNC.LIMIT * 65536
  let s := s.setf F.NTM_STATUS.IN_LIMIT_RUN (if inLim then min 8 (s.fld F.NTM_STATUS.IN_LIMIT_RUN + 1) else 0)
  s.resync

/-- A Sync or a Follow_Up on the slave port (R254); `rx` is the receive stamp. A Follow_Up that matches no Sync is an
ordinary message. -/
def State.slaveSync (s : State) (p : Nat) (l : List Byte) (k : Nat) (rx : Int) : State :=
  let msg := l.drop k
  let len := ptpLength l k
  if ptpType l k = 0 then
    let s := (s.modTime (fun x => { x with lastSync := some s.lt })).setf F.NTM_STATUS.SYNC_TIMEOUT 0
    if ptpTwoStep l k then
      (s.modTime (fun x =>
        { x with twoStep := some ⟨ptpSeq l k, rx, ptpCorr l k, s.lt, s.sideOf p (s.rxPoint p l)⟩ })).resync
    else s.takeOffset p rx (ptpCorr l k) (ptpTimeAt l (k + 34)) len msg
  else
    match s.time.twoStep with
    | some w =>
      if w.seq = ptpSeq l k ∧ s.lt ≤ w.at' + 100 * ltMs then
        let s := s.modTime (fun x => { x with twoStep := none })
        if w.side ≠ (s.port p).tsu.side then s.bump F.EXCHANGE_DROP p
        else s.takeOffset p w.rx (w.corr + ptpCorr l k) (ptpTimeAt l (k + 34)) len msg
      else s.hostRing p 1 (s.ringFlags p len false) len rx 0 msg
    | none => s.hostRing p 1 (s.ringFlags p len false) len rx 0 msg

/-! ### Pdelay (R257) -/

/-- t2 as a Pdelay_Resp gives it: its timestamp less its correction (IEEE 1588-2019, log 16). -/
def respT2 (l : List Byte) (k : Nat) : Int := ptpTimeAt l (k + 34) - ptpCorr l k

/-- A Pdelay_Req is answered two-step: t2 in the Pdelay_Resp, whose departure brings the follow-up. -/
def State.answerPdelay (s : State) (p : Nat) (l : List Byte) (k : Nat) (rx : Int) : State :=
  let side := s.sideOf p (s.rxPoint p l)
  let t := s.sendPtp p kPDRESP (s.pdelayFrame p 3 true (-((stampSub rx : Nat) : Int)) (ptpSeq l k) (ptpTime rx ++ ptpSource l k))
  match (t.port p).ctrl.getLast? with
  | some c =>
    if isPtp c && c.fid ∉ (s.port p).ctrl.map (fun x => x.fid) then
      t.modTsu p (fun x => { x with resps := (x.resps ++ [(c.fid, side)]).drop (x.resps.length - 63) })
    else t
  | none => t

/-- The exchange is complete: `t3` is the partner's second stamp; `oneStep` says that only t3 − t2 is known: nrr is
then what TSU_NRR holds (DESIGN CHOICE, log 73). -/
def State.pdComplete (s : State) (p : Nat) (o : PdOpen) (t1 t2 t3 t4 : Int) (oneStep : Bool) : State :=
  let s := s.modTsu p (fun x => { x with pdOpen := none })
  if o.side ≠ o.side4 then s.bump F.EXCHANGE_DROP p
  else
    let hist := (⟨t1, t2, t3, t4⟩ :: (s.port p).tsu.pdHist).take 9
    let nrr := if oneStep then s.fldS F.TSU_NRR p else nrrOf (hist.map (fun x => (x.t3, x.t4)))
    let mean := (((t4 - t1) * ((2 ^ 32 : Nat) + nrr)).fdiv (2 ^ 32 : Nat) - (t3 - t2)).fdiv 2
    let means := (mean :: (s.port p).tsu.pdMeans).take 8
    let s := s.modTsu p (fun x =>
      { x with pdHist := if oneStep then x.pdHist else hist, pdMeans := means, pdDelay := avg means, pdLast := s.lt })
    (s.setf F.TSU_NRR (ofSigned 32 nrr) p).accepted p false

/-- A Pdelay_Resp, or its follow-up, for the exchange that is open; `rx` is its receive stamp, on side `side`. -/
def State.takeResp (s : State) (p : Nat) (l : List Byte) (k : Nat) (rx : Int) (side : Nat) : State :=
  match (s.port p).tsu.pdOpen with
  | none => s
  | some o =>
    if o.seq ≠ ptpSeq l k then s
    else if ptpType l k = 3 then
      if ptpTwoStep l k then
        s.modTsu p (fun x => { x with pdOpen := some { o with t2 := some (respT2 l k), t4 := some rx, side4 := side } })
      else
        match o.t1 with
        | some t1 => s.pdComplete p { o with side4 := side } t1 0 (ptpCorr l k) rx true
        | none => s
    else
      match o.t1, o.t2, o.t4 with
      | some t1, some t2, some t4 => s.pdComplete p o t1 t2 (ptpTimeAt l (k + 34) + ptpCorr l k) t4 false
      | _, _, _ => s

/-! ### Any received PTP message (R251) -/

/-- Where the PTP message of a frame at port `p` starts; none when the frame carries none. -/
def State.ptpAt (s : State) (p : Nat) (l : List Byte) : Option Nat := ptpOff s.ptpTransport (s.fld F.PRT_TAG.TPID p) l

/-- What the device does with a received PTP message at `k`. -/
def State.takePtp (s : State) (p : Nat) (l : List Byte) (k : Nat) : State :=
  let rx := s.rxStamp p (s.rxPoint p l)
  let ty := ptpType l k
  let len := ptpLength l k
  let msg := l.drop k
  if !s.on F.NTM_CTL.ENABLE then s.bump F.PTP_DISCARD p
  else if ptpDomainAt l k ≠ s.ptpDomain then s.hostRing p 4 (s.ringFlags p len false) len rx 0 msg
  else if ty = 2 then (if s.on F.TSU_CTL.PDELAY_EN p then s.answerPdelay p l k rx else s)
  else if ty = 3 ∨ ty = 10 then (if s.on F.TSU_CTL.PDELAY_EN p then s.takeResp p l k rx (s.sideOf p (s.rxPoint p l)) else s)
  else if (ty = 0 ∨ ty = 8) ∧ s.slavePort p then s.slaveSync p l k rx
  else s.hostRing p (if ty < 8 then 3 else 1) (s.ringFlags p len false) len rx 0 msg

/-- A frame with a PTP message arrives at port `p`; a frame without one has no effect under this row. -/
def State.rxPtp (s : State) (p : Nat) (octets : List Byte) : State :=
  match s.ptpAt p octets with
  | none => s
  | some k => s.rxLocal p octets (fun t => t.takePtp p octets k)

/-- PTP_MESSAGE_RX: any PTP message. -/
def execPtpMessageRx (p : Nat) (octets : List Byte) (s : State) : Host.Outcome State Fault Refusal :=
  atUnit (p < s.nPorts) s (s.rxPtp p octets)

/-- SYNC_RX: a Sync or Follow_Up. -/
def execSyncRx (p : Nat) (octets : List Byte) (s : State) : Host.Outcome State Fault Refusal :=
  atUnit (p < s.nPorts) s (s.rxPtp p octets)

/-- PDELAY_REQ_RX: a Pdelay_Req. -/
def execPdelayReqRx (p : Nat) (octets : List Byte) (s : State) : Host.Outcome State Fault Refusal :=
  atUnit (p < s.nPorts) s (s.rxPtp p octets)

/-- PDELAY_RESP_RX: a Pdelay_Resp or its follow-up. -/
def execPdelayRespRx (p : Nat) (octets : List Byte) (s : State) : Host.Outcome State Fault Refusal :=
  atUnit (p < s.nPorts) s (s.rxPtp p octets)

/-! ### Sync transmission and timeout (R253, R255) -/

/-- An interval of 2^log seconds in ns, for a signed log of at least −7. -/
def logNs (log : Int) : Nat := if 0 ≤ log then 1000000000 * 2 ^ log.toNat else 1000000000 / 2 ^ (-log).toNat

/-- The next instant after now that is a multiple of `i` plus `off`, in ns. -/
def State.nextMultiple (s : State) (i off : Nat) : Nat := (s.ns + i - off % i) / i * i + off % i

/-- A Sync falls due on a MASTER port: one still queued is replaced. -/
def State.sendSync (s : State) (p : Nat) : State :=
  let isSync := fun (c : Copy) => c.origin = .control kSYNC
  let old := (s.port p).ctrl.filter isSync
  let s := old.foldl (fun t c => ((t.bump F.SYNC_SKIPPED p).leftClass p c).release c.fid)
    (s.modPort p (fun d => { d with ctrl := d.ctrl.filter (fun c => !isSync c) }))
  match s.template p with
  | none => s.bump F.PTP_DISCARD p
  | some l => s.sendControl p kSYNC l

/-- A frame that falls due at an instant in ns is sent by `f` where the state permits; during a takeover every port sends idles, and
it counts in `skipped` (R356 step 1). -/
def State.sendAt (s : State) (p n : Nat) (skipped : Field) (f : State → State) : State :=
  if s.pair.takeover.isSome then (s.runToNs n).bump skipped p else if s.controlMay then f (s.runToNs n) else s

/-- SYNC_TX: each Sync interval plus 2 µs × p (R253). -/
def execSyncTx (p : Nat) (s : State) : Host.Outcome State Fault Refusal :=
  atUnit (p < s.nPorts) s
    (if s.phase = .running && s.on F.NTM_CTL.ENABLE && s.fld F.TSU_CTL.PTP_ROLE p = 1 && !s.slavePort p then
      s.sendAt p (s.nextMultiple (logNs (s.fldS F.NTM_PTP.SYNC_LOG)) (2000 * p)) F.SYNC_SKIPPED (fun t => t.sendSync p)
    else s)

/-- SYNC_TIMEOUT: no Sync within NTM_SYNC.TIMEOUT of the last one, whatever the role. -/
def execSyncTimeout (s : State) : Host.Outcome State Fault Refusal :=
  .next (if s.on F.NTM_STATUS.SYNC_TIMEOUT || s.phase ≠ .running then s
    else ((s.runToLt s.syncLimit).setf F.NTM_STATUS.SYNC_TIMEOUT 1).resync)

/-! ### Starting Pdelay exchanges, timeouts, staleness (R257, R258) -/

/-- A Pdelay exchange starts; one still open is incomplete only at its own timeout. -/
def State.startPdelay (s : State) (p : Nat) : State :=
  let seq := ((s.port p).tsu.pdSeq + 1) % 65536
  match s.pdelayFrame p 2 false 0 seq (List.replicate 20 0) with
  | none => s.bump F.PTP_DISCARD p
  | some l =>
    let s := s.modTsu p (fun x =>
      { x with pdSeq := seq, pdOpen := some ⟨seq, s.lt + 10 * ltMs, none, none, none, x.side, x.side⟩ })
    s.sendControl p kPDREQ l

/-- PDELAY_REQ_TX: each Pdelay interval. -/
def execPdelayReqTx (p : Nat) (s : State) : Host.Outcome State Fault Refusal :=
  atUnit (p < s.nPorts) s
    (if s.phase = .running && s.on F.NTM_CTL.ENABLE && s.on F.TSU_CTL.PDELAY_EN p && s.controlMay then
      (s.runToNs (s.nextMultiple (logNs (s.fldS F.TSU_CTL.PDELAY_LOG p)) 0)).startPdelay p
    else s)

/-- PDELAY_TIMEOUT: the exchange is not complete within 10 ms. -/
def execPdelayTimeout (p : Nat) (s : State) : Host.Outcome State Fault Refusal :=
  atUnit (p < s.nPorts) s
    (match (s.port p).tsu.pdOpen with
     | none => s
     | some o => ((s.runToLt o.until').modTsu p (fun x => { x with pdOpen := none })).bump F.PDELAY_LOST p)

/-- How long the source in use may bring nothing (R258). -/
def State.staleAfter (s : State) (p : Nat) : Nat :=
  if s.probeSource p then 100 * ltMs else 3 * logNs (s.fldS F.TSU_CTL.PDELAY_LOG p) * ltNs

/-- DELAY_STALE: the source in use has brought no accepted result for its time. -/
def execDelayStale (p : Nat) (s : State) : Host.Outcome State Fault Refusal :=
  let x := (s.port p).tsu
  atUnit (p < s.nPorts) s
    (if s.on F.TSU_STATUS.DELAY_VALID p && !s.on F.TSU_STATUS.STALE p then
      let t := s.runToLt ((if s.probeSource p then x.prLast else x.pdLast) + s.staleAfter p)
      (t.setf F.TSU_STATUS.STALE 1 p).raise 35 p
    else s)

/-! ### Probes (R259 to R262) -/

/-- A probe's pin stamp as its octets carry it: seconds (6), nanoseconds (4), 2^-16 ns (2). -/
def pinOctets (t : Int) : List Byte := ptpTime t ++ beOctets 2 (stampSub t)
def pinAt (l : List Byte) (k : Nat) : Int := ptpTimeAt l k + (oct2 l (k + 10) : Nat)

/-- The port's address, which a template's SA gives (log 18). -/
def State.portSa (s : State) (p : Nat) : Nat :=
  match s.template p with
  | some l => saOf l
  | none => 0

/-- The next probe of port `p`: 60 octets before the FCS. -/
def State.probeFrame (s : State) (p : Nat) (window : Bool) : List Byte :=
  let x := (s.port p).tsu
  let prev := x.prSent.find? (fun y => y.seq = (x.prSeq + 65535) % 65536)
  let got := x.prGot.head?
  let pre : Bool := !window && (s.cuttable p s.lt).isSome
  let flags := window.toNat + pre.toNat * 2 + s.fld F.TSU_STATUS.CAL_CONVERGED p * 4 + prev.isSome.toNat * 8 +
    got.isSome.toNat * 16
  beOctets 6 0x9B3C51C00010 ++ beOctets 6 (s.portSa p) ++ beOctets 2 (s.fld F.TSU_PROBE.ETYPE p) ++ [0x01, 0x10] ++
    beOctets 2 x.prSeq ++ beOctets 1 flags ++ [0] ++ beOctets 2 (got.elim 0 PinStamp.seq) ++
    pinOctets (prev.elim 0 PinStamp.at') ++ pinOctets (got.elim 0 PinStamp.at') ++ List.replicate 14 0

/-- A probe falls due, in a calibration window or not: one not begun is dropped and counted (R259). -/
def State.sendProbe (s : State) (p : Nat) (window : Bool) (residual : Int) : State :=
  let d := s.port p
  let old := d.due.filter isProbe ++ d.ctrl.filter isProbe
  let s := s.modPort p (fun d => { d with due := d.due.filter (fun c => !isProbe c), ctrl := d.ctrl.filter (fun c => !isProbe c) })
  let s := (d.ctrl.filter isProbe).foldl (fun t c => t.leftClass p c) s
  let s := old.foldl (fun t c => (t.bump F.PROBE_SKIPPED p).release c.fid) s
  let s := s.modTsu p (fun x => { x with prSeq := (x.prSeq + 1) % 65536, prResid := residual })
  let l := s.probeFrame p window
  if window then s.sendDue p kPROBE l else s.sendControl p kPROBE l

/-- The instant in ns at which the next probe falls due (R259): before convergence a multiple of 1 µs in calibration windows and of
10 µs outside them. -/
def State.probeDue (s : State) (p : Nat) : Nat :=
  if s.on F.TSU_STATUS.CAL_CONVERGED p then s.nextMultiple (1000 * s.fld F.TSU_PROBE.INTERVAL p) 0
  else
    ((List.range 10).map (fun i => (s.ns / 1000 + 1 + i) * 1000)).find? (fun n => (s.senPos p n).cal || n % 10000 = 0)
      |>.getD (s.nextMultiple 10000 0)

/-- PROBE_TX: a probe falls due and is sent. -/
def execProbeTx (p : Nat) (residual : Int) (s : State) : Host.Outcome State Fault Refusal :=
  atUnit (p < s.nPorts) s
    (if s.phase = .running && s.probesAllowed p then
      s.sendAt p (s.probeDue p) F.PROBE_SKIPPED (fun t => t.sendProbe p (s.senPos p (s.probeDue p)).cal residual)
    else s)

/-- The delay of an exchange (R261), with nrr − 1 in 2^-32. -/
def probeDelay (nrr t1 t2 t3 t4 : Int) : Int :=
  ((t2 - t1) + (t4 - t3) + (nrr * (t4 - t1)).fdiv (2 ^ 32 : Nat)).fdiv 2

/-- An exchange's four stamps are taken: the delay is accepted, or rejected when it is more than 5 ns from the average
after convergence. TSU_NRR shows the nrr formed last, of a probe or of a Pdelay exchange (DESIGN CHOICE, log 73). -/
def State.takeExchange (s : State) (p : Nat) (t1 t2 t3 t4 : Int) : State :=
  let x := (s.port p).tsu
  let hist := (⟨t1, t2, t3, t4⟩ :: x.prHist).take 9
  let nrr := nrrOf (hist.map (fun y => (y.t2, y.t1)))
  let d := probeDelay nrr t1 t2 t3 t4
  if s.on F.TSU_STATUS.CAL_CONVERGED p && 5 * 65536 < (d - x.prDelay).natAbs then s.bump F.PROBE_REJECT p
  else
    let ds := (d :: x.prDelays).take 16
    let n := x.prAccepted + 1
    let s := s.modTsu p (fun y =>
      { y with prHist := hist, prDelays := ds, prDelay := avg ds, prAccepted := n, prLast := s.lt })
    let s := s.setf F.TSU_NRR (ofSigned 32 nrr) p
    let s := if 64 ≤ n then s.setf F.TSU_STATUS.CAL_CONVERGED 1 p else s
    s.accepted p true

/-- The exchange that a received probe completes (R261), or its discard across a step or a width change (R249). -/
def State.formExchange (s : State) (p : Nat) (l : List Byte) : State :=
  let x := (s.port p).tsu
  let flags := oct l 18
  let seq := oct2 l 16
  match x.prGot.find? (fun y => y.seq = (seq + 65535) % 65536), x.prSent.find? (fun y => y.seq = oct2 l 20) with
  | some g, some o =>
    if !flags.testBit 3 || !flags.testBit 4 then s
    else if g.side ≠ o.side || flags.testBit 5 || x.partnerStep = some (oct2 l 20) then
      s.bump F.EXCHANGE_DROP p
    else s.takeExchange p (pinAt l 22) g.at' o.at' (pinAt l 34)
  | _, _ => s

/-- A probe is pin-stamped and taken (R260 to R262): less than 1 µs after the previous one it is rejected. -/
def State.takeProbe (s : State) (p : Nat) (l : List Byte) (residual : Int) : State :=
  let near := (s.port p).tsu.prLastRx.any (fun t => s.lt < t + ltUs)
  let s := (s.bump F.PROBE_RX p).modTsu p (fun x => { x with prLastRx := some s.lt })
  if near then s.bump F.PROBE_REJECT p
  else
    let s := s.formExchange p l
    let pin := s.rxPlain p (s.rxPoint p l) + residual
    let s := s.modTsu p (fun x =>
      { x with
        prGot := keepStamps (⟨oct2 l 16, pin, s.sideOf p (s.rxPoint p l)⟩ :: x.prGot)
        partnerStep := if (oct l 18).testBit 5 then some (oct2 l 20) else x.partnerStep.filter (fun n => n = oct2 l 20) })
    s.calibrate p F.TSU_RX_CAL residual

/-- A frame is a probe for port `p`. -/
def State.isProbeFrame (s : State) (p : Nat) (l : List Byte) : Bool :=
  daOf l = 0x9B3C51C00010 && oct2 l 12 = s.fld F.TSU_PROBE.ETYPE p && oct l 14 = 1 && oct l 15 = 0x10

/-- PROBE_RX: a probe arrives at port `p`. -/
def execProbeRx (p : Nat) (octets : List Byte) (residual : Int) (s : State) : Host.Outcome State Fault Refusal :=
  atUnit (p < s.nPorts) s
    (if s.isProbeFrame p octets then s.rxLocal p octets (fun t => t.takeProbe p octets residual) else s)

/-! ### Calibration (R262, R263) -/

/-- Both calibrations return to zero and convergence starts again. -/
def State.recalibrate (s : State) (p : Nat) : State :=
  let s := (s.setf F.TSU_TX_CAL 0 p).setf F.TSU_RX_CAL 0 p
  let s := (s.setf F.TSU_STATUS.CAL_CONVERGED 0 p).modTsu p (fun x =>
    { x with prAccepted := 0, prDelays := [], prHist := [] })
  s.refreshDelay p

/-- A width change or a step puts the stamps taken before it on another side (R249). -/
def State.newSide (s : State) (p : Nat) : State := s.modTsu p (fun x =>
  { x with side := x.side + 1, sides := (s.lt :: x.sides).take 8 })

/-- CAL_START (R262). -/
def execCalStart (s : State) : Host.Outcome State Fault Refusal :=
  .next (s.xci 0xA0 (fun c t =>
    let p := bitsOf (c.word 1) 5 0
    if t.probesAllowed p then (t.recalibrate p).finishOk [] else t.finish xWRONGSTATE 7 []))

/-- CAL_RESULT (R263, R314). -/
def execCalResult (s : State) : Host.Outcome State Fault Refusal :=
  .next (s.xci 0xA1 (fun c t =>
    let p := bitsOf (c.word 1) 5 0
    t.finishOk [t.fld F.TSU_LINK_DELAY p, t.fld F.TSU_NRR p, t.fld F.TSU_TX_CAL p, t.fld F.TSU_RX_CAL p,
      t.fld F.TSU_STATUS.CAL_CONVERGED p + t.fld F.TSU_STATUS.SOURCE p * 2 + t.fld F.TSU_STATUS.STALE p * 4 +
        t.fld F.TSU_STATUS.DELAY_VALID p * 8 + min (t.port p).tsu.prAccepted 0xFFFF * 2 ^ 16,
      t.fld F.TSU_CABLE.LENGTH_DM p]))

end Sys2Proof.Machine
end

