-- ==== Sys2Proof/Machine/Transmit.lean ====
section
/-! DEFINITION. Transmission selection and what follows it (R114, R115, R131 to R138, R148), the end of a transmission, stage
memory reads, ageing, depth samples, and the writes to queues and pools (R128, R135, R137, R139, R145). -/

namespace Sys2Proof.Machine

/-! ### Whether a frame fits before its class closes (R114, R115) -/

/-- How a frame fits: whole, as a first fragment of `y` data octets, or not. -/
inductive Fit where
  | whole
  | frag (y : Nat)
  | no
  deriving DecidableEq, Repr

/-- The local time from local instant `t` on within which network time gains at most `d`. -/
def State.ltWithin (s : State) (t d : Nat) : Nat :=
  let a := s.firstSpan.1 - (t - s.lt)
  let r := s.firstSpan.2
  if d * ltNs ≤ a * r then d * ltNs / r else a + (d * ltNs - a * r) / s.time.inc

/-- The last instant in ns of the look-ahead from local instant `t` (R114). -/
def State.lookLimit (s : State) (p t : Nat) : Nat :=
  s.portNt p t / 2 ^ 32 + ceilDiv (wholeOctets (s.fld F.PRT_MAXLEN.MAXLEN p) * s.octetLt p) ltNs + 1

/-- The instant in ns from which an agreed width change lets no octet pass (R61, log 19). -/
def State.shedStop (s : State) (p : Nat) : Option Nat :=
  let d := s.port p
  ((d.shedPrior.toList ++ (d.shed.filter (fun x => x.agreed)).toList).map (fun x => x.instant)).min?

/-- How `left` octets of class `c`, FCS included, fit when they begin at local instant `t`: before the class closes, before a
width change, and on a ring port before the next static segment or train window (R209). The look-ahead begins with the gates that
the port applies (R19): a closing that it is about to apply lets nothing begin. `pre` says that a hold closes the
class too, and that the frame may be cut (R115). -/
def State.fitAs (s : State) (p c left t : Nat) (pre : Bool) : Fit :=
  let now := s.portNt p t
  let lim := s.lookLimit p t
  let gate := if pre then s.closePre p c (s.gateNs p t) lim else s.nextClose p c (s.gateNs p t) lim
  let spans := (gate.toList ++ (s.shedStop p).toList).map (fun close => s.ltWithin t (close * 2 ^ 32 - now)) ++
    (s.ringSpan p t).toList
  match spans.min? with
  | none => .whole
  | some span =>
    if wholeOctets left * s.octetLt p ≤ span then .whole
    else if pre then
      match s.cutBefore p (span / s.octetLt p) left with
      | some y => .frag y
      | none => .no
    else .no

/-- How a data frame fits: a pre-emptable one by R115, an express one by R114. -/
def State.fit (s : State) (p c left t : Nat) : Fit := s.fitAs p c left t (s.preempts p c)

/-- `octets` sent from local instant `t` leave before an agreed width change stops the port (R61). -/
def State.beforeShed (s : State) (p t octets : Nat) : Bool :=
  (s.shedStop p).all (fun close =>
    wholeOctets octets * s.octetLt p ≤ s.ltWithin t (close * 2 ^ 32 - s.portNt p t))

/-! ### Eligibility (R131) -/

/-- Nine core cycles of R23 lie between a copy's enqueue and the first octet. -/
def pipeLt : Nat := 9 * coreCycle

/-- The instant from which a queued copy can begin. -/
def Copy.ready (c : Copy) : Nat := c.enq + pipeLt

/-- Class `c` meets every condition of R131 but that on its sub-queues, at local instant `t`. -/
def State.classOpen (s : State) (p c t : Nat) : Bool :=
  (s.gatesAt p t).testBit c && !s.fcHeld p c t &&
    !(s.preempts p c && s.holdAt p (s.portNt p t / 2 ^ 32)) &&
    (!s.fbit F.QSH_CTL.CBS_EN c p || (s.fld F.QSH_IDLE_SLOPE p c ≠ 0 && 0 ≤ s.creditAt p c t))

/-- The sub-queue's tokens let its head begin. -/
def State.tokensOk (s : State) (p c q t : Nat) : Bool :=
  !s.shapeEn p c q || (s.tab (subqTab p c q 1) ≠ 0 && 0 ≤ s.tokensAt p c q t)

/-- The head of a sub-queue that is valid and whose tokens and pipeline let it begin at `t`. -/
def State.headAt (s : State) (p k t : Nat) (x : SubQ) : Option Copy :=
  match x.q with
  | h :: _ =>
    if s.subqValid p (k / 1024) (k % 1024) && h.ready ≤ t && s.tokensOk p (k / 1024) (k % 1024) t then some h else none
  | [] => none

/-- The sub-queue keys of class `c`. -/
def PortDyn.keysOf (d : PortDyn) (c : Nat) : List (Nat × SubQ) := d.subqs.filter (fun kx => kx.1 / 1024 = c)

/-- The fair queue's choice in class `c` (R138): the eligible sub-queue with the smallest finish tag, the lowest index on a
tie, with its head and how it fits. -/
def State.pick (s : State) (p c t : Nat) : Option (Nat × Copy × Fit) :=
  if !s.classOpen p c t then none
  else
    let best := ((s.port p).keysOf c).foldl (fun (b : Option (Nat × Copy × Fit × Nat)) kx =>
      match s.headAt p kx.1 t kx.2 with
      | none => b
      | some h =>
        let f := s.fit p c h.len t
        if f = .no then b
        else match b with
          | some (_, _, _, tag) => if kx.2.tag < tag then some (kx.1, h, f, kx.2.tag) else b
          | none => some (kx.1, h, f, kx.2.tag)) none
    best.map (fun b => (b.1, b.2.1, b.2.2.1))

/-! ### The list of R132 -/

/-- What the MAC is to begin. -/
inductive Choice where
  | due (c : Copy)
  | control (c : Copy)
  | queued (k : Nat) (c : Copy) (f : Fit)
  | resume (e : Ellipsis) (f : Fit)
  deriving DecidableEq, Repr

/-- The highest class satisfying `g` that has an eligible sub-queue. -/
def State.pickClass (s : State) (p t : Nat) (g : Nat → Bool) : Option Choice :=
  ((List.range 8).reverse.filter g).findSome? (fun c => (s.pick p c t).map (fun b => .queued b.1 b.2.1 b.2.2))

/-- Item 3: the eligible express class with the highest number. -/
def State.pickExpress (s : State) (p t : Nat) : Option Choice :=
  if s.dataMay p then s.pickClass p t (fun c => s.express p c) else none

/-- The end in ns of the run of CAL Clauses that holds local instant `t` (R123). -/
def State.calEnd (s : State) (p t : Nat) : Option Nat :=
  let n := s.portNt p t / 2 ^ 32
  match s.ahead p n (s.lookLimit p t) with
  | [] => none
  | q :: r => if q.cal then some ((r.find? (fun x => !x.cal)).elim farFuture (fun x => max x.start x.cycle.start)) else none

/-- The ring time at which the node's sync frame of cycle `k` begins, so that its time-stamp point crosses PORT_E's reference plane
at the slot start (R212): of node 0 before the cycle. -/
def State.slotBegin (s : State) (k : Nat) : Int :=
  let p := s.portE
  let lead : Int := (s.latency p).2 * 65536 + s.fldS F.TSU_TX_ADJ p + s.fldS F.TSU_TX_CAL p
  let pre : Int := (8 * s.octetLt p : Nat) * s.ringRate / ltNs
  (k * s.ringCycle + 400 * s.fld F.CON_NODE.NODE_ID : Nat) * ringUnit - lead * 65536 - pre

/-- The ring time of the next train window, zero inside one, and of the beginning of the node's own frame for the slot whose start comes
next, from a local instant. -/
def State.nextWindow (s : State) (t : Nat) : Int :=
  let n := s.ringNs t
  let o := n % ringRound
  if o < 25600 then (n - o + 25600 : Nat) * ringUnit
  else if o < 25600 + s.trainWindow then 0
  else (n - o + ringRound + 25600 : Nat) * ringUnit
def State.nextSlot (s : State) (t : Nat) : Int :=
  let n := s.ringNs t
  let c := n / s.ringCycle
  s.slotBegin (if n ≤ c * s.ringCycle + 400 * s.fld F.CON_NODE.NODE_ID then c else c + 1)

/-- A Concord frame may begin: a forwarded sync frame only if it ends before the next train window, and not from 102 octet
times before the node's own frame begins to its slot start (R212); the node's own and train frames always. -/
def State.concordMay (s : State) (p t : Nat) (c : Copy) : Bool :=
  let l := s.octetsOf c
  if oct l 15 ≠ 1 || oct l 22 = 0 || !s.con.hasTime then true
  else
    wholeOctets c.len * s.octetLt p ≤ s.ringUntil t (s.nextWindow t) && 102 * s.octetLt p ≤ s.ringUntil t (s.nextSlot t)

/-- `octets` sent from local instant `t` end before the next segment of a ring port that ordinary frames leave free (R209). -/
def State.beforeSegment (s : State) (p t octets : Nat) : Bool :=
  (s.ringSpan p t).all (fun x => wholeOctets octets * s.octetLt p ≤ x)

/-- A due frame may begin: a Concord frame by its own rules, every other outside the ring's segments, a probe inside its window and only while no express frame is
eligible. -/
def State.dueMay (s : State) (p t : Nat) (c : Copy) : Bool :=
  s.beforeShed p t c.len &&
  match c.origin with
  | .control k =>
    if k = kPROBE then
      s.beforeSegment p t c.len && (s.calEnd p t).any (fun e =>
        s.portNt p t + s.gain (wholeOctets c.len * s.octetLt p) ≤ e * 2 ^ 32) && (s.pickExpress p t).isNone
    else if k = kCONCORD then s.concordMay p t c
    else s.beforeSegment p t c.len
  | _ => false

/-- Item 1, Concord sync frames before probes (R259). -/
def State.pickDue (s : State) (p t : Nat) : Option Choice :=
  let l := (s.port p).due
  let conc := l.filter (fun c => c.origin ≠ .control kPROBE)
  let prob := l.filter (fun c => c.origin = .control kPROBE)
  if s.controlMay then ((conc ++ prob).find? (s.dueMay p t)).map .due else none

/-- Control frame `h` may leave in the present state: while STANDBY is entered, the shed exchange of R53 alone. -/
def State.controlLeaves (s : State) (h : Copy) : Bool := s.controlMay || (s.pwr.entry.isSome && h.origin = .control kSHED)

/-- The head of the control queue could begin at `t`: the gate of TC7 is open (R104). -/
def State.controlOpen (s : State) (p t : Nat) (h : Copy) : Bool :=
  s.controlLeaves h && h.ready ≤ t && (s.gatesAt p t).testBit 7

/-- Item 2: the head of the control queue, when it fits under R114. -/
def State.pickControl (s : State) (p t : Nat) : Option Choice :=
  match (s.port p).ctrl with
  | h :: _ => if s.controlOpen p t h && s.fitAs p 7 h.len t false = .whole then some (.control h) else none
  | [] => none

/-- Item 4: an Ellipsis resumes when its gate is open, no hold is in force and it fits (R115, R146). -/
def State.pickResume (s : State) (p t : Nat) : Option Choice :=
  match (s.port p).ellipsis with
  | none => none
  | some e =>
    let f := s.fit p e.copy.tc (e.octets.length + 4 - e.sent) t
    if (s.gatesAt p t).testBit e.copy.tc && !s.holdAt p (s.portNt p t / 2 ^ 32) && f ≠ .no && s.dataMay p then
      some (.resume e f)
    else none

/-- Item 5: the eligible pre-emptable class with the highest number, while no Ellipsis waits (R44, log 17). -/
def State.pickPreemptable (s : State) (p t : Nat) : Option Choice :=
  if s.dataMay p && (s.port p).ellipsis.isNone then s.pickClass p t (fun c => !s.express p c) else none

/-- Items 1 to 3: what pre-empts. -/
def State.chooseExpress (s : State) (p t : Nat) : Option Choice :=
  (s.pickDue p t).or ((s.pickControl p t).or (s.pickExpress p t))

/-- The list of R132. -/
def State.choose (s : State) (p t : Nat) : Option Choice :=
  (s.chooseExpress p t).or ((s.pickResume p t).or (s.pickPreemptable p t))

/-! ### What the selection notes of frames that stay -/

/-- Every head of port `p` takes `f`. -/
def State.mapHeads (s : State) (p : Nat) (f : Nat → Copy → Copy) : State :=
  s.modPort p (fun d => { d with subqs := d.subqs.map (fun kx =>
    match kx.2.q with
    | h :: r => (kx.1, { kx.2 with q := f kx.1 h :: r })
    | [] => kx) })

/-- The heads that satisfy `f`. -/
def State.headsWith (s : State) (p : Nat) (f : Nat → Copy → Bool) : List Copy :=
  (s.port p).subqs.filterMap (fun kx =>
    match kx.2.q with
    | h :: _ => if f kx.1 h then some h else none
    | [] => none)

/-- A head frame of an open class that does not fit under R114, not counted before. -/
def State.deferredNow (s : State) (p t k : Nat) (h : Copy) : Bool :=
  !h.deferred && !s.preempts p (k / 1024) && s.dataMay p && s.classOpen p (k / 1024) t &&
    (s.headAt p k t ⟨[h], 0, ((s.port p).subq k).tokens, ((s.port p).subq k).at'⟩).isSome && s.fit p (k / 1024) h.len t = .no

/-- The head of the control queue does not fit under R114, and was not counted before (R104). -/
def State.controlDeferred (s : State) (p t : Nat) (h : Copy) : Bool :=
  !h.deferred && s.controlOpen p t h && s.fitAs p 7 h.len t false ≠ .whole

/-- The head of the control queue is noted as deferred, and counted. -/
def State.deferControl (s : State) (p t : Nat) : State :=
  match (s.port p).ctrl with
  | h :: r =>
    if s.controlDeferred p t h then
      (s.modPort p (fun d => { d with ctrl := { h with deferred := true } :: r })).bump F.SEN_GUARD_DEFER p
    else s
  | [] => s

/-- SEN_GUARD_DEFER counts each frame deferred once (R114). -/
def State.countDefer (s : State) (p t : Nat) : State :=
  let n := (s.headsWith p (s.deferredNow p t)).length
  ((s.mapHeads p (fun k h => if s.deferredNow p t k h then { h with deferred := true } else h)).bump
    F.SEN_GUARD_DEFER p 0 n).deferControl p t

/-- Frames held back because of the operating state count once each in STATE_IDLE_FRAMES. -/
def State.countHeld (s : State) (p : Nat) : State :=
  if s.dataMay p then s
  else
    let n := (s.headsWith p (fun _ h => !h.held)).length
    (s.mapHeads p (fun _ h => { h with held := true })).bump F.STATE_IDLE_FRAMES p 0 n

/-! ### Beginning a frame -/

/-- The samples of R148 for a frame of class `c` selected to begin at `t`. -/
def State.sampleDelay (s : State) (p c t : Nat) (x : Copy) : State :=
  let n := SMap.val (s.port p).sampleCount c 0 + 1
  if n < 2 ^ s.fld F.QSH_SAMPLE.DELAY_K p then s.modPort p (fun d => { d with sampleCount := SMap.put d.sampleCount c n })
  else
    let v := min ((t - x.enq) / ltNs) 0xFFFFFFFF
    s.modPort p (fun d =>
      { d with
        sampleCount := SMap.putD d.sampleCount c 0 0
        delayLast := SMap.putD d.delayLast c v 0
        delayMax := SMap.putD d.delayMax c (max (SMap.val d.delayMax c 0) v) 0
        delaySum := SMap.putD d.delaySum c (min (SMap.val d.delaySum c 0 + v) (2 ^ 64 - 1)) 0
        delayCount := SMap.putD d.delayCount c (min (SMap.val d.delayCount c 0 + 1) 0xFFFFFFFF) 0 })

/-- When what begins at `t` and fits as `f` ends, gap included. -/
def State.endOf (s : State) (p t left : Nat) (f : Fit) : Nat :=
  match f with
  | .frag y => t + fragOctets y * s.octetLt p
  | _ => t + wholeOctets left * s.octetLt p

/-- A frame cut short at its start counts as a fragmentation. -/
def State.countFrag (s : State) (p : Nat) (f : Fit) : State :=
  match f with
  | .frag _ => s.bump F.TX_PREEMPTIONS p
  | _ => s

/-- The frame's data are known to hold a parity error. -/
def State.spoilt (s : State) (fid : Nat) : Bool := (s.frame fid).any (fun f => f.parity)

/-- Octets of a data copy as it leaves (R46, R47). -/
def State.dataOut (s : State) (p : Nat) (c : Copy) : List Byte :=
  match s.frame c.fid with
  | some f => editOut f c (s.fld F.PRT_TAG.TPID p)
  | none => []

/-- The copy that a choice begins. -/
def Choice.copy : Choice → Copy
  | .due c => c
  | .control c => c
  | .queued _ c _ => c
  | .resume e _ => e.copy

/-- The credit of class `c` is brought up to local instant `t`, up to which its frame waited (R134). -/
def State.creditTo (s : State) (p c t : Nat) : State :=
  if s.fbit F.QSH_CTL.CBS_EN c p then s.modPort p (fun d => { d with credit := SMap.put d.credit c (s.creditAt p c t, t) }) else s

/-- The choice begins at local instant `t`. -/
def State.begin (s : State) (p t : Nat) (ch : Choice) : State :=
  let s := s.creditTo p ch.copy.tc t
  let mk := fun (c : Copy) (o : List Byte) (f : Fit) (s : State) =>
    (s.countFrag p f).modPort p (fun d =>
      { d with tx := some ⟨c, o, t, s.endOf p t (o.length + 4) f, 0, f = .whole, 0, s.spoilt c.fid, false⟩ })
  match ch with
  | .due c =>
    let (o, s) := (s.modPort p (fun d => { d with due := d.due.filter (fun x => x.id ≠ c.id) })).stampTx p
      (t + 8 * s.octetLt p) c
    mk c o .whole s
  | .control c =>
    let s := (s.modPort p (fun d => { d with ctrl := d.ctrl.drop 1 })).leftClass p c
    let (o, s) := (s.sampleDelay p 7 t c).stampTx p (t + 8 * s.octetLt p) c
    mk c o .whole s
  | .queued k c f =>
    let tag := ((s.port p).subq k).tag
    let s := if s.shapeEn p (k / 1024) (k % 1024) then
        s.moveTokens p (k / 1024) (k % 1024) t (-(((c.len + 20) * 8 * bitUnit : Nat) : Int))
      else s
    let s := ((s.leaveSubq p k (fun x => x.id = c.id)).leftClass p c).sampleDelay p c.tc t c
    let s := s.modPort p (fun d => { d with vtime := SMap.putD d.vtime c.tc tag 0 })
    mk c (s.dataOut p c) f s
  | .resume e f =>
    let s := (s.countFrag p f).modPort p (fun d => { d with ellipsis := none })
    s.modPort p (fun d =>
      { d with tx := some ⟨e.copy, e.octets, t, s.endOf p t (e.octets.length + 4 - e.sent) f, e.sent, f = .whole, e.frag,
          e.badFcs || s.spoilt e.copy.fid, false⟩ })

/-! ### Discards of step 5 (R144) -/

/-- The age limit in local time units. -/
def State.ageLt (s : State) (p : Nat) : Nat := s.fld F.QSH_AGE.AGE_TIME p * ltUs

/-- Frames are discarded from the first core cycle that begins after their age has reached AGE_TIME (R144). -/
def State.ageDrop (s : State) (p : Nat) : State :=
  s.discardWhere p (fun c => (c.enq + s.ageLt p) / coreCycle < s.lt / coreCycle) (fun t c =>
    let t := t.bump F.QSH_AGE_DROP p
    match c.inSubq with
    | some k => t.bumpTab (subqTab p (k / 1024) (k % 1024) 6)
    | none => t)

/-- The earliest instant at which the line and some waiting frame could begin together. -/
def State.beginAt (s : State) (p : Nat) : Nat :=
  let d := s.port p
  let heads := d.subqs.filterMap (fun kx => kx.2.q.head?.map Copy.ready) ++ d.ctrl.head?.toList.map Copy.ready
  if !d.due.isEmpty || d.ellipsis.isSome then s.lt
  else match heads with
    | [] => s.lt
    | h :: r => max s.lt (r.foldl min h)

/-- The port may transmit: link up, ENABLE at 1, not between the instant of a width change and lock (R40, R61), and not in the takeover
sequence, in which every port sends idles (R356 step 1). -/
def State.lineMay (s : State) (p : Nat) : Bool :=
  s.on F.PRT_STATUS.LINK_UP p && s.on F.PRT_CTL.ENABLE p && !s.on F.PRT_SHED_STATUS.IN_TRANSITION p &&
    s.pair.takeover.isNone

/-- A frame in transmission is pre-empted by an express choice (R43): its fragment ends at the next permitted point, its
Ellipsis waits, and the express frame follows. -/
def State.preempt (s : State) (p : Nat) : State :=
  match s.cuttable p s.lt with
  | none => s
  | some (y, x) =>
    let te := x.begin' + fragOctets y * s.octetLt p
    match s.chooseExpress p te with
    | none => s
    | some ch =>
      let c := x.copy.tc
      let v := s.creditAt p c te
      let s := s.countCut p x
      let s := s.modPort p (fun d =>
        { d with
          tx := none
          ellipsis := some ⟨x.copy, x.octets, x.sent + y, x.nextFrag, x.badFcs⟩
          credit := if s.fbit F.QSH_CTL.CBS_EN c p then SMap.put d.credit c (v, te) else d.credit })
      s.begin p te ch

/-- One selection of port `p` (R132): discards, then the choice. -/
def State.select (s : State) (p : Nat) : State :=
  let s := ((s.unsentDrop p).ageDrop p).dropBarred p
  if !s.lineMay p then s
  else
    let s := (s.countHeld p).syncCredit p
    match (s.port p).tx with
    | some _ => s.preempt p
    | none =>
      let t := s.beginAt p
      let s := s.countDefer p t
      match s.choose p t with
      | none => s
      | some ch => s.begin p t ch

/-- The look-ahead of R114 reads the Clauses that it covers, and may find parity errors (R125). -/
def State.lookAhead (s : State) (p : Nat) (upsets : List Nat) : State :=
  (s.readClauses p (s.portNs p) (s.lookLimit p s.lt) upsets).regate p

/-- TRANSMISSION_SELECTION: the MAC of port `p` can begin a frame, or an express frame may pre-empt. -/
def execTransmissionSelection (p : Nat) (s : State) (upsets : List Nat := []) : Host.Outcome State Fault Refusal :=
  atUnit (p < s.nPorts) s (if s.phase = .running then (s.lookAhead p upsets).select p else s)

/-! ### The end of a transmission (R118, R149) -/

/-- The transmission of port `p` ends. -/
def State.txDone (s : State) (p : Nat) : State :=
  match (s.port p).tx with
  | none => s
  | some x =>
    let s := (s.runToLt x.stop).syncCredit p
    let y := x.fragData (s.octetLt p)
    let s := s.modPort p (fun d => { d with tx := none })
    if x.whole then
      let s := if x.copy.mPacket then s
        else if x.badFcs then (if x.copy.origin = .control kCONCORD then s else s.bump F.TX_PARITY_ABORT p)
        else (s.bump F.TX_FRAMES p).bump F.TX_OCTETS p 0 (x.octets.length + 4)
      s.release x.copy.fid
    else s.modPort p (fun d => { d with ellipsis := some ⟨x.copy, x.octets, x.sent + y, x.nextFrag, x.badFcs⟩ })

/-! ### Enqueueing (R22, R129) -/

/-- The next copy that reached port `p`'s island is enqueued, or dropped for a parity error (R21). -/
def State.enqueueNext (s : State) (p : Nat) : State :=
  match SMap.val s.arrived p [] with
  | [] => s
  | c :: r =>
    let s := { s with arrived := SMap.putD s.arrived p r [] }
    if s.spoilt c.fid then (s.bump F.RX_PARITY_DROP p).release c.fid else s.offer p c

def execFrameEnqueue (p : Nat) (s : State) : Host.Outcome State Fault Refusal :=
  atUnit (p < s.nPorts) s (if s.phase = .running then s.enqueueNext p else s)

/-! ### Stage-memory reads (R21) -/

/-- A copy of frame `fid` on the wire, or an Ellipsis of it, will end with an invalid FCS. -/
def State.spoilWire (s : State) (p fid : Nat) : State :=
  s.modPort p (fun d =>
    { d with
      tx := d.tx.map (fun x => if x.copy.fid = fid then { x with badFcs := true } else x)
      ellipsis := d.ellipsis.map (fun e => if e.copy.fid = fid then { e with badFcs := true } else e) })

/-- The copies of frame `fid` that wait at panel port `t` are dropped; each counts in PNL_DROPS. -/
def State.panelSpoil (s : State) (t fid : Nat) : State :=
  let mine := fun id => ((s.frame id).bind (fun f => f.source)) = some fid
  let d := s.panel t
  let u := s.modPanel t (fun d => { d with high := d.high.filter (fun i => !mine i), low := d.low.filter (fun i => !mine i) })
  ((d.high ++ d.low).filter mine).foldl (fun t' id => (t'.bump F.PNL_DROPS 0 t).release id) u

/-- A parity error in a frame's cells: copies not begun are dropped, copies on the wire end with an invalid FCS, and the
frame is neither captured nor unpacked further. -/
def State.stageParity (s : State) (f : Frame) (cell : Nat) : State :=
  let s := s.setFrame { f with parity := true }
  let s := (List.range s.nPorts).foldl (fun t p =>
    (t.spoilWire p f.id).discardWhere p (fun c => c.fid = f.id) (fun u _ => u.bump F.RX_PARITY_DROP p)) s
  let s := (List.range 8).foldl (fun t i => t.panelSpoil i f.id) s
  let n := (s.captures.filter (fun c => c.fid = f.id)).length + (s.mix.unpack.filter (fun u => u.fid = f.id)).length +
    (s.mix.video.filter (fun v => v.fid = f.id)).length
  let s := { s with
    captures := s.captures.filter (fun c => c.fid ≠ f.id)
    mix := { s.mix with
      unpack := s.mix.unpack.filter (fun u => u.fid ≠ f.id)
      video := s.mix.video.filter (fun v => v.fid ≠ f.id) } }
  let s := (List.range n).foldl (fun t _ => t.release f.id) s
  s.raise 18 (f.island + cell % 2 ^ 16 * 2 ^ 4)

/-- A read of the remaining cells has returned for every queued copy of the frame. -/
def State.readReturned (s : State) (fid : Nat) : State :=
  let g := fun (c : Copy) => if c.fid = fid then { c with readDone := true } else c
  (List.range s.nPorts).foldl (fun t p => t.modPort p (fun d =>
    { d with subqs := d.subqs.map (fun kx => (kx.1, { kx.2 with q := kx.2.q.map g })) })) s

/-- STAGE_CELL_READ_DONE: a stage-memory read of a frame returns, with a parity error or without. -/
def execStageCellReadDone (fid cell : Nat) (parityError : Bool) (s : State) : Host.Outcome State Fault Refusal :=
  .next (match s.frame fid with
    | none => s
    | some f => if parityError then s.stageParity f cell else s.readReturned fid)

/-! ### Ageing and sampling (R144, R147) -/

/-- The first expiry among the queued frames of a port. -/
def State.firstExpiry (s : State) (p : Nat) : Option Nat :=
  let d := s.port p
  match (d.subqs.flatMap (fun kx => kx.2.q) ++ d.ctrl ++ d.due).map (fun c => c.enq + s.ageLt p) with
  | [] => none
  | e :: r => some (r.foldl min e)

/-- AGE_EXPIRY: the first core cycle after the earliest expiry begins. -/
def execAgeExpiry (p : Nat) (s : State) : Host.Outcome State Fault Refusal :=
  atUnit (p < s.nPorts) s
    (match s.firstExpiry p with
     | none => s
     | some e => (s.runToLt ((e / coreCycle + 1) * coreCycle)).ageDrop p)

/-- The class occupancies of a port are sampled. -/
def PortDyn.sampleDepth (d : PortDyn) : PortDyn :=
  (List.range 8).foldl (fun d c =>
    { d with
      depthLast := SMap.putD d.depthLast c (d.occ c) 0
      depthMax := SMap.putD d.depthMax c (max (SMap.val d.depthMax c 0) (d.occ c)) 0 }) d

/-- DEPTH_SAMPLE: every 1,024 core cycles. -/
def execDepthSample (s : State) : Host.Outcome State Fault Refusal :=
  .next (if s.phase = .running then
      (List.range s.nPorts).foldl (fun t p => t.modPort p PortDyn.sampleDepth) (s.runPeriod (1024 * coreCycle))
    else s)

/-! ### Writes (R128, R135, R137, R139, R145) -/

/-- The token rules of R137 for a write of `data` to dword `w` of a sub-queue entry, before the write takes effect. -/
def State.tokenRules (s : State) (p c q w data : Nat) : State :=
  let k := subKey c q
  let put := fun (v : Int) => s.modPort p (fun d => d.setSubq k { d.subq k with tokens := v, at' := s.lt })
  if w = 0 ∧ data.testBit 30 ∧ ¬ s.shapeEn p c q then put (s.burstUnits p c q)
  else if w = 0 ∧ ¬ data.testBit 30 then s.modPort p (fun d => d.setSubq k { d.subq k with tokens := 0, at' := 0 })
  else if w = 1 ∧ s.shapeEn p c q then put (s.tokensAt p c q s.lt)
  else if w = 2 ∧ s.shapeEn p c q then
    let v := s.tokensAt p c q s.lt
    put (if 0 < v then min v (bitsOf data 23 0 * 8 * bitUnit : Nat) else v)
  else s

/-- The effect of a dword write at an offset of the sub-queue region; dword 3 is read only. -/
def State.subqWrite (s : State) (off data : Nat) : State :=
  let e := off / 32
  let p := e / 8192
  let w := off / 4 % 8
  if s.nPorts ≤ p ∨ w = 3 then s
  else (s.tokenRules p (e / 1024 % 8) (e % 1024) w data).setTab (tSubq + off / 4) data

def execSubqEntryWrite (off : Nat) (data : Word) (s : State) : Host.Outcome State Fault Refusal :=
  .next (if s.hostUp && decide (off / 0x4_0000 < s.nPorts ∧ off / 4 % 8 ≠ 3) then
      s.gatedTab (atBar2 (0x1200_0000 + off)) data.toNat (fun t => t.subqWrite off data.toNat)
    else s)

/-- A pool of the island of port `p` is resized to `v` cells (R139): a larger one takes free ingress cells and is owed the
rest; a smaller one gives up what it is owed first. -/
def State.resizePool (s : State) (p : Nat) (dma : Bool) (v : Nat) : State :=
  let f := if dma then F.QSH_POOL_DMA else F.QSH_POOL_MIX
  let old := s.fld f p
  let d := s.island (p / 4)
  let up := v - old - min (v - old) (s.poolFree p)
  let own := if dma then d.dmaOwed else d.mixOwed
  let other := if dma then d.mixOwed else d.dmaOwed
  let x := min (old - v) own
  let y := min (old - v - x) other
  let own' := own - x + up
  let other' := other - y
  let t := (s.setf f v p).setIsland (p / 4)
    (if dma then { d with dmaOwed := own', mixOwed := other' } else { d with mixOwed := own', dmaOwed := other' })
  t.poolLow p (t.poolFree p)

/-- The effect of a write of QSH_POOL_MIX or QSH_POOL_DMA through port `p`'s window. -/
def State.poolWrite (s : State) (o : Origin4) (p : Nat) (dma : Bool) (data : Nat) : State :=
  let v := data % 65536
  let other := s.fld (if dma then F.QSH_POOL_MIX else F.QSH_POOL_DMA) p
  let used := if dma then (s.island (p / 4)).dmaUsed else (s.island (p / 4)).mixUsed
  if p % 4 ≠ 0 ∨ 65024 < v + other ∨ v < used then s.refuse o data cRULE else s.resizePool p dma v

/-- QSH_POOL_WRITE (R139). -/
def execQshPoolWrite (p : Nat) (dma : Bool) (value : Nat) (s : State) : Host.Outcome State Fault Refusal :=
  let o := atBar0 (0x10_0000 + 0x1_0000 * p + 0x2200 + (if dma then 4 else 0))
  atUnit (p < s.nPorts) s
    (if s.hostUp then s.gated (0x10 + p) o value (fun t => t.poolWrite o p dma value) else s)

/-- CBS_EN takes a value: a class whose bit becomes 1 starts from zero credit, one whose bit is 0 has none (R135). -/
def State.setCbsEn (s : State) (p v : Nat) : State :=
  let old := s.fld F.QSH_CTL.CBS_EN p
  let s := (s.syncCredit p).setf F.QSH_CTL.CBS_EN v p
  s.modPort p (fun d =>
    { d with credit := (List.range 8).foldl (fun m c =>
        if !v.testBit c then SMap.del m c else if old.testBit c then m else SMap.put m c (0, s.lt)) d.credit })

/-- The effect of a write of QSH_CTL with ENABLE at 0. -/
def State.queueDisable (s : State) (p cbsEn : Nat) : State :=
  ((s.setCbsEn p cbsEn).setf F.QSH_CTL.ENABLE 0 p).flush p

/-- QUEUE_DISABLE_FLUSH (R145). -/
def execQueueDisableFlush (p cbsEn : Nat) (s : State) : Host.Outcome State Fault Refusal :=
  let o := atBar0 (0x10_0000 + 0x1_0000 * p + 0x2000)
  atUnit (p < s.nPorts) s
    (if s.hostUp then s.gated (0x10 + p) o (cbsEn % 256 * 256) (fun t => t.queueDisable p cbsEn) else s)

end Sys2Proof.Machine
end

