-- ==== Sys2Proof/Machine/Links.lean ====
section
/-! DEFINITION. Network links: link up and down, verification (R41, R42, R45), flow control (R48 to R50), partner discovery
(R54, R55) and lane shedding (R53, R56 to R62). -/

namespace Sys2Proof.Machine

/-! ### Link up and down -/

/-- MAC bits in a codeword of the RS-FEC: 20 blocks of 256 bits (IEEE 802.3, log 65). -/
def fecBits : Nat := 5120

/-- The FEC counters of port `p` are brought up to now: of the codewords received since, free numbers were corrected or proved
uncorrectable (R70, log 65). -/
def State.fecSync (s : State) (p : Nat) : State :=
  let t := s.modPort p (fun d => { d with fecAt := s.lt })
  let n := (s.lt - (s.port p).fecAt) * s.rateOf p (s.lanes p) / (1600000 * fecBits)
  if !s.on F.PRT_STATUS.LINK_UP p || n = 0 then t
  else
    let a := min (Config.fecCodewords s.draws).toNat n
    let b := min (Config.fecCodewords (s.draws + 1)).toNat (n - a)
    (({ t with draws := t.draws + 2 }).bump F.FEC_CORRECTED p 0 a).bump F.FEC_UNCORRECTED p 0 b

/-- Both registers show a width, by its code. -/
def State.setWidth (s : State) (p code : Nat) : State :=
  let s := ((s.fecSync p).setf F.PRT_STATUS.WIDTH code p).setf F.PRT_SHED_STATUS.WIDTH code p
  s.setf F.PRT_STATUS.LANE_LOCK (2 ^ lanesOf code - 1) p

/-- A verify mPacket leaves and its VERIFY_TIME runs (R41); 0 encodes 128 ms. -/
def State.sendVerify (s : State) (p tries : Nat) : State :=
  let ms := s.fld F.PRT_MM_CTL.VERIFY_TIME p
  let s := (s.setf F.PRT_MM_STATUS.VERIFY_STATE 2 p).modPort p (fun d =>
    { d with verifyTries := tries, verifyDue := some (s.lt + (if ms = 0 then 128 else ms) * ltMs) })
  s.sendDue p kVERIFY []

/-- Pre-emption as the link comes up: off, active at once, or verified first (R41). VERIFY_STATE shows DISABLED while VERIFY_DIS
is 1 (DESIGN CHOICE, log 70). -/
def State.startMerge (s : State) (p : Nat) : State :=
  if !s.on F.PRT_MM_CTL.PREEMPT_EN p then (s.setf F.PRT_MM_STATUS.VERIFY_STATE 0 p).setf F.PRT_MM_STATUS.ACTIVE 0 p
  else if s.on F.PRT_MM_CTL.VERIFY_DIS p then (s.setf F.PRT_MM_STATUS.VERIFY_STATE 0 p).setf F.PRT_MM_STATUS.ACTIVE 1 p
  else s.sendVerify p 1

/-- The link of port `p` comes up at the width of its mode. -/
def State.linkUp (s : State) (p : Nat) : State :=
  let s := ((((s.syncCredit p).fecSync p).setWidth p (s.modeWidth p))).setf F.PRT_STATUS.LINK_UP 1 p
  let s := s.modPort p (fun d => { d with ignoreFc := [] })
  ((s.newSide p).recalibrate p).startMerge p

/-- Port `p` is a wake port. -/
def State.wakePort (s : State) (p : Nat) : Bool := s.on F.PRT_WAKE_CTL.WAKE_PORT p

/-- The lanes of port `p` are powered: those of a wake port only in STANDBY and from 20 µs into its entry (R382), and not in DOZE while the
port's ENABLE is 0 (R381); and they have calibrated (R421). -/
def State.lanesOn (s : State) (p : Nat) : Bool :=
  s.phase = .running && s.board.calibrated && !s.board.noZcal.contains (p / 4) &&
    (if s.pwr.state = .standby ∨ s.pwr.entry.any (fun e => 0 < e.1) then s.wakePort p
     else s.pwr.state ≠ .doze || s.on F.PRT_CTL.ENABLE p)

/-- LINK_UP: link training, or auto-negotiation with a partner that offers the mode, succeeds. -/
def execLinkUp (p : Nat) (s : State) : Host.Outcome State Fault Refusal :=
  atUnit (p < s.nPorts) s (if s.lanesOn p && !s.on F.PRT_STATUS.LINK_UP p then s.linkUp p else s)

/-- A frame in transmission or waiting as an Ellipsis is cut and freed (R45). A verify or respond mPacket in transmission counts
too (DESIGN CHOICE, log 70). -/
def State.abortFrame (s : State) (p fid : Nat) : State := (s.bump F.TX_LINK_ABORT p).release fid

/-- The partner ceases to be a Zuthar partner (R55). -/
def partnerFields : List Field :=
  [F.PRT_PARTNER.PART_CODE, F.PRT_PARTNER.REVISION, F.PRT_PARTNER.MIN_WIDTH, F.PRT_PARTNER.CONCORD, F.PRT_PARTNER.SHED,
   F.PRT_PARTNER.PROBE, F.PRT_PARTNER.MM, F.PRT_PARTNER.VALID, F.PRT_PARTNER_EXT.RING_NODE, F.PRT_PARTNER_EXT.TRANS_TIME]
def State.dropPartner (s : State) (p : Nat) : State :=
  ((s.resetFlds partnerFields p).modPort p (fun d => { d with partnerTtl := none })).refreshDelay p

/-- The link of port `p` goes down (R42, R45, R55, R145). -/
def State.linkDown (s : State) (p : Nat) : State :=
  let s := (s.syncCredit p).fecSync p
  let d := s.port p
  let s := (s.setf F.PRT_STATUS.LINK_UP 0 p).setf F.PRT_STATUS.LANE_LOCK 0 p
  let s := s.modPort p (fun d =>
    { d with
      tx := none, ellipsis := none, rxPart := none, verifyDue := none, shed := none, shedPrior := none, shedNow := none
      doneAt := none, standbyWidth := 0
      pauseEnd := [], pauseFrom := [] })
  let s := d.tx.elim s (fun x => s.abortFrame p x.copy.fid)
  let s := d.ellipsis.elim s (fun e => s.abortFrame p e.copy.fid)
  let s := (s.setf F.PRT_MM_STATUS.VERIFY_STATE 1 p).setf F.PRT_MM_STATUS.ACTIVE 0 p
  let s := (s.setf F.PRT_SHED_STATUS.IN_TRANSITION 0 p).flush p
  s.dropPartner p

/-- A link loss, with PORT_LINK_LOST for an enabled port (R366). -/
def State.linkLost (s : State) (p : Nat) : State :=
  if !s.on F.PRT_STATUS.LINK_UP p then s
  else
    let t := s.linkDown p
    if t.on F.PRT_CTL.ENABLE p then t.raise 16 p else t

/-- LINK_DOWN. -/
def execLinkDown (p : Nat) (s : State) : Host.Outcome State Fault Refusal :=
  atUnit (p < s.nPorts) s (if s.phase = .running then s.linkLost p else s)

/-- RETRAIN: a write of 1 to PRT_CTL.RETRAIN restarts link training, so the link goes down (R69). -/
def execRetrain (p : Nat) (s : State) : Host.Outcome State Fault Refusal :=
  let o := atBar0 (0x10_0000 + 0x1_0000 * p)
  atUnit (p < s.nPorts) s (if s.hostUp then s.gated (0x10 + p) o 0x100 (fun t => t.linkLost p) else s)

/-! ### Verification (R41) -/

/-- A verify mPacket is answered with a respond mPacket while PREEMPT_EN is 1. -/
def State.takeVerify (s : State) (p : Nat) : State :=
  if s.on F.PRT_MM_CTL.PREEMPT_EN p then s.sendDue p kRESPOND [] else s

/-- A respond mPacket: verification succeeds and pre-emption is active. -/
def State.takeRespond (s : State) (p : Nat) : State :=
  if s.fld F.PRT_MM_STATUS.VERIFY_STATE p = 2 then
    ((s.setf F.PRT_MM_STATUS.VERIFY_STATE 3 p).setf F.PRT_MM_STATUS.ACTIVE 1 p).modPort p (fun d => { d with verifyDue := none })
  else s

/-- VERIFY_MPACKET_RX. -/
def execVerifyMpacketRx (p : Nat) (s : State) : Host.Outcome State Fault Refusal :=
  atUnit (p < s.nPorts) s (if s.phase = .running then s.takeVerify p else s)

/-- RESPOND_MPACKET_RX. -/
def execRespondMpacketRx (p : Nat) (s : State) : Host.Outcome State Fault Refusal :=
  atUnit (p < s.nPorts) s (if s.phase = .running then s.takeRespond p else s)

/-- VERIFY_TIMEOUT: the port tries again, or after the third attempt fails. -/
def execVerifyTimeout (p : Nat) (s : State) : Host.Outcome State Fault Refusal :=
  atUnit (p < s.nPorts) s
    (match (s.port p).verifyDue with
     | none => s
     | some t =>
       let s := s.runToLt t
       let n := (s.port p).verifyTries
       if n < 3 then s.sendVerify p (n + 1)
       else (s.setf F.PRT_MM_STATUS.VERIFY_STATE 4 p).modPort p (fun d => { d with verifyDue := none }))

/-! ### Flow control (R48 to R50) -/

/-- A class is held for `quanta` pause quanta of 512 bit times at the rate of the receipt, which a later change of the width leaves
(DESIGN CHOICE, log 70); zero releases it and ends the watchdog's mark (R49, R50). -/
def State.pauseClass (s : State) (p c quanta : Nat) : State :=
  if quanta = 0 then
    s.modPort p (fun d =>
      { d with
        pauseEnd := SMap.del d.pauseEnd c, pauseFrom := SMap.del d.pauseFrom c
        ignoreFc := d.ignoreFc.filter (fun x => x ≠ c) })
  else if s.express p c || (s.port p).ignoreFc.contains c then s
  else
    s.modPort p (fun d =>
      let held : Bool := (SMap.look d.pauseEnd c).any (fun e => s.lt < e)
      { d with
        pauseEnd := SMap.put d.pauseEnd c (s.lt + quanta * 64 * s.octetLt p)
        pauseFrom := if held then d.pauseFrom else SMap.put d.pauseFrom c s.lt })

/-- A PAUSE (opcode 1) or PFC (opcode 0x0101) frame that passed the checks. -/
def State.takePause (s : State) (p : Nat) (l : List Byte) : State :=
  let s := (s.bump F.RX_PAUSE p).syncCredit p
  let mode := s.fld F.PRT_FC.FC_MODE p
  if mode = 1 ∧ oct2 l 14 = 0x0001 then (List.range 8).foldl (fun t c => t.pauseClass p c (oct2 l 16)) s
  else if mode = 2 ∧ oct2 l 14 = 0x0101 then
    (List.range 8).foldl (fun t c =>
      if (oct2 l 16).testBit c && t.fbit F.PRT_FC.PFC_HONOUR c p then t.pauseClass p c (oct2 l (18 + 2 * c)) else t) s
  else s

/-- A MAC control frame that R48 consumes. -/
def isPause (l : List Byte) : Bool := oct2 l 12 = 0x8808 && (oct2 l 14 = 0x0001 || oct2 l 14 = 0x0101)

/-- PAUSE_FRAME_RX (R48). -/
def execPauseFrameRx (p : Nat) (octets : List Byte) (s : State) : Host.Outcome State Fault Refusal :=
  atUnit (p < s.nPorts) s (if isPause octets then s.rxLocal p octets (fun t => t.takePause p octets) else s)

/-- PAUSE_QUANTA_EXPIRY: the hold of class `c` ends. -/
def execPauseQuantaExpiry (p c : Nat) (s : State) : Host.Outcome State Fault Refusal :=
  atUnit (p < s.nPorts) s
    (match SMap.look (s.port p).pauseEnd c with
     | none => s
     | some t => ((s.runToLt t).syncCredit p).modPort p (fun d =>
         { d with pauseEnd := SMap.del d.pauseEnd c, pauseFrom := SMap.del d.pauseFrom c }))

/-- The watchdog fires on class `c` (R50). -/
def State.pauseWatchdog (s : State) (p c : Nat) : State :=
  let s := s.discardWhere p (fun x => x.tc = c) (fun t _ => t.bump F.PAUSE_WDG_DISCARD p)
  let s := s.modPort p (fun d =>
    { d with
      pauseEnd := SMap.del d.pauseEnd c, pauseFrom := SMap.del d.pauseFrom c
      ignoreFc := if d.ignoreFc.contains c then d.ignoreFc else d.ignoreFc ++ [c] })
  s.raise 17 (p + c * 2 ^ 8)

/-- PAUSE_WATCHDOG: class `c` has been held for WDG_TIME without a break. -/
def execPauseWatchdog (p c : Nat) (s : State) : Host.Outcome State Fault Refusal :=
  atUnit (p < s.nPorts) s
    (match SMap.look (s.port p).pauseFrom c, SMap.look (s.port p).pauseEnd c with
     | some t, some e =>
       let due := t + s.fld F.PRT_FC.WDG_TIME p * 100 * ltUs
       if due ≤ e && !s.express p c then (s.runToLt due).pauseWatchdog p c else s
     | _, _ => s)

/-- The classes that flow control holds: PRT_STATUS.HELD. -/
def State.heldMap (s : State) (p : Nat) : Nat :=
  (List.range 8).foldr (fun c a => (s.fcHeld p c s.lt).toNat * 2 ^ c + a) 0

/-! ### Partner discovery (R54, R55) -/

/-- The Zuthar capability TLV of port `p` (R54); its capability flags 0 to 2 follow PREEMPT_EN, PROBE_EN and SHED_EN (DESIGN CHOICE,
log 70). -/
def State.capTlv (s : State) (p : Nat) : List Byte :=
  let flags := s.fld F.PRT_MM_CTL.PREEMPT_EN p + s.fld F.TSU_CTL.PROBE_EN p * 2 + s.fld F.PRT_SHED_CTL.SHED_EN p * 4 +
    (s.ringPort p).toNat * 8
  beOctets 2 0xFE10 ++ beOctets 3 0x9A3C51 ++ [0x01, 0x01] ++ beOctets 2 s.fuses.variant.part ++ [0x21] ++
    beOctets 2 flags ++ beOctets 1 (lanesOf (s.fld F.PRT_SHED_CTL.MIN_WIDTH p)) ++ beOctets 1 (s.lanes p) ++
    beOctets 2 20 ++ beOctets 1 (if s.ringPort p then s.fld F.CON_NODE.NODE_ID else 0xFF) ++ [0x00]

/-- The TLVs before the Zuthar ones: chassis, port, TTL, and the 802.3 Additional Ethernet Capabilities TLV while
PREEMPT_EN is 1 (IEEE 802.1AB and 802.3, log 20). -/
def State.lldpHead (s : State) (p : Nat) : List Byte :=
  let mm := s.on F.PRT_MM_CTL.PREEMPT_EN p
  let cap := 1 + 2 + s.fld F.PRT_MM_STATUS.ACTIVE p * 4 + s.fld F.PRT_MM_CTL.ADD_FRAG p * 8
  beOctets 2 0x0207 ++ [0x04] ++ beOctets 6 (s.portSa p) ++ beOctets 2 0x0402 ++ [0x07] ++ beOctets 1 p ++
    beOctets 2 0x0602 ++ beOctets 2 120 ++
    (if mm then beOctets 2 0xFE06 ++ beOctets 3 0x00120F ++ [0x07] ++ beOctets 2 cap else [])

/-- An LLDPDU of port `p` with further TLVs. -/
def State.lldpdu (s : State) (p : Nat) (more : List Byte) : List Byte :=
  beOctets 6 0x0180C200000E ++ beOctets 6 (s.portSa p) ++ beOctets 2 0x88CC ++ s.lldpHead p ++ s.capTlv p ++ more ++ [0, 0]

/-- LLDPDU_TX (R54). -/
def execLldpduTx (p : Nat) (s : State) : Host.Outcome State Fault Refusal :=
  atUnit (p < s.nPorts) s (s.sendControl p kLLDP (s.lldpdu p []))

/-- The TLVs from octet `k` on, as (start, type, length); at most `n` of them. -/
def tlvs (l : List Byte) : (n k : Nat) → List (Nat × Nat × Nat)
  | 0, _ => []
  | n + 1, k =>
    let w := oct2 l k
    if l.length < k + 2 ∨ w / 512 = 0 then [] else (k, w / 512, w % 512) :: tlvs l n (k + 2 + w % 512)

/-- An organizationally specific TLV of an identifier and subtype. -/
def isOrg (l : List Byte) (oui sub : Nat) (t : Nat × Nat × Nat) : Bool :=
  t.2.1 = 127 && octN l (t.1 + 2) 3 = oui && oct l (t.1 + 5) = sub

/-- A capability TLV at `k` is well formed (R55). -/
def capOk (l : List Byte) (k len : Nat) : Bool :=
  len = 16 && oct l (k + 6) = 1 && oct2 l (k + 10) < 16 && oct l (k + 17) = 0

/-- A well-formed capability TLV at `k` makes the partner a Zuthar partner for `ttl` seconds. -/
def State.takeCap (s : State) (p : Nat) (l : List Byte) (k ttl : Nat) : State :=
  let fl := oct2 l (k + 10)
  let s := (s.setf F.PRT_PARTNER.PART_CODE (oct2 l (k + 7)) p).setf F.PRT_PARTNER.REVISION (oct l (k + 9)) p
  let s := (s.setf F.PRT_PARTNER.MM fl p).setf F.PRT_PARTNER.PROBE (fl / 2) p
  let s := (s.setf F.PRT_PARTNER.SHED (fl / 4) p).setf F.PRT_PARTNER.CONCORD (fl / 8) p
  let s := (s.setf F.PRT_PARTNER.MIN_WIDTH (widthCode (oct l (k + 12))) p).setf F.PRT_PARTNER.VALID 1 p
  let s := (s.setf F.PRT_PARTNER_EXT.TRANS_TIME (oct2 l (k + 14)) p).setf F.PRT_PARTNER_EXT.RING_NODE (oct l (k + 16)) p
  (s.modPort p (fun d => { d with partnerTtl := some (s.lt + ttl * 1000 * ltMs) })).refreshDelay p

/-! ### Shed exchange (R53, R56 to R60) -/

/-- A shed TLV as R58 lays it out. -/
def shedTlv (msg seq lanes reason instant : Nat) : List Byte :=
  beOctets 2 0xFE12 ++ beOctets 3 0x9A3C51 ++ [0x02] ++ beOctets 1 msg ++ beOctets 1 seq ++ beOctets 1 lanes ++
    beOctets 1 reason ++ beOctets 6 (instant / 1000000000) ++ beOctets 4 (instant % 1000000000)

/-- A TLV is a shed TLV. -/
def isShed (t : List Byte) : Bool := t.length = 20 && oct2 t 0 = 0xFE12 && octN t 2 3 = 0x9A3C51 && oct t 5 = 2

def shedMsg (t : List Byte) : Nat := oct t 6
def shedSeqOf (t : List Byte) : Nat := oct t 7
def shedLanes (t : List Byte) : Nat := oct t 8
def shedReason (t : List Byte) : Nat := oct t 9
def shedInstantOf (t : List Byte) : Nat := octN t 10 6 * 1000000000 + octN t 16 4

/-- A shed TLV leaves at once in an LLDPDU in TC7 (R58), also while STANDBY is entered (R53). -/
def State.sendShed (s : State) (p : Nat) (tlv : List Byte) : State :=
  if s.controlMay || (s.pwr.entry.isSome && s.op.service) then s.queueControl p kSHED (s.lldpdu p tlv) else s.barControl p

/-- The agreed change that comes first. -/
def PortDyn.shedFirst (d : PortDyn) : Option Shed := d.shedPrior.or (d.shed.filter (fun x => x.agreed))

/-- Change `x` is asked for or agreed: one that was agreed for a later instant is void, one for an earlier instant is still made
(R53, log 48). -/
def State.placeShed (s : State) (p : Nat) (x : Shed) : State :=
  s.modPort p (fun d => { d with shedPrior := d.shedFirst.filter (fun y => y.instant < x.instant), shed := some x })

/-- A REQUEST for a width in lanes at an instant in ns. -/
def State.shedRequest (s : State) (p lanes instant reason : Nat) (forced : Bool) : State :=
  let seq := ((s.port p).shedSeq + 1) % 256
  let s := (s.modPort p (fun d => { d with shedSeq := seq })).placeShed p ⟨seq, lanes, instant, reason, true, false, forced⟩
  s.sendShed p (shedTlv 1 seq lanes reason instant)

/-- The larger of the reservations that count (R122). -/
def State.reserved (s : State) (p : Nat) : Nat :=
  max (if s.on F.SEN_STATUS.OPER_VALID p then s.fld F.SEN_OPER_RESV p else 0)
    (if s.adminState p = aEMPTY then 0 else s.fld F.SEN_ADMIN_RESV p)

/-- A shed window of at least 4 µs starts at `t` (R121). -/
def State.shedWindowAt (s : State) (p t : Nat) : Bool :=
  let q := s.senPos p t
  q.shed && q.start = t && 4000 ≤ min (clDuration q.word) (q.stop - t)

/-- The first shed window that starts in [from, to]. -/
def State.shedWindowIn (s : State) (p a b : Nat) : Option Nat :=
  (s.ahead p a b).findSome? (fun q => if a ≤ q.start && q.start ≤ b && s.shedWindowAt p q.start then some q.start else none)

/-- The partner sheds (R55). -/
def State.partnerSheds (s : State) (p : Nat) : Bool := s.on F.PRT_PARTNER.VALID p && s.on F.PRT_PARTNER.SHED p

/-- The width in lanes that the loop wants (R56, R57). -/
def State.shedTarget (s : State) (p util : Nat) : Nat :=
  let w := s.lanes p
  if s.fld F.PRT_SHED_CTL.HIGH_PCT p * s.rateOf p w < util * 100 ∨ s.rateOf p w < s.reserved p then 2 * w
  else if 3 ≤ (s.port p).lowRun ∧ s.reserved p ≤ s.rateOf p (w / 2) ∧ 1 < w then w / 2
  else w

/-- A change is asked for, agreed or under way. -/
def State.shedBusy (s : State) (p : Nat) : Bool :=
  let d := s.port p
  d.shed.isSome || d.shedPrior.isSome || d.doneAt.isSome

/-- The output of the loop for the target `t` at the width `w` (R24): the target, or the bound nearest to it. MIN_WIDTH and
MAX_WIDTH count as no wider than the mode. -/
def State.shedOutput (s : State) (p t : Nat) : Nat :=
  let full := lanesOf (s.modeWidth p)
  min (max t (min full (lanesOf (s.fld F.PRT_SHED_CTL.MIN_WIDTH p)))) (min full (lanesOf (s.fld F.PRT_SHED_CTL.MAX_WIDTH p)))

/-- The loop's judgement at the end of a window (R24, R56, R57): a target outside the bounds pins the loop and counts, and the
width that is asked for is the output. Narrowing, which goes one step at a time, needs every condition of R56 (log 40). -/
def State.shedLoop (s : State) (p util : Nat) (partnerSynced : Bool) : State :=
  let w := s.lanes p
  let mayNarrow := s.on F.PRT_SHED_CTL.SHED_EN p && !s.on F.PRT_SHED_STATUS.BLOCKED p && s.on F.NTM_STATUS.SYNCED &&
    partnerSynced
  let want := min (lanesOf (s.modeWidth p)) (s.shedTarget p util)
  let t := if want < w ∧ ¬ mayNarrow then w else want
  let out := s.shedOutput p t
  if s.partnerSheds p = false ∨ (t = w ∧ ¬ s.on F.PRT_SHED_CTL.SHED_EN p) then s.setf F.PRT_SHED_STATUS.PINNED 0 p
  else
    let s := if out = t then s.setf F.PRT_SHED_STATUS.PINNED 0 p
      else (s.setf F.PRT_SHED_STATUS.PINNED 1 p).bump F.SHED_CONFLICT p
    let go := if out < w then (if mayNarrow then w / 2 else w) else out
    if go = w ∨ s.shedBusy p then s
    else match s.shedWindowIn p (s.portNs p + 20000) (s.portNs p + 10000000) with
      | none => s
      | some i => s.shedRequest p go i 0 false

/-- UTILISATION_WINDOW: the end of a 1 ms window. -/
def execUtilisationWindow (p txRate rxRate : Nat) (partnerSynced : Bool) (s : State) : Host.Outcome State Fault Refusal :=
  let util := max txRate rxRate
  atUnit (p < s.nPorts) s
    (if s.phase = .running && s.on F.PRT_STATUS.LINK_UP p && s.fld F.PRT_CTL.MODE p < 2 then
      let t := s.runPeriod ltMs
      let low : Bool := 1 < t.lanes p && util * 100 < t.fld F.PRT_SHED_CTL.LOW_PCT p * t.rateOf p (t.lanes p / 2)
      let t := t.modPort p (fun d => { d with lowRun := if low then min 3 (d.lowRun + 1) else 0 })
      t.shedLoop p util partnerSynced
    else s)

/-- The REFUSE reason of a responder, or none for ACCEPT (R59). -/
def State.shedRefuses (s : State) (p lanes instant : Nat) : Option Nat :=
  let synced := s.on F.NTM_STATUS.SYNCED
  if s.lanes p < lanes then (if synced then none else some 3)
  else if lanes < lanesOf (s.fld F.PRT_SHED_CTL.MIN_WIDTH p) ∨ lanesOf (s.fld F.PRT_SHED_CTL.MAX_WIDTH p) < lanes then some 1
  else if s.rateOf p lanes < s.reserved p then some 2
  else if !synced then some 3
  else if !s.shedWindowAt p instant then some 4
  else if s.on F.PRT_SHED_STATUS.BLOCKED p then some 5
  else none

/-- A REQUEST is answered: at once with Reason 6 (R53), else by the checks of R59. ACCEPT agrees the change. -/
def State.answerShed (s : State) (p : Nat) (t : List Byte) : State :=
  match if shedReason t = 6 then none else s.shedRefuses p (shedLanes t) (shedInstantOf t) with
  | some r => s.sendShed p (shedTlv 3 (shedSeqOf t) (shedLanes t) r (shedInstantOf t))
  | none =>
    (s.placeShed p ⟨shedSeqOf t, shedLanes t, shedInstantOf t, shedReason t, false, true, false⟩).sendShed p
      (shedTlv 2 (shedSeqOf t) (shedLanes t) 0 (shedInstantOf t))

/-- The port's own REQUEST `x` is agreed; with it end the repeats of R53. -/
def State.agreeShed (s : State) (p : Nat) (x : Shed) : State :=
  s.modPort p (fun d => { d with
    shed := some { x with agreed := true }
    standbyWidth := if x.reason = 6 && s.lanes p < x.width then 0 else d.standbyWidth })

/-- A REQUEST from the partner whose port has source address `sa` (R53, R55, R59, R60): it meets the port's own one, or is
answered. -/
def State.takeRequest (s : State) (p sa : Nat) (t : List Byte) : State :=
  if !s.partnerSheds p then s
  else match (s.port p).shed.filter (fun x => !x.agreed) with
    | some x =>
      if x.instant = shedInstantOf t ∧ x.width = shedLanes t then s.agreeShed p x
      else if sa < s.portSa p then (s.modPort p (fun d => { d with shed := none })).answerShed p t
      else s
    | none => s.answerShed p t

/-- An ACCEPT held by 5 µs before the instant agrees the change. -/
def State.takeAccept (s : State) (p : Nat) (t : List Byte) : State :=
  match (s.port p).shed with
  | some x =>
    if x.requester && !x.agreed && x.seq = shedSeqOf t && s.portNs p + 5000 ≤ x.instant then s.agreeShed p x else s
  | none => s

/-- A REFUSE abandons the change. The requester then waits for no ACCEPT any more, and SHED_NOACK does not count (DESIGN CHOICE,
log 73). -/
def State.takeRefuse (s : State) (p : Nat) (t : List Byte) : State :=
  match (s.port p).shed with
  | some x =>
    if x.requester && !x.agreed && x.seq = shedSeqOf t then s.modPort p (fun d => { d with shed := none }) else s
  | none => s

/-- Any shed TLV. -/
def State.takeShed (s : State) (p sa : Nat) (t : List Byte) : State :=
  if !isShed t then s
  else match shedMsg t with
    | 1 => s.takeRequest p sa t
    | 2 => s.takeAccept p t
    | 3 => s.takeRefuse p t
    | _ => s

/-- SHED_NOACK: 5 µs before the instant no ACCEPT is held. -/
def execShedNoack (p : Nat) (s : State) : Host.Outcome State Fault Refusal :=
  atUnit (p < s.nPorts) s
    (match (s.port p).shed with
     | some x =>
       if x.requester && !x.agreed then
         ((s.runToNs (x.instant - 5000)).modPort p (fun d => { d with shed := none })).bump F.SHED_NOACK p
       else s
     | none => s)

/-! ### The change itself (R61, R62) -/

/-- Change `x` would leave the port less than its Sentences reserve (R25); the width of STANDBY is no shedding (R53). -/
def State.overReserved (s : State) (p : Nat) (x : Shed) : Bool :=
  x.reason ≠ 6 && x.width < s.lanes p && s.rateOf p x.width < s.reserved p

/-- The agreed change `x` begins: the port stops transmitting. One that R25 forbids by now is dropped. -/
def State.beginShed (s : State) (p : Nat) (x : Shed) : State :=
  let s := s.modPort p (fun d => if d.shedPrior.isSome then { d with shedPrior := none } else { d with shed := none })
  if s.overReserved p x then s
  else
    (s.setf F.PRT_SHED_STATUS.IN_TRANSITION 1 p).modPort p (fun d => { d with
      shedNow := some x.width, doneAt := some (s.lt + 2 * ltUs)
      standbyWidth := if x.reason = 6 && x.requester && x.width < s.lanes p then s.lanes p else d.standbyWidth })

/-- SHED_INSTANT: both ends stop transmitting at the agreed instant (R61). -/
def execShedInstant (p : Nat) (s : State) : Host.Outcome State Fault Refusal :=
  atUnit (p < s.nPorts) s
    (match (s.port p).shedFirst with
     | some x => if (s.port p).doneAt.isSome then s else ((s.runToNs x.instant).syncCredit p).beginShed p x
     | none => s)

/-- A width change is complete: new width, calibration anew (R262), stamps on a new side (R249). -/
def State.shedDone (s : State) (p lanes : Nat) : State :=
  let s := (s.setWidth p (widthCode lanes)).bump F.SHED_DONE p
  let s := (s.setf F.PRT_SHED_STATUS.FAIL_RUN 0 p).setf F.PRT_SHED_STATUS.IN_TRANSITION 0 p
  let s := s.modPort p (fun d => { d with shedNow := none, doneAt := none, lowRun := 0 })
  (s.newSide p).recalibrate p

/-- A width change fails: the previous width stays, the failure counts, three in a row set BLOCKED. -/
def State.shedFailed (s : State) (p : Nat) : State :=
  let n := min 3 (s.fld F.PRT_SHED_STATUS.FAIL_RUN p + 1)
  let s := (s.bump F.SHED_FAIL p).setf F.PRT_SHED_STATUS.FAIL_RUN n p
  let s := if n = 3 then s.setf F.PRT_SHED_STATUS.BLOCKED 1 p else s
  s.modPort p (fun d => { d with shedNow := none, doneAt := some (s.lt + 2 * ltUs) })

/-- SHED_LOCK_CHECK: at T + 2 µs. -/
def execShedLockCheck (p : Nat) (locked : Bool) (s : State) : Host.Outcome State Fault Refusal :=
  atUnit (p < s.nPorts) s
    (match (s.port p).shedNow, (s.port p).doneAt with
     | some w, some t =>
       let u := (s.runToLt t).syncCredit p
       if locked then u.shedDone p w else u.shedFailed p
     | _, _ => s)

/-- SHED_FAIL_RETRAIN: at T + 4 µs the link is up again, or retrains with PORT_LINK_LOST. -/
def execShedFailRetrain (p : Nat) (up : Bool) (s : State) : Host.Outcome State Fault Refusal :=
  atUnit (p < s.nPorts) s
    (match (s.port p).shedNow, (s.port p).doneAt with
     | none, some t =>
       let u := (s.runToLt t).modPort p (fun d => { d with doneAt := none })
       if up then u.setf F.PRT_SHED_STATUS.IN_TRANSITION 0 p else (u.linkDown p).raise 16 p
     | _, _ => s)

/-- The narrowest width of the mode that carries a rate. -/
def State.widthFor (s : State) (p rate : Nat) : Nat :=
  ([1, 2, 4].find? (fun w => rate ≤ s.rateOf p w)).getD 4

/-- SHED_FORCED_WIDEN: a pending Sentence reserves more than the width carries, and would become operative before the next
shed window (R62). -/
def execShedForcedWiden (p : Nat) (s : State) : Host.Outcome State Fault Refusal :=
  let now := s.portNs p
  let c := (s.port p).sen.change
  let need := s.fld F.SEN_ADMIN_RESV p
  atUnit (p < s.nPorts) s
    (if s.phase = .running && s.swapPending p && s.partnerSheds p && !s.shedAgreed p &&
        s.rateOf p (s.lanes p) < need && s.lanes p < lanesOf (s.modeWidth p) &&
        (s.shedWindowIn p now (c - 1)).isNone then
      (s.shedRequest p (min (s.widthFor p need) (lanesOf (s.modeWidth p))) (now + 20000) 0 true).bump F.SHED_FORCED_WIDEN p
    else s)

/-- STANDBY_WIDEN_RETRY: a port left at one lane after STANDBY repeats its REQUEST every 100 µs (R53). -/
def execStandbyWidenRetry (p : Nat) (s : State) : Host.Outcome State Fault Refusal :=
  atUnit (p < s.nPorts) s
    (if (s.port p).standbyWidth ≠ 0 && !s.shedBusy p && s.pwr.state ≠ .standby && s.pwr.entry.isNone &&
        s.on F.PRT_STATUS.LINK_UP p && s.phase = .running then
      let t := s.runPeriod (100 * ltUs)
      t.shedRequest p (t.port p).standbyWidth (t.portNs p + 20000) 6 false
    else s)

/-- The effect of a write of 1 to BLOCK_CLR. -/
def State.blockClr (s : State) (p : Nat) : State :=
  (s.setf F.PRT_SHED_STATUS.BLOCKED 0 p).setf F.PRT_SHED_STATUS.FAIL_RUN 0 p

/-- BLOCK_CLR (R61). -/
def execBlockClr (p : Nat) (s : State) : Host.Outcome State Fault Refusal :=
  let o := atBar0 (0x10_0100 + 0x1_0000 * p)
  atUnit (p < s.nPorts) s (if s.hostUp then s.gated (0x10 + p) o 0x100_0000 (fun t => t.blockClr p) else s)

/-! ### A received LLDPDU -/

/-- The time to live of an LLDPDU in seconds. -/
def ttlOf (l : List Byte) : Nat :=
  (((tlvs l 64 14).find? (fun t => t.2.1 = 3 && 2 ≤ t.2.2)).map (fun t => oct2 l (t.1 + 2))).getD 0

/-- What one TLV of a received LLDPDU brings: capability, the partner's addFragSize, or a shed message. -/
def State.takeTlv (s : State) (p : Nat) (l : List Byte) (t : Nat × Nat × Nat) : State :=
  if isOrg l 0x9A3C51 1 t then
    if capOk l t.1 t.2.2 then (if ttlOf l = 0 then s.dropPartner p else s.takeCap p l t.1 (ttlOf l))
    else s.bump F.PARTNER_BAD_TLV p
  else if isOrg l 0x9A3C51 2 t then s.takeShed p (saOf l) (slice l t.1 (t.2.2 + 2))
  else if isOrg l 0x00120F 7 t then s.setf F.PRT_MM_STATUS.PARTNER_ADD_FRAG (oct2 l (t.1 + 6) / 8) p
  else s

/-- What TLVs of a received LLDPDU bring, one after the other. -/
def State.takeTlvs (s : State) (p : Nat) (l : List Byte) (ts : List (Nat × Nat × Nat)) : State :=
  ts.foldl (fun s t => s.takeTlv p l t) s

/-- What a received LLDPDU brings. -/
def State.takeLldp (s : State) (p : Nat) (l : List Byte) : State := s.takeTlvs p l (tlvs l 64 14)

/-- An LLDPDU carries a shed TLV of a message. -/
def carriesShed (l : List Byte) (msg : Nat → Bool) : Bool :=
  oct2 l 12 = 0x88CC && (tlvs l 64 14).any (fun t =>
    isOrg l 0x9A3C51 2 t && isShed (slice l t.1 (t.2.2 + 2)) && msg (shedMsg (slice l t.1 (t.2.2 + 2))))

/-- An LLDPDU may be processed: where R28 permits link-local control frames, and, for the shed exchange of R53, while STANDBY is
entered. -/
def State.rxLldp (s : State) (l : List Byte) : Bool :=
  s.rxControl || (s.phase = .running && s.pwr.entry.isSome && s.op.service && carriesShed l (fun _ => true))

/-- An LLDPDU at port `p` is judged (R443) and, when it passes, taken. -/
def State.lldpRx (s : State) (p : Nat) (octets : List Byte) : State :=
  let (ok, t) := s.macRx p octets true (s.rxLldp octets)
  if ok then t.takeLldp p octets else t

/-- LLDPDU_RX (R55). -/
def execLldpduRx (p : Nat) (octets : List Byte) (s : State) : Host.Outcome State Fault Refusal :=
  atUnit (p < s.nPorts) s (if oct2 octets 12 = 0x88CC then s.lldpRx p octets else s)

/-- A frame from the source address `sa`. -/
def withSource (sa : Nat) (octets : List Byte) : List Byte := splice octets 6 6 (beOctets 6 sa)

/-- SHED_REQUEST_RX (R59): the LLDPDU carries a REQUEST. -/
def execShedRequestRx (p sa : Nat) (octets : List Byte) (s : State) : Host.Outcome State Fault Refusal :=
  let l := withSource sa octets
  atUnit (p < s.nPorts) s (if carriesShed l (· = 1) then s.lldpRx p l else s)

/-- SHED_ACCEPT_RX (R59): it carries an ACCEPT. -/
def execShedAcceptRx (p : Nat) (octets : List Byte) (s : State) : Host.Outcome State Fault Refusal :=
  atUnit (p < s.nPorts) s (if carriesShed octets (· = 2) then s.lldpRx p octets else s)

/-- SHED_REFUSE_RX (R59): it carries a REFUSE. -/
def execShedRefuseRx (p : Nat) (octets : List Byte) (s : State) : Host.Outcome State Fault Refusal :=
  atUnit (p < s.nPorts) s (if carriesShed octets (· = 3) then s.lldpRx p octets else s)

/-- PARTNER_TTL_EXPIRY (R55). -/
def execPartnerTtlExpiry (p : Nat) (s : State) : Host.Outcome State Fault Refusal :=
  atUnit (p < s.nPorts) s
    (match (s.port p).partnerTtl with
     | none => s
     | some t => (s.runToLt t).dropPartner p)

end Sys2Proof.Machine
end

