-- ==== Sys2Proof/Machine/MixUnpack.lean ====
section
/-! DEFINITION. What the unpacker does with a frame for its sum bindings (R154 to R159, R181, R192), and what the memory island
does with a video packet (R160, R273). -/

namespace Sys2Proof.Machine

/-! ### From frame to payload (R157) -/

/-- The UDP payload of an IPv4 or IPv6 frame whose headers are well formed. -/
def Frame.udpPayload (f : Frame) : Option (List Byte) :=
  let b := f.etOff + 2
  let l := f.octets.drop b
  if f.etherType = 0x0800 then
    let h := 4 * (oct l 0 % 16)
    let total := oct2 l 2
    let u := oct2 l (h + 4)
    if oct l 0 / 16 = 4 ∧ 20 ≤ h ∧ h + 8 ≤ total ∧ total ≤ l.length ∧ onesSum (l.take h) = 0xFFFF ∧ oct l 9 = 17 ∧
        oct2 l 6 % 2 ^ 14 = 0 ∧ 8 ≤ u ∧ u ≤ total - h then
      some (slice l (h + 8) (u - 8))
    else none
  else if f.etherType = 0x86DD then
    let n := oct2 l 4
    let u := oct2 l 44
    if oct l 0 / 16 = 6 ∧ oct l 6 = 17 ∧ 40 + n ≤ l.length ∧ 8 ≤ u ∧ u ≤ n then some (slice l 48 (u - 8)) else none
  else none

/-- An RTP packet: marker, timestamp, payload. -/
structure Rtp where
  marker : Bool
  ts : Nat
  payload : List Byte
  deriving DecidableEq, Repr

/-- The RTP packet in a UDP payload: version 2; CSRC list, header extension and padding taken away. -/
def rtpOf (l : List Byte) : Option Rtp :=
  let b0 := oct l 0
  let c := 12 + 4 * (b0 % 16)
  let x : Bool := b0.testBit 4
  let h := if x then c + 4 + 4 * oct2 l (c + 2) else c
  let pad := if b0.testBit 5 then oct l (l.length - 1) else 0
  if l.length < 12 ∨ b0 / 64 ≠ 2 ∨ (x ∧ l.length < c + 4) ∨ l.length < h ∨ (b0.testBit 5 ∧ (pad = 0 ∨ l.length < h + pad)) then
    none
  else some ⟨(oct l 1).testBit 7, octN l 4 4, slice l h (l.length - h - pad)⟩

def Frame.rtp (f : Frame) : Option Rtp := f.udpPayload.bind rtpOf

/-! ### Samples (R155 to R159) -/

/-- A sample's octets as a signed 24-bit value. -/
def normSample (format : Nat) (l : List Byte) : Int :=
  match format with
  | 0 => toSigned 16 (beNum l) * 256
  | 1 => toSigned 24 (beNum l)
  | 2 => toSigned 24 (beNum l / 256)
  | _ => toSigned 24 (beNum l)

/-- Sample `n` of a context is written to its slot with its lap tag. A sample that a cutoff has found absent is late (R159). -/
def State.putSample (s : State) (c n : Nat) (v : Int) : State :=
  match SMap.look s.mix.ctxs c with
  | none => s
  | some d =>
    let ring := cxRing (s.ctx c)
    let s := if d.absentRead.contains n then s.bump F.ENG_LATE_SAMPLES (islandOf xCTX c) else s
    let d := { d with
      slots := SMap.put d.slots (n % ring) (v, lapTag ring n), fresh := max d.fresh n,
      absentRead := d.absentRead.filter (fun x => x ≠ n ∧ d.fresh < x + ring) }
    let s := s.clearBad badStore (storeIdx (islandOf xCTX c) (s.slotWord c (n % ring)))
    (s.setTab (ctxTab c + 3) d.fresh).modMix (fun m => { m with ctxs := SMap.put m.ctxs c d })

/-- Samples from media index `n` on. -/
def State.putSamples (s : State) (c : Nat) : (n : Nat) → List Int → State
  | _, [] => s
  | n, v :: r => State.putSamples (s.putSample c n v) c (n + 1) r

/-- The media index nearest to `m` whose low 32 bits are those of `ts − off` (R157). -/
def extendIndex (ts off m : Nat) : Int := (m : Int) + toSigned 32 (ofSigned 32 ((ts : Int) - off - m))

/-- Channel `ch` of a payload for context `c`, whose frame arrived at `t` ns. -/
def State.unpackChannel (s : State) (c ch t : Nat) (r : Rtp) : State :=
  let e := s.ctx c
  let w := sampleOctets (cxFormat e)
  let g := w * cxChannels e
  let reject := s.bump F.ENG_TS_REJECT (islandOf xCTX c)
  if r.payload.length % g ≠ 0 then reject
  else
    let n := r.payload.length / g
    let m := mediaAt t (cxRate e)
    let first := extendIndex r.ts (cxTsOffset e) m
    let fresh := (SMap.val s.mix.ctxs c CtxDyn.reset).fresh
    let ring := cxRing e
    if n = 0 then s
    else if first < 0 ∨ (m + ring : Int) < first ∨ first + n - 1 ≤ (fresh : Int) - ring then reject
    else s.putSamples c first.toNat
      ((List.range n).map (fun j => normSample (cxFormat e) (slice r.payload (j * g + ch * w) w)))

/-! ### UNPACK_FRAME (R181, R192) -/

/-- Video input `v` takes packets: it is configured, the CXM block is enabled and its port MAPPED. -/
def State.videoTakes (s : State) (v : Nat) : Bool :=
  let e := s.videoEntry v
  v < 1024 && viValid e && s.on F.CXM_CTL.ENABLE && (cxlAt (entNum e 2)).any (fun a => s.mapped a.port)

/-- A frame is unpacked for one binding; samples for an engine island that is held in reset are discarded at their sender (R16). -/
def State.unpackBinding (s : State) (f : Frame) (t i : Nat) : State :=
  if s.isBad (badMix xBIND) i then s.tableParity xBIND i
  else
    let b := s.binding i
    let c := bdTarget b
    if ¬ bdValid b then s
    else if bdVideo b then
      (if s.videoTakes c then (s.addUse f.id 1).modMix (fun m => { m with video := m.video ++ [⟨f.id, c⟩] }) else s)
    else if s.engineHeld (islandOf xCTX c) then s.xingDiscard (16 + islandOf xCTX c)
    else if ¬ s.allocated c then s
    else if s.isBad (badMix xCTX) c then s.tableParity xCTX c
    else if cxBus (s.ctx c) ∨ cxChannels (s.ctx c) ≤ bdChannel b then s
    else match f.rtp with
      | none => s.bump F.ENG_TS_REJECT (islandOf xCTX c)
      | some r => s.unpackChannel c (bdChannel b) t r

/-- The bindings of a range, as far as the table goes (R192). -/
def bindRange (base count : Nat) : List Nat := ((List.range count).map (fun j => base + j)).filter (· < 1048576)

/-- The oldest frame that waits is unpacked for each of its bindings, and its samples reach the engine islands. -/
def State.unpackNext (s : State) : State :=
  match s.mix.unpack with
  | [] => s
  | u :: r =>
    let s := (s.runToLt u.due).modMix (fun m => { m with unpack := r })
    match s.frame u.fid with
    | none => s
    | some f =>
      ((bindRange u.base u.count).foldl (fun t i => t.unpackBinding f u.arrival i) s).release u.fid

/-- UNPACK_FRAME: `upsets` are the bindings and contexts that the reading finds with a parity error. -/
def execUnpackFrame (upsets : List Upset) (s : State) : Host.Outcome State Fault Refusal :=
  .next (if s.phase = .running then (upsets.foldl (fun t u => t.markBad (badMix u.table) u.index) s).unpackNext else s)

/-! ### VIDEO_PACKET_STORE (R160, R273; log 28) -/

/-- A sample row data header: length in octets, row, offset in pixels, and whether another follows. -/
structure Srd where
  len : Nat
  row : Nat
  off : Nat
  more : Bool
  deriving DecidableEq, Repr

def srdAt (l : List Byte) (k : Nat) : Srd := ⟨oct2 l k, oct2 l (k + 2) % 2 ^ 15, oct2 l (k + 4) % 2 ^ 15, (oct2 l (k + 4)).testBit 15⟩

/-- The headers from octet `k` on. -/
def srds (l : List Byte) : (fuel k : Nat) → List Srd
  | 0, _ => []
  | n + 1, k => if l.length < k + 6 then [] else srdAt l k :: (if (srdAt l k).more then srds l n (k + 6) else [])

/-- A header names whole pgroups inside the picture. -/
def Srd.ok (x : Srd) (e : List Nat) : Bool :=
  let g := pgroupOctets (vi444 e)
  x.len % g = 0 && x.row < viHeight e && x.off % 2 = 0 && x.off / 2 + x.len / g ≤ viWidth e / 2

/-- Bits set for the pgroups `[a, a + n)`. -/
def markBits (m a n : Nat) : Nat := (List.range n).foldl (fun m i => withBits m (a + i) (a + i) 1) m

/-- Every row of a picture has been received in full. -/
def Picture.full (p : Picture) (e : List Nat) : Bool :=
  p.marker && (List.range (viHeight e)).all (fun r => SMap.val p.rows r 0 = 2 ^ (viWidth e / 2) - 1)

/-- The slot for a new picture: the lowest that holds no complete picture (R273: two at most are kept). -/
def freeSlot (ps : List Picture) : Nat :=
  ((List.range 3).find? (fun k => ¬ ps.any (fun p => p.complete && p.slot = k))).getD 0

/-- The picture of a timestamp is opened where none is; what was being received is discarded as incomplete. -/
def State.openPicture (s : State) (v ts : Nat) : State :=
  let ps := SMap.val s.mix.pictures v []
  if ps.any (fun p => p.ts = ts) then s
  else
    let keep := ps.filter (fun p => p.complete)
    let lost : Bool := ps.any (fun p => !p.complete)
    let s := if lost then s.bumpTab (videoTab v + 7) else s
    s.modMix (fun m => { m with pictures := SMap.put m.pictures v (keep ++ [⟨freeSlot keep, ts, [], false, false⟩]) })

/-- The data of one header are written at their row and offset. -/
def State.storeSrd (s : State) (v : Nat) (p : Picture) (x : Srd) (data : List Byte) : State × Picture :=
  let e := s.videoEntry v
  let g := pgroupOctets (vi444 e)
  match cxlAt (entNum e 2) with
  | none => (s, p)
  | some a =>
    let at' := a.off + (p.slot * viHeight e + x.row) * viStride e + x.off / 2 * g
    let m := markBits (SMap.val p.rows x.row 0) (x.off / 2) (x.len / g)
    (s.cxlWrite a.port at' data, { p with rows := SMap.put p.rows x.row m })

/-- The headers' data, one after the other, from octet `k`. -/
def State.storeSrds (s : State) (v : Nat) (l : List Byte) : List Srd → Nat → Picture → State × Picture
  | [], _, p => (s, p)
  | x :: r, k, p =>
    let (t, q) := s.storeSrd v p x (slice l k x.len)
    State.storeSrds t v l r (k + x.len) q

/-- A picture has taken a packet: when it is complete, the two newest complete pictures are kept, and NEWEST follows. -/
def State.settlePicture (s : State) (v : Nat) (p : Picture) : State :=
  let others := (SMap.val s.mix.pictures v []).filter (fun q => q.ts ≠ p.ts)
  if p.full (s.videoEntry v) then
    let done := (others.filter (fun q => q.complete) ++ [{ p with complete := true }])
    let kept := done.drop (done.length - 2) ++ others.filter (fun q => !q.complete)
    (s.setTab (videoTab v + 6) p.ts).modMix (fun m => { m with pictures := SMap.put m.pictures v kept })
  else s.modMix (fun m => { m with pictures := SMap.put m.pictures v (others ++ [p]) })

/-- The packet of these headers is its picture's last: it carries the end of the last row (R160; log 28). -/
def lastPacket (e : List Nat) (hs : List Srd) : Bool :=
  hs.any (fun x => x.row + 1 = viHeight e && x.off / 2 + x.len / pgroupOctets (vi444 e) = viWidth e / 2)

/-- A packet for video input `v` is stored: extended sequence number, headers, then their data. -/
def State.storePacket (s : State) (v : Nat) (r : Rtp) : State :=
  let e := s.videoEntry v
  let l := r.payload
  let hs := srds l (l.length / 6) 2
  let len := (hs.map (fun x => x.len)).sum
  if hs = [] ∨ hs.any (fun x => !x.ok e) ∨ l.length ≠ 2 + 6 * hs.length + len then s
  else
    let s := s.openPicture v r.ts
    match (SMap.val s.mix.pictures v []).find? (fun p => p.ts = r.ts) with
    | none => s
    | some p =>
      if p.complete then s
      else
        let (t, q) := s.storeSrds v l hs (2 + 6 * hs.length) { p with marker := p.marker || (r.marker && lastPacket e hs) }
        t.settlePicture v q

/-- The oldest packet that waits is stored. -/
def State.storeNext (s : State) : State :=
  match s.mix.video with
  | [] => s
  | j :: r =>
    let s := s.modMix (fun m => { m with video := r })
    match s.frame j.fid with
    | none => s
    | some f =>
      let t := if s.videoTakes j.input then (match f.rtp with
        | some x => s.storePacket j.input x
        | none => s) else s
      t.release j.fid

/-- VIDEO_PACKET_STORE. -/
def execVideoPacketStore (s : State) : Host.Outcome State Fault Refusal :=
  .next (if s.phase = .running then s.storeNext else s)

end Sys2Proof.Machine
end

