-- ==== Sys2Proof/Machine/Concord.lean ====
section
/-! DEFINITION. The Concord ring without its train (R203 to R212, R217, R218, R220 to R231): membership, ring time and its
corrections, sync frames, beacons, breaks, contribution entries. -/

namespace Sys2Proof.Machine

/-- The ring functions and the through-path run: CON_CTL.ENABLE, a state that R28 permits, outputs not stopped, the ring island
not held in reset (R206, R216). -/
def State.conUp (s : State) : Bool := s.on F.CON_CTL.ENABLE && s.op.service && !s.outputsDown && !s.ringHeld

def State.nodeId (s : State) : Nat := s.fld F.CON_NODE.NODE_ID
def State.syncNode (s : State) : Bool := s.on F.CON_NODE.SYNC
def State.isManager (s : State) : Bool := s.on F.CON_STATE.MANAGER

/-- The precedence value of the node (R221). -/
def State.precedence (s : State) : Nat :=
  if s.fld F.CON_NODE.PRECEDENCE = 0xFF then s.nodeId else s.fld F.CON_NODE.PRECEDENCE

/-! ### Ring states -/

/-- The first cycle that starts now or later: from it on the cycles in LISTEN are counted (R220). -/
def State.nextCycle (s : State) : Nat := ceilDiv (s.ringNs s.lt) s.ringCycle

/-- The node enters LISTEN; a node there manages nothing. -/
def State.listen (s : State) : State :=
  (((s.setf F.CON_STATE.STATE rLISTEN).setf F.CON_STATE.MANAGER 0).setf F.CON_STATE.LIMIT_RUN 0).modCon (fun c =>
    { c with
      listenFrom := s.nextCycle, collectEnd := none, collected := [], adopted := none, activeNext := false,
      integrateNext := false, inLimit := 0, accepted := [], prev := [], silence := 0, noPeer := 0, wasActive := false,
      answered := false, slew := 0, applied := 0 })

/-- RING_JOIN refuses the ring ports (R204). -/
def State.ringPortsBad (s : State) : Bool :=
  let w := s.portW
  let e := s.portE
  let bad := fun (p : Nat) => s.nPorts ≤ p || !s.on F.PRT_CTL.ENABLE p || s.fld F.PRT_MAXLEN.MAXLEN p < 8226 ||
    s.on F.PRT_SHED_CTL.SHED_EN p
  w = e || bad w || bad e || s.fld F.PRT_CTL.MODE w ≠ s.fld F.PRT_CTL.MODE e

def State.ringJoin (s : State) : State :=
  if s.joined ∨ ¬ s.on F.CON_CTL.ENABLE then s.finish xWRONGSTATE 7 []
  else if s.ringPortsBad then s.finish xBADARG 7 []
  else
    let (r, s) := s.draw
    let s := (s.setf F.CON_STATE.JOINED 1).listen.modCon (fun c =>
      { c with nonce := r % 65536, backoff := 0, dupHold := false, trainMissed := 0, leaving := false, mgrRef := none, mgrLast := none })
    s.finishOk []

/-- RING_JOIN (R204, R211). -/
def execRingJoin (s : State) : Host.Outcome State Fault Refusal := .next (s.xci 0x40 (fun _ t => t.ringJoin))

/-- RING_LEAVE parks until the end of the cycle (R206, R311). -/
def execRingLeave (s : State) : Host.Outcome State Fault Refusal :=
  .next (s.xci 0x41 (fun _ t =>
    if t.joined then t.park.modCon (fun c => { c with leaving := true }) else t.finish xWRONGSTATE 7 []))

/-- The node is joined no longer: no sync frame, no adding or reading, no manager role (R206). -/
def State.leaveRing (s : State) : State :=
  ((s.listen.setf F.CON_STATE.STATE 0).setf F.CON_STATE.JOINED 0).modCon (fun c =>
    { c with leaving := false, dupHold := false })

/-- The end of the current cycle, which after a join may be one that no cycle start has taken up yet. -/
def State.cycleEnd (s : State) : Nat := (max s.con.cycle (s.ringNs s.lt / s.ringCycle) + 1) * s.ringCycle

/-- RING_LEAVE_DONE: the end of the cycle; every RING_LEAVE that is parked completes. -/
def execRingLeaveDone (s : State) : Host.Outcome State Fault Refusal :=
  .next (if s.con.leaving then (s.runToRingNs s.cycleEnd).leaveRing.finishAll 0x41 xOK 0 [] else s)

/-! ### Frames (R211) -/

/-- The Ethernet header of a Concord frame of the node: destination 1 sync, 2 train, 3 beacon. -/
def State.conHead (s : State) (kind node : Nat) : List Byte :=
  beOctets 6 (0x9B3C51C00000 + kind) ++ beOctets 6 (0x9A3C51CC0000 + s.fld F.CON_CTL.RING_ID * 256 + node) ++
    beOctets 2 (s.fld F.CON_ETYPE.ETYPE)

/-- VERSION, TYPE, RING_ID, node and nonce. -/
def State.conStart (s : State) (kind node : Nat) : List Byte :=
  [1, BitVec.ofNat 8 kind, BitVec.ofNat 8 (s.fld F.CON_CTL.RING_ID), BitVec.ofNat 8 node] ++ beOctets 2 s.con.nonce

/-- A frame carries the Concord EtherType; its TYPE. -/
def State.isConcord (s : State) (l : List Byte) : Bool := oct2 l 12 = s.fld F.CON_ETYPE.ETYPE
def conType (l : List Byte) : Nat := oct l 15
def conSender (l : List Byte) : Nat := oct l 17
def conNonce (l : List Byte) : Nat := oct2 l 18
def conFlags (l : List Byte) : Nat := oct l 20
def conHops (l : List Byte) : Nat := oct l 22

/-- A frame that R211 discards as foreign. -/
def State.conForeign (s : State) (l : List Byte) : Bool :=
  oct l 14 ≠ 1 || oct l 16 ≠ s.fld F.CON_CTL.RING_ID || daOf l < 0x9B3C51C00001 || 0x9B3C51C00003 < daOf l

/-- The node's sync frame of cycle `k`, before its ORIGIN is written. -/
def State.syncFrame (s : State) (k : Nat) : List Byte :=
  let st := s.ringState
  let flags := s.syncNode.toNat + (st = rCOLDSTART : Bool).toNat * 2 + (st = rINTEGRATING : Bool).toNat * 4 +
    s.isManager.toNat * 8
  s.conHead 1 s.nodeId ++ s.conStart 1 s.nodeId ++ [BitVec.ofNat 8 flags, BitVec.ofNat 8 s.precedence, 0, 0, 0, 0] ++
    beOctets 4 k ++ List.replicate 8 0 ++ List.replicate 8 0 ++ beOctets 4 (s.fld F.CON_RATE.RATE) ++
    beOctets 4 (s.fld F.CON_CORR.OFFSET) ++ List.replicate 24 0

/-- The node sends a sync frame in cycle `k` (the state table; INTEGRATING from the cycle after adoption). -/
def State.sendsSync (s : State) (k : Nat) : Bool :=
  s.conUp && s.joined &&
    (s.ringState = rCOLDSTART || s.ringState = rACTIVE ||
      (s.ringState = rINTEGRATING && s.con.adopted ≠ some k))

/-- The cycle whose slot comes next: the present one while its slot has not begun, else the next. -/
def State.slotCycle (s : State) : Nat :=
  if s.con.slotDone ≠ some s.con.cycle ∧ s.ringNow ≤ s.slotBegin s.con.cycle then s.con.cycle else s.con.cycle + 1

/-- SYNC_FRAME_TX. -/
def execSyncFrameTx (s : State) : Host.Outcome State Fault Refusal :=
  .next (
    let k := s.slotCycle
    if ¬ s.sendsSync k ∨ s.nPorts ≤ s.portE ∨ s.con.slotDone = some k then s
    else
      let t := (s.runToRing (s.slotBegin k)).modCon (fun c => { c with slotDone := some k })
      t.sendDue s.portE kCONCORD (t.syncFrame k))

/-- BEACON_TX: once per round, when the train window has ended, a beacon on both ring ports (R231). -/
def State.beacon (s : State) (side : Nat) : List Byte :=
  s.conHead 3 s.nodeId ++ s.conStart 3 s.nodeId ++ [BitVec.ofNat 8 side] ++ List.replicate 39 0

def execBeaconTx (s : State) : Host.Outcome State Fault Refusal :=
  .next (
    if ¬ s.conUp ∨ ¬ s.joined ∨ s.con.beaconSent ∨ s.nPorts ≤ s.portW ∨ s.nPorts ≤ s.portE then s
    else
      let t := (s.runToRingNs (s.con.round * ringRound + 25600 + s.trainWindow)).modCon (fun c => { c with beaconSent := true })
      (t.sendControl t.portW kBEACON (t.beacon 0)).sendControl t.portE kBEACON (t.beacon 1))

/-! ### Ring ports (R231) -/

/-- A Concord frame has come in at a ring port: a port that was down is up, from the next round on for a whole one. -/
def State.heardOn (s : State) (fromE : Bool) : State :=
  let f := if fromE then F.CON_STATE.E_DOWN else F.CON_STATE.W_DOWN
  let was := s.on f
  (s.setf f 0).modCon (fun c =>
    { c with heard := fromE :: c.heard, downed := if was then fromE :: c.downed else c.downed })

/-- The ring port at which a frame arrives. -/
def State.ringIn (s : State) (fromE : Bool) : Nat := if fromE then s.portE else s.portW

/-- Where the through-path sends a frame, and whether it wraps (the table of R231): a frame that comes in at a port where
the node wraps goes nowhere. -/
def State.ringOut (s : State) (fromE : Bool) : Option (Nat × Bool) :=
  if s.on (if fromE then F.CON_STATE.WRAP_E else F.CON_STATE.WRAP_W) then none
  else if fromE then (if s.on F.CON_STATE.WRAP_W then some (s.portE, true) else some (s.portW, false))
  else (if s.on F.CON_STATE.WRAP_E then some (s.portW, true) else some (s.portE, false))

/-- RING_PORT_DOWN: link down, or no Concord frame for 3 rounds (R231). -/
def State.ringDown (s : State) (portE : Bool) : State :=
  let f := if portE then F.CON_STATE.E_DOWN else F.CON_STATE.W_DOWN
  let quiet := if portE then s.con.quietE else s.con.quietW
  if ¬ s.conUp ∨ s.on f ∨ (s.on F.PRT_STATUS.LINK_UP (s.ringIn portE) ∧ quiet < 3) then s
  else
    let s := (s.setf f 1).bump F.WRAP_EVENTS
    (s.modCon (fun c => { c with downed := portE :: c.downed })).raise 48 portE.toNat

def execRingPortDown (portE : Bool) (s : State) : Host.Outcome State Fault Refusal := .next (s.ringDown portE)

/-- RING_WRAP_END: at the round start after 3 rounds with the port up. -/
def execRingWrapEnd (portE : Bool) (s : State) : Host.Outcome State Fault Refusal :=
  .next (
    let up := if portE then s.con.upE else s.con.upW
    let down := s.on (if portE then F.CON_STATE.E_DOWN else F.CON_STATE.W_DOWN)
    if up < 3 ∨ down then s else s.setf (if portE then F.CON_STATE.WRAP_E else F.CON_STATE.WRAP_W) 0)

/-! ### Beacons and sync frames received -/

/-- A Concord frame that is neither a train frame nor foreign keeps its port up; `f` is the rest. While the ring island is held in
reset the frame is discarded on its way there (R16); in an operating state that bars it, it is discarded as any frame (R29). A foreign beacon
counts in SYNC_FOREIGN, as a foreign sync frame does (DESIGN CHOICE, log 73). -/
def State.conRx (s : State) (fromE : Bool) (l : List Byte) (f : State → State) : State :=
  if s.on F.CON_CTL.ENABLE ∧ s.ringIn fromE < s.nPorts ∧ ¬ s.op.service then (s.macRx (s.ringIn fromE) l true false).2
  else if s.on F.CON_CTL.ENABLE ∧ s.ringHeld then s.xingDiscard islRing
  else if ¬ s.conUp then s
  else s.rxLocal (s.ringIn fromE) l (fun t =>
    if t.conForeign l then t.bump F.SYNC_FOREIGN else f (t.heardOn fromE))

/-- BEACON_RX. -/
def execBeaconRx (fromE : Bool) (octets : List Byte) (s : State) : Host.Outcome State Fault Refusal :=
  .next (s.conRx fromE octets id)

/-- The record of a sync frame that came in at ring port `p`, with the receive one-way delay of R258. -/
def State.syncRec (s : State) (p : Nat) (l : List Byte) : SyncRec :=
  let arr := s.ringRxStamp p (s.rxPoint p l)
  let corr := toSigned 64 (octN l 38 8)
  let origin := octN l 30 4 * 65536 + oct2 l 34
  let delay := s.fldS F.TSU_LINK_DELAY p + s.fldS F.TSU_ASYM p
  let start : Int := (s.con.cycle * s.ringCycle * 65536 : Nat)
  { sender := conSender l, flags := conFlags l, precedence := oct l 21, cycle := octN l 26 4, origin := origin,
    correction := corr, delay := delay, dev := arr - corr - delay - (start + origin), arrival := arr }

def SyncRec.sync (r : SyncRec) : Bool := r.flags.testBit 0
def SyncRec.cold (r : SyncRec) : Bool := r.flags.testBit 1
def SyncRec.integ (r : SyncRec) : Bool := r.flags.testBit 2

/-- A cycle counter extended to the number nearest to network time's (log 29). -/
def State.extendCycle (s : State) (c : Nat) : Nat :=
  let near : Int := ((s.ns - s.fld F.CON_PHASE.PHASE) / s.ringCycle : Nat)
  let x := near + toSigned 32 (ofSigned 32 ((c : Int) - near))
  if x < 0 then c else x.toNat

/-- Ring time is taken from a sync frame (R223). -/
def State.adopt (s : State) (r : SyncRec) : State :=
  let cyc := s.extendCycle r.cycle
  let want : Int := (cyc * s.ringCycle * 65536 : Nat) + r.origin + r.correction + r.delay
  let rt := s.con.rt + (want - r.arrival) * 65536
  let ns := (rt.fdiv ringUnit).toNat
  s.modCon (fun c =>
    { c with hasTime := true, rt := rt, rest := 0, slew := 0, cycle := ns / s.ringCycle, round := ns / ringRound,
             adopted := some (ns / s.ringCycle) })

/-- A frame is sent on with HOPS incremented; the ingress stamp comes off its CORRECTION, to which the link delay is
added (R212). -/
def State.forwardSync (s : State) (fromE : Bool) (l : List Byte) (r : SyncRec) : State :=
  if conHops l = 127 then s
  else
    let l := putAt l 22 (beOctets 1 (conHops l + 1))
    let l := putAt l 38 (beOctets 8 (ofSigned 64 (r.correction + r.delay - r.arrival)))
    match s.ringOut fromE with
    | some (p, _) => s.sendDue p kCONCORD l
    | none => s

/-- A sync frame in LISTEN: a sync node that is ACTIVE or COLDSTART starts, or joins, a collection (R223). -/
def State.collect (s : State) (p : Nat) (r : SyncRec) : State :=
  let s := s.modCon (fun c => { c with listenFrom := s.nextCycle })
  if ¬ r.sync ∨ r.integ ∨ s.con.dupHold then s
  else if ¬ s.on F.TSU_STATUS.DELAY_VALID p then s.bump F.SYNC_NO_DELAY
  else s.modCon (fun c =>
    { c with collectEnd := some (c.collectEnd.getD (s.lt + 25600 * ltNs)), collected := c.collected ++ [r] })

/-- A sync frame is judged against the acceptance window (R225). -/
def State.measureSync (s : State) (p : Nat) (r : SyncRec) : State :=
  let ts := r.arrival - r.correction - r.delay
  let slot : Int := ((s.con.cycle * s.ringCycle + 400 * r.sender) * 65536 : Nat)
  let refused := s.modCon (fun c => { c with rejected := c.rejected + 1 })
  if r.cycle ≠ s.con.cycle % 2 ^ 32 then refused
  else if ¬ s.on F.TSU_STATUS.DELAY_VALID p then refused.bump F.SYNC_NO_DELAY
  else if (s.fld F.CON_SYNC.PRECISION + 10) * 65536 < (ts - slot).natAbs then refused.bump F.CON_REJECT.REJECTS 0 (r.sender % 64)
  else s.modCon (fun c => { c with accepted := c.accepted ++ [r] })

/-- The frame has come in after round offset 114 µs of the first round of its own cycle, its CYCLE being taken as the number nearest
to the local cycle (R225). -/
def State.syncLate (s : State) (r : SyncRec) : Bool :=
  let c : Int := s.con.cycle + toSigned 32 (ofSigned 32 ((r.cycle : Int) - s.con.cycle))
  (c * s.ringCycle + 114000) * ringUnit < s.ringNow

/-- What the node's state makes of another node's first copy of a sync frame. -/
def State.useSync (s : State) (p : Nat) (r : SyncRec) : State :=
  let st := s.ringState
  let s := if r.sync then s.modCon (fun c => { c with peerHeard := true }) else s
  if st = rLISTEN then s.collect p r
  else if st = rCOLDSTART then
    (if r.cold then
      (if r.precedence < s.precedence ∨ (r.precedence = s.precedence ∧ r.sender < s.nodeId) then
        ((s.bump F.CS_YIELD).listen.modCon (fun c => { c with backoff := 0 })).collect p r
      else s.bump F.CS_IGNORED)
    else if r.integ then s.modCon (fun c => { c with answered := true })
    else s)
  else if st = rPASSIVE then
    (if r.sync ∧ ¬ r.cold ∧ ¬ r.integ ∧ ¬ s.con.integrateNext ∧ s.on F.TSU_STATUS.DELAY_VALID p then
      (s.adopt r).modCon (fun c => { c with integrateNext := true })
    else s)
  else if st = rINTEGRATING ∨ st = rACTIVE then
    (let s := if s.syncLate r then s.bump F.SYNC_LATE else s
     if 114000 * ringUnit < s.ringNow.fmod (s.ringCycle * ringUnit) then s else s.measureSync p r)
  else s

/-- A node with this node's ID and another nonce (R224). -/
def State.dupNode (s : State) : State :=
  if s.con.dupHold then s
  else (s.listen.modCon (fun c => { c with dupHold := true })).raise 51 s.nodeId

/-- A sync frame that passed the port's checks. -/
def State.takeSync (s : State) (fromE : Bool) (l : List Byte) : State :=
  let p := s.ringIn fromE
  let r := s.syncRec p l
  let key := r.sender * 2 ^ 32 + r.cycle
  if r.sender = s.nodeId ∧ conNonce l = s.con.nonce then s
  else if s.joined ∧ r.sender = s.nodeId then s.dupNode
  else if s.con.seen.contains key then s
  else
    let s := s.modCon (fun c => { c with seen := c.seen.filter (fun x => x / 2 ^ 32 ≠ r.sender ∨ r.cycle ≤ x % 2 ^ 32 + 1) ++ [key] })
    (if s.joined then s.useSync p r else s).forwardSync fromE l r

/-- SYNC_FRAME_RX. -/
def execSyncFrameRx (fromE : Bool) (octets : List Byte) (s : State) : Host.Outcome State Fault Refusal :=
  .next (s.conRx fromE octets (fun t => t.takeSync fromE octets))

/-- The collected frame with the lowest precedence, the lower node on a tie. -/
def bestRec (l : List SyncRec) : Option SyncRec :=
  l.foldl (fun (b : Option SyncRec) r =>
    match b with
    | some x => if r.precedence < x.precedence ∨ (r.precedence = x.precedence ∧ r.sender < x.sender) then some r else b
    | none => some r) none

/-- SYNC_COLLECTION_END: adoption, and INTEGRATING (R223). -/
def execSyncCollectionEnd (s : State) : Host.Outcome State Fault Refusal :=
  .next (match s.con.collectEnd with
    | none => s
    | some t =>
      let u := s.runToLt t
      match bestRec u.con.collected with
      | none => u
      | some r =>
        if u.ringState ≠ rLISTEN then u
        else ((u.adopt r).setf F.CON_STATE.STATE rINTEGRATING).modCon (fun c =>
          { c with collectEnd := none, collected := [], inLimit := 0 }))

/-! ### Cold start (R220 to R222) -/

/-- COLDSTART_ENTRY: at a cycle start, after LISTEN cycles without a sync frame. -/
def State.coldstart (s : State) : State :=
  if ¬ (s.conUp ∧ s.ringState = rLISTEN ∧ s.on F.CON_NODE.COLDSTART_EN ∧ s.syncNode ∧ ¬ s.con.dupHold ∧
      s.con.listenFrom + s.fld F.CON_SYNC.LISTEN + s.con.backoff ≤ s.con.cycle) then s
  else
    let s := if s.con.hasTime then s
      else
        let n := s.ns - s.fld F.CON_PHASE.PHASE
        s.modCon (fun c => { c with
          hasTime := true, rt := (s.time.nt : Int) - (s.fld F.CON_PHASE.PHASE : Int) * ringUnit, rest := 0,
          cycle := n / s.ringCycle, round := n / ringRound })
    (((s.setf F.CON_STATE.STATE rCOLDSTART).setf F.CON_STATE.LIMIT_RUN 0).bump F.CS_ATTEMPTS).modCon (fun c =>
      { c with csStart := c.cycle, answered := false, collectEnd := none, collected := [] })

def execColdstartEntry (s : State) : Host.Outcome State Fault Refusal := .next s.coldstart

/-- COLDSTART_FAIL: 4 cycles without an INTEGRATING answer. -/
def execColdstartFail (s : State) : Host.Outcome State Fault Refusal :=
  .next (
    if s.ringState ≠ rCOLDSTART ∨ s.con.answered then s
    else
      let t := s.runToRingNs ((s.con.csStart + 4) * s.ringCycle)
      let (r, t) := t.draw
      (t.bump F.CS_FAILED).listen.modCon (fun c => { c with backoff := r % 4 }))

/-! ### Corrections (R226 to R228) -/

/-- Ascending insertion of deviations. -/
def insertInt (n : Int) : List Int → List Int
  | [] => [n]
  | x :: r => if n ≤ x then n :: x :: r else x :: insertInt n r

/-- k of R226. -/
def ftmDrop (n : Nat) : Nat := if n < 3 then 0 else if n ≤ 6 then 1 else 2

/-- The midpoint of R226, truncated toward zero. -/
def ftm (l : List Int) : Int :=
  let m := l.foldr insertInt []
  let k := ftmDrop m.length
  let r := (m.drop k).take (m.length - 2 * k)
  match r with
  | [] => 0
  | x :: _ => (x + r.getLastD x).tdiv 2

/-- Ascending insertion by sender. -/
def insertRec' (r : SyncRec) : List SyncRec → List SyncRec
  | [] => [r]
  | x :: l => if r.sender ≤ x.sender then r :: x :: l else x :: insertRec' r l

/-- The deviations of M: at most 16 sync senders, the lowest node IDs, and the node's own. -/
def State.deviations (s : State) : List Int :=
  let l := ((s.con.accepted.filter (fun r => r.sync && !r.integ)).foldr insertRec' []).take 16
  l.map (fun r => r.dev) ++ (if s.ringState = rACTIVE ∧ s.syncNode then [0] else [])

/-- A limit in ppb as a rate in units of 2^-32. -/
def ppbUnits (ppb : Nat) : Int := (ppb * 2 ^ 32 / 1000000000 : Nat)

/-- The rate correction of an odd cycle (R228); frames with INTEGRATING set never enter it. -/
def State.correctRate (s : State) : State :=
  if s.con.cycle % 2 = 0 then s
  else
    let d := (s.con.accepted.filter (fun r => !r.integ)).filterMap (fun r =>
      (s.con.prev.find? (fun x => x.sender = r.sender && !x.integ)).map (fun x => r.dev - x.dev - s.con.prevO))
    let own := if s.con.wasActive ∧ s.ringState = rACTIVE ∧ s.syncNode then [0] else []
    let lim := ppbUnits (s.fld F.CON_RATE_LIMIT.LIMIT)
    let r := s.fldS F.CON_RATE.RATE - (ftm (d ++ own) * 65536).tdiv s.ringCycle
    let s := if clampInt (-lim) lim r ≠ r then s.bump F.LIMIT_EXCEED else s
    s.modCon (fun c => { c with rateNext := some (clampInt (-lim) lim r) })

/-- A correction in 2^-16 ns is slewed over the last 10 µs of the cycle (R227). -/
def State.slewRing (s : State) (o : Int) : State := s.modCon (fun c => { c with applied := o, slew := o * 65536 })

/-- The node enters PASSIVE (R227). -/
def State.passive (s : State) : State :=
  ((s.setf F.CON_STATE.STATE rPASSIVE).bump F.PASSIVE_ENTRIES).raise 52 0

/-- What an ACTIVE node does with its correction. -/
def State.activeCorrection (s : State) (o lim : Int) : State :=
  let peers : Bool := s.con.accepted.any (fun r => r.sync)
  let noPeer := if s.syncNode && !peers && s.con.peerHeard then s.con.noPeer + 1 else 0
  let silence := if s.con.accepted = [] then s.con.silence + 1 else 0
  let s := s.modCon (fun c => { c with noPeer := noPeer, silence := silence })
  if (o.natAbs : Int) ≤ lim then
    let s := (s.setf F.CON_STATE.LIMIT_RUN 0).slewRing o
    if 2 ≤ noPeer then s.passive else s
  else
    let run := min 2 (s.fld F.CON_STATE.LIMIT_RUN + 1)
    let s := (s.bump F.LIMIT_EXCEED).setf F.CON_STATE.LIMIT_RUN run
    if run = 1 then
      let s := s.slewRing (clampInt (-lim) lim o)
      if 2 ≤ noPeer then s.passive else s
    else s.passive

/-- What an INTEGRATING node does with its correction (R223): the cycle of the adoption itself does not count. -/
def State.integCorrection (s : State) (o lim : Int) : State :=
  if s.con.adopted = some s.con.cycle then s
  else if lim < (o.natAbs : Int) then
    ((s.bump F.LIMIT_EXCEED).listen).setf F.CON_STATE.LIMIT_RUN (min 2 (s.fld F.CON_STATE.LIMIT_RUN + 1))
  else if s.con.accepted = [] then (s.setf F.CON_STATE.LIMIT_RUN 0).listen
  else ((s.setf F.CON_STATE.LIMIT_RUN 0).slewRing o).modCon (fun c => { c with inLimit := c.inLimit + 1, activeNext := 1 ≤ c.inLimit })

/-- The measurements of the cycle are closed. -/
def State.closeSync (s : State) : State :=
  let m := s.deviations
  let o := -(ftm m)
  let lim : Int := (s.fld F.CON_SYNC.OFFSET_LIMIT * 65536 : Nat)
  let s := s.setf F.CON_CORR.OFFSET (ofSigned 32 o)
  let s := s.setf F.CON_ACCEPT.K (ftmDrop m.length)
  let s := s.setf F.CON_ACCEPT.USED m.length
  let s := s.setf F.CON_ACCEPT.REJECTED (min 255 s.con.rejected)
  let s := s.setf F.CON_ACCEPT.ACCEPTED (min 255 s.con.accepted.length)
  let s := (s.modCon (fun c => { c with applied := 0, closed := true })).correctRate
  if s.ringState = rACTIVE then s.activeCorrection o lim else s.integCorrection o lim

/-- SYNC_MEASUREMENT_CLOSE: at offset 114 µs of the cycle's first round (R226). -/
def execSyncMeasurementClose (s : State) : Host.Outcome State Fault Refusal :=
  .next (
    if ¬ s.conUp ∨ s.con.closed ∨ ¬ s.con.hasTime ∨ ¬ (s.ringState = rACTIVE ∨ s.ringState = rINTEGRATING) then s
    else (s.runToRingNs (s.con.cycle * s.ringCycle + 114000)).closeSync)

/-- SYNC_SILENCE_TIMEOUT: 8 cycles in ACTIVE without an accepted frame (R224). -/
def execSyncSilenceTimeout (s : State) : Host.Outcome State Fault Refusal :=
  .next (if s.ringState = rACTIVE ∧ 8 ≤ s.con.silence then s.listen else s)

/-! ### Cycle starts (R207, R227 to R230) -/

/-- The manager measures e and publishes the steering target (R229). -/
def State.measureSteer (s : State) : State :=
  if ¬ s.isManager then s
  else if ¬ s.on F.NTM_STATUS.SYNCED then
    (s.setf F.CON_STATE.STEER_HOLD 1).modCon (fun c => { c with steerPub := 0, steerNext := some 0 })
  else
    let e := s.con.rt - ((s.time.nt : Int) - (s.fld F.CON_PHASE.PHASE : Int) * ringUnit)
    let cap := (ppbUnits (s.fld F.CON_RATE_LIMIT.LIMIT)).tdiv 4
    let want := (-e).tdiv (8 * s.ringCycle : Nat)
    let pub := clampInt (-cap) cap want
    let s := (s.setf F.CON_STATE.STEER_HOLD 0).setf F.CON_STATE.STEER_PINNED (pub ≠ want : Bool).toNat
    (if pub ≠ want then s.bump F.STEER_CONFLICT else s).modCon (fun c => { c with steerPub := pub, steerNext := some pub })

/-- The node enters ACTIVE: the cycles of R224 and R227 without a frame are counted from here. -/
def State.enterActive (s : State) : State :=
  ((s.setf F.CON_STATE.STATE rACTIVE).setf F.CON_STATE.LIMIT_RUN 0).modCon (fun c => { c with silence := 0, noPeer := 0 })

/-- The state that a cycle start brings; a node in INTEGRATING manages nothing. -/
def State.cycleState (s : State) : State :=
  let st := s.ringState
  if (st = rCOLDSTART ∧ s.con.answered) ∨ (st = rINTEGRATING ∧ s.con.activeNext) then s.enterActive
  else if st = rPASSIVE ∧ s.con.integrateNext then
    ((s.setf F.CON_STATE.STATE rINTEGRATING).setf F.CON_STATE.MANAGER 0).modCon (fun c => { c with adopted := none, inLimit := 0 })
  else s

/-- A cycle starts: the slew is complete, the rate and the steering term of the cycle before apply. -/
def State.startCycle (s : State) : State :=
  let n := s.con.cycle + 1
  let s := match s.con.rateNext with
    | some r => s.setf F.CON_RATE.RATE (ofSigned 32 r)
    | none => s
  let s := match s.con.steerNext with
    | some r => s.setf F.CON_STEER.STEER (ofSigned 32 r)
    | none => s
  let was : Bool := s.ringState = rACTIVE && s.syncNode
  let s := s.modCon (fun c =>
    { c with
      rt := c.rt + c.slew, slew := 0, cycle := n, rateNext := none, steerNext := none,
      steerTaken := false, prev := c.accepted, accepted := [], rejected := 0, prevO := c.applied, applied := 0,
      wasActive := was, closed := false, peerHeard := false })
  (s.cycleState.modCon (fun c => { c with activeNext := false, integrateNext := false, answered := false })).measureSteer

/-- RING_CYCLE_START: the first cycle that the node has not taken up. -/
def execRingCycleStart (s : State) : Host.Outcome State Fault Refusal :=
  .next (
    if s.phase ≠ .running ∨ ¬ s.joined then s
    else
      let s := s.modCon (fun c => { c with cycle := max c.cycle (s.ringNs s.lt / s.ringCycle - 1) })
      (s.runToRingNs ((s.con.cycle + 1) * s.ringCycle)).startCycle)

/-! ### Contribution entries (R217, R218) -/

/-- A context that a contribution names is allocated while it is named (R217). -/
def State.nameContext (s : State) (c : Nat) : State :=
  if s.allocated c ∨ s.nIslands ≤ islandOf xCTX c then s
  else ((s.takeStore c (2 ^ cxRingJ (s.ctx c))).setTab (ctxTab c + 3) 0).modMix (fun m =>
    { m with ctxs := SMap.put m.ctxs c CtxDyn.reset })

/-- The whole entry of a bus channel is applied. -/
def State.applyContrib (s : State) (ch : Nat) (ws : List (Nat × Word)) : State :=
  let s := { ws.foldl (fun (t : State) x => t.setTab x.1 x.2.toNat) s with conCol := none }
  let e := s.contribEntry ch
  let s := s.freeStore (s.banksInUse ++ (if s.mix.drainEnd.isSome then [1 - s.operBank] else []) ++
    s.mix.pending.toList.map (fun x => x.bank))
  if tmValid e then s.nameContext (tmCtx e) else s

/-- The effect of a dword write at an offset of the ring region. -/
def State.contribWrite (s : State) (o : Origin4) (off data : Nat) : State :=
  let ch := off / 8
  let w := off / 4 % 2
  let ctx := s.ctx (data % 2 ^ 19)
  if w = 0 ∧ data.testBit 31 ∧ (cxBus ctx ∨ cxRate ctx = 1) then s.refuse o data cRULE
  else
    let old := match s.conCol with
      | some c => if c.entry = contribTab ch then c.writes else []
      | none => []
    let ws := old ++ [(contribTab ch + w, BitVec.ofNat 32 data)]
    if w = 1 then s.applyContrib ch ws else { s with conCol := some ⟨contribTab ch, ws⟩ }

/-- CONTRIBUTION_ENTRY_WRITE (R217). -/
def execContributionEntryWrite (off : Nat) (data : Word) (s : State) : Host.Outcome State Fault Refusal :=
  let o := atBar2 (0x1340_8000 + off)
  .next (if s.hostUp && off < 0x2000 then s.gatedTab o data.toNat (fun t => t.contribWrite o off data.toNat) else s)

/-- MEDIA_INDEX of the block of a round (R218). -/
def State.mediaIndex (s : State) (round : Nat) : Nat :=
  mediaAt (round * ringRound + s.fld F.CON_PHASE.PHASE) 0 - s.fld F.CON_BUS.LAG

/-- A state in which the node adds and reads. -/
def State.addState (s : State) : Bool :=
  s.ringState = rINTEGRATING || s.ringState = rACTIVE || s.ringState = rPASSIVE

/-- A sample times a gain, rounded and saturated as L24 output (R163). -/
def contribution (v gain : Int) : Int :=
  let p := v * gain
  let q := p.fdiv (2 ^ 20 : Nat)
  let r := p.fmod (2 ^ 20 : Nat)
  clampInt (-8388608) 8388607 (if r < 2 ^ 19 ∨ (r = 2 ^ 19 ∧ q % 2 = 0) then q else q + 1)

/-- The valid contribution entries as a round begins: channel, context, gain. An entry written later is used from the next round's
cutoff on (R217). A node that does not add keeps nothing of an earlier round to add after a release (R362). -/
def State.takeEntries (s : State) : State :=
  s.modCon (fun c => { c with
    contrib := if s.joined && s.addState && s.op = .operational then c.contrib else []
    entries := s.contributed.map (fun ch => (ch, tmCtx (s.contribEntry ch), tmGain (s.contribEntry ch))) })

/-- CONTRIBUTION_CUTOFF: at round offset 20.0 µs the six samples of each contribution are read and scaled. -/
def State.contribute (s : State) : State :=
  let m := s.mediaIndex s.con.round
  s.con.entries.foldl (fun t e =>
    let vs := (List.range 6).map (fun j => t.sampleAt e.2.1 (m + j))
    (t.bump F.CONTRIB_ABSENT 0 0 (vs.filter (fun v => v.isNone)).length).modCon (fun c =>
      { c with contrib := SMap.put c.contrib e.1 (vs.map (fun v => contribution (v.getD 0) e.2.2)) }))
    (s.modCon (fun c => { c with contrib := [] }))

def execContributionCutoff (s : State) : Host.Outcome State Fault Refusal :=
  .next (
    if s.conUp && s.joined && s.addState && s.op = .operational then
      (s.runToRingNs (s.con.round * ringRound + 20000)).contribute
    else s)

end Sys2Proof.Machine
end

