-- ==== Sys2Proof/Machine/Train.lean ====
section
/-! DEFINITION. The Concord train (R210, R211, R213 to R216, R219, R232 to R235) and the remote commands that it carries (R236,
R237): rounds, launch, the through-path, the manager, and what resets leave of the ring (R238). -/

namespace Sys2Proof.Machine

/-! ### Train frames (R211) -/

/-- FLAGS, FRAME and CH64 of a train frame. -/
def trPass (l : List Byte) : Bool := (oct l 20).testBit 0
def trRead (l : List Byte) : Bool := (oct l 20).testBit 1
def trWrapped (l : List Byte) : Bool := (oct l 20).testBit 2
def trIndex (l : List Byte) : Nat := oct l 21 % 4
def trCount (l : List Byte) : Nat := oct l 21 / 4 % 4 + 1
def trChannels (l : List Byte) : Nat := 64 * oct l 26

/-- A train frame with a bit of FLAGS set or cleared. -/
def trFlag (bit : Nat) (x : Bool) (l : List Byte) : List Byte :=
  putAt l 20 (beOctets 1 (withBits (oct l 20) bit bit x.toNat))

/-- Body octets in a frame; where body octet `b` stands in the frame that carries it. -/
def trBlock : Nat := 8192
def trAt (b : Nat) : Nat := 30 + b % trBlock

/-- Where sample `j` of bus channel `ch` stands in the body of a train of `n` channels. -/
def trSample (n ch j : Nat) : Nat := 2112 + 4 * (j * n + ch)

/-- Bus channels of this node's trains, and the frames that they take. -/
def State.busCount (s : State) : Nat := 64 * s.fld F.CON_BUS.CH64
def State.trainCount (s : State) : Nat := ceilDiv (2112 + 24 * s.busCount) trBlock

/-- The node adds contributions; it reads samples (R219). -/
def State.adds (s : State) : Bool := s.conUp && s.joined && s.addState && s.op = .operational
def State.readsBus (s : State) : Bool := s.adds && s.on F.MIX_CTL.ENABLE

/-- The node section. -/
def State.nodeSection (s : State) : List Byte :=
  let flags := (s.on F.CON_STATE.W_DOWN).toNat + (s.on F.CON_STATE.E_DOWN).toNat * 2 +
    (s.on F.CON_STATE.WRAP_W || s.on F.CON_STATE.WRAP_E).toNat * 4 + (s.adds && s.contributed ≠ []).toNat * 8 +
    (s.op ≠ .operational : Bool).toNat * 16
  beOctets 1 (0x80 + s.ringState) ++ beOctets 1 flags ++ beOctets 2 s.contributed.length ++
    beOctets 4 (s.fld F.CON_CORR.OFFSET) ++ beOctets 4 (s.fld F.CON_RATE.RATE) ++
    beOctets 2 (s.fld F.CON_ACCEPT.ACCEPTED) ++ beOctets 2 (s.fld F.CON_ACCEPT.REJECTED)

/-- The 128 octets of a command slot. -/
def Slot.octets (x : Slot) : List Byte :=
  beOctets 1 x.state ++ beOctets 1 x.target ++ beOctets 2 x.seq ++ List.replicate 12 0 ++
    (List.range 14).flatMap (fun w => beOctets 4 (x.words.getD w 0)) ++ List.replicate 56 0

/-- The command slot that stands at octet `k` of a frame. -/
def slotAt (l : List Byte) (k : Nat) : Slot :=
  ⟨oct l k, oct l (k + 1), oct2 l (k + 2), (List.range 14).map (fun w => octN l (k + 16 + 4 * w) 4), 0⟩

/-- The train body that the manager builds, before its contributions are added (R234). -/
def State.buildBody (s : State) : List Byte :=
  let head := beOctets 8 (s.mediaIndex s.con.round) ++ beOctets 4 (ofSigned 32 s.con.steerPub) ++
    beOctets 1 (s.fld F.CON_STATE.STEER_HOLD) ++ List.replicate 51 0
  putAt (head ++ List.replicate 1024 0 ++ s.con.slots.flatMap Slot.octets ++ List.replicate (24 * s.busCount) 0)
    (64 + 16 * s.nodeId) s.nodeSection

/-- Frame `i` of the train of circuit 0. -/
def State.trainFrame (s : State) (i : Nat) : List Byte :=
  s.conHead 2 s.nodeId ++ s.conStart 2 s.nodeId ++ beOctets 1 0 ++ beOctets 1 (i + 4 * (s.trainCount - 1)) ++
    beOctets 4 s.con.round ++ beOctets 1 (s.fld F.CON_BUS.CH64) ++ beOctets 1 (s.fld F.CON_MGR.RANK) ++ [0, 0] ++
    slice s.con.body (trBlock * i) trBlock

/-! ### Adding and reading (R219) -/

/-- The six values of a channel are added where the frame carries its fields, each field saturating. -/
def addChannel (ch : Nat) (vs : List Int) (l : List Byte) : List Byte :=
  let n := trChannels l
  (List.range 6).foldl (fun l j =>
    let b := trSample n ch j
    if ch < n ∧ b / trBlock = trIndex l then
      putAt l (trAt b) (beOctets 4 (ofSigned 32 (clampInt (-2147483648) 2147483647
        (toSigned 32 (octN l (trAt b) 4) + vs.getD j 0))))
    else l) l

/-- The node's contributions are added to a frame. -/
def State.addTrain (s : State) (l : List Byte) : List Byte :=
  if s.adds then s.con.contrib.foldl (fun l x => addChannel x.1 x.2 l) l else l

/-- The bus contexts of the node that a frame serves, each with its channel. -/
def State.busContexts (s : State) (n : Nat) : List (Nat × Nat) :=
  (s.mix.ctxs.filterMap (fun x =>
    let e := s.ctx x.1
    if cxBus e then some (x.1, cxBusChannel e) else none)).filter (fun x => x.2 < n)

/-- A context's slot of media index `n` becomes absent. -/
def State.absentSample (s : State) (c n : Nat) : State :=
  match SMap.look s.mix.ctxs c with
  | none => s
  | some d => s.modMix (fun m =>
      { m with ctxs := SMap.put m.ctxs c { d with slots := SMap.del d.slots (n % cxRing (s.ctx c)) } })

/-- Every sample that a frame carries is read into the node's bus contexts, saturated to 24 bits; those of a frame of bad
FCS are marked absent (R215), and those for an engine island that is held in reset are discarded at their sender (R16). -/
def State.readTrain (s : State) (l : List Byte) (ok : Bool) : State :=
  if ¬ s.readsBus then s
  else
    let n := trChannels l
    let m := s.mediaIndex s.con.round
    (s.busContexts n).foldl (fun t x =>
      if t.engineHeld (islandOf xCTX x.1) then t.xingDiscard (16 + islandOf xCTX x.1)
      else if t.isBad (badMix xCTX) x.1 then t.tableParity xCTX x.1
      else (List.range 6).foldl (fun t j =>
        let b := trSample n x.2 j
        if b / trBlock ≠ trIndex l then t
        else if ok then t.putSample x.1 (m + j) (clampInt (-8388608) 8388607 (toSigned 32 (octN l (trAt b) 4)))
        else t.absentSample x.1 (m + j)) t) s

/-- A frame of the first pass of circuit 1, or of the end of circuit 0 at the manager, is read. A circuit of which some frame passed
while the node was not OPERATIONAL is not read: reading begins with the first that follows (R362). -/
def State.readPass (s : State) (l : List Byte) (ok : Bool) : State :=
  if s.con.readOff || s.op ≠ .operational then s.modCon (fun c => { c with readOff := true }) else s.readTrain l ok

/-! ### Remote commands at the target (R237) -/

/-- The number that a target keeps of a request: its slot and SEQ. -/
def slotKey (k : Nat) (x : Slot) : Nat := k + 8 * x.seq

/-- A slot with the response words in it. -/
def Slot.respond (x : Slot) (ws : List Nat) : Slot := { x with state := 3, words := ws.take 14 }

/-- What the node does with command slot `k` on its first pass of circuit 0: a kept answer goes back while the slot still
asks for it; a request is taken, or answered with LOCKED. The requests taken wait for their turn in the sequencer. -/
def State.serveSlot (s : State) (k : Nat) (x : Slot) : Slot × State :=
  let mine : Bool := x.target = s.nodeId && (x.state = 1 || x.state = 2)
  let key := slotKey k x
  let s := s.modCon (fun c => { c with answers := c.answers.filter (fun a => a.1 % 8 ≠ k || (mine && a.1 = key)) })
  match s.con.answers.find? (fun a => a.1 = key) with
  | some a => (x.respond a.2, s)
  | none =>
    if ¬ (mine ∧ x.state = 1) then (x, s)
    else if s.con.remote.any (fun q => q.1 = key) then ({ x with state := 2 }, s)
    else if ¬ s.on F.CON_NODE.REMOTE_EN then (x.respond (respWords ⟨16, x.words, false⟩ xLOCKED 0 []), s)
    else
      let ws := x.words ++ [0, 0]
      let idle := s.con.remote = []
      ({ x with state := 2 }, (s.modCon (fun c => { c with remote := c.remote ++ [(key, ws)] })).modHost (fun h =>
        if idle then { h with waiting := SMap.put h.waiting 16 ws } else h))

/-- The command slots of a frame are served. -/
def State.serveSlots (s : State) (l : List Byte) : List Byte × State :=
  (List.range 8).foldl (fun (r : List Byte × State) k =>
    let a := trAt (1088 + 128 * k)
    let (y, t) := r.2.serveSlot k (slotAt r.1 a)
    (putAt r.1 a y.octets, t)) (l, s)

/-! ### Steering and the manager's identity (R230, R233, R235) -/

/-- A (rank, node) pair goes before another. -/
def lowerMgr (a b : Nat × Nat) : Bool := a.1 < b.1 || (a.1 = b.1 && a.2 < b.2)

/-- STEER is taken from the first train of a cycle. -/
def State.takeSteer (s : State) (l : List Byte) : State :=
  if s.con.steerTaken ∨ trIndex l ≠ 0 ∨ ¬ s.joined then s
  else (s.setf F.CON_STATE.STEER_HOLD (oct l 42 % 2)).modCon (fun c =>
    { c with steerTaken := true, steerNext := some (toSigned 32 (octN l 38 4)) })

/-- SPLIT clears at a train of the manager that the split parted the node from, or of one lower than the last whose train came since
(R233, log 53). -/
def State.splitEnds (s : State) (m : Nat × Nat) : Bool :=
  s.con.splitFrom = some m || s.con.mgrLast.all (fun r => s.con.splitFrom ≠ some r && lowerMgr m r)

/-- The node finds its segment cut off: SPLIT (R233). -/
def State.splitOff (s : State) : State :=
  if s.on F.CON_STATE.SPLIT then s
  else ((s.setf F.CON_STATE.SPLIT 1).modCon (fun c => { c with splitFrom := c.mgrLast })).raise 49 0

/-- The manager of a train is noted: SPLIT may clear, and is set where a higher one's train is wrapped. -/
def State.noteManager (s : State) (l : List Byte) (wrapped : Bool) : State :=
  let m := (oct l 27, conSender l)
  let above := s.con.mgrRef.any (fun r => lowerMgr r m)
  let s := s.setf F.CON_STATE.MGR_NODE m.2
  let s := if s.splitEnds m then (s.setf F.CON_STATE.SPLIT 0).modCon (fun c => { c with splitFrom := none }) else s
  let s := s.modCon (fun c => { c with
    folded := wrapped, mgrLast := some m, mgrRef := if above then c.mgrRef else some m, wrapSeen := c.wrapSeen || wrapped })
  if wrapped && above && !s.on F.CON_STATE.SPLIT then (s.setf F.CON_STATE.SPLIT 1).raise 49 0 else s

/-! ### The through-path (R210, R213 to R215, R231, R232) -/

/-- The instant at which the first octet of a frame whose last byte has come in leaves. -/
def State.passAt (s : State) (p : Nat) (l : List Byte) : Nat := s.lt + 64 * coreCycle - frameLen l * s.octetLt p

/-- A train frame that would leave at local instant `t` is late. -/
def State.trainLate (s : State) (t : Nat) : Bool := s.con.hasTime && (25600 + s.trainWindow : Nat) * ringUnit < roundPlace (s.ringAt t)

/-- What is in transmission on port `p`, another train frame too, is still sending at local instant `t` (DESIGN CHOICE, log 73). -/
def State.sendingAt (s : State) (p t : Nat) : Bool := (s.port p).tx.any (fun x => t + 12 * s.octetLt p < x.stop)

/-- A train frame goes out of port `p`, with a bad FCS stomped; one for a port that is held in reset is discarded on its way there
(R16), and MAXLEN bounds it (R39). -/
def State.sendTrain (s : State) (p t : Nat) (l : List Byte) (bad : Bool) : State :=
  if ¬ s.lineMay p then s
  else if s.portHeld p then s.xingDiscard (p / 4)
  else if s.fld F.PRT_MAXLEN.MAXLEN p < frameLen l then s.bump F.TX_OVERSIZE_DROP p
  else
    let s := s.txDone p
    let (id, s) := s.fresh
    let n := frameLen l
    let c : Copy := ⟨id, id, p, 7, 0, 0, 0, 0, none, none, false, n, 0, .control kCONCORD, t, 0, none, true, false, false⟩
    let b := t - 8 * s.octetLt p
    s.modPort p (fun d => { d with tx := some ⟨c, l, b, b + wholeOctets n * s.octetLt p, 0, true, 0, bad, false⟩ })

/-- A frame that the node is to send on at port `p` is dropped when it is late or meets another frame; else it is counted
when its FCS is wrong, worked on by `f`, and sent. -/
def State.passTrain (s : State) (p : Nat) (l : List Byte) (fcsOk stomped busy : Bool)
    (f : State → List Byte × State) : State :=
  let t := s.passAt p l
  if s.trainLate t then s.bump F.TRAIN_LATE
  else
    let s := s.modCon (fun c => { c with trainSeen := true })
    if busy ∨ s.sendingAt p t then s.bump F.TRAIN_COLLIDE
    else
      let s := if fcsOk then s else s.bump (if stomped then F.TRAIN_POISON_RX else F.TRAIN_FCS_ERR)
      let (l, s) := f s
      s.sendTrain p t l !fcsOk

/-- What a worker does with a frame: on its first pass it adds and writes its section, or reads. -/
def State.work (s : State) (l : List Byte) (ok : Bool) : List Byte × State :=
  let i := trIndex l
  if ¬ s.joined ∨ trPass l then (l, s)
  else if trRead l then
    (if s.con.doneRead.contains i then (l, s)
    else (l, (s.modCon (fun c => { c with doneRead := c.doneRead ++ [i] })).readPass l ok))
  else if s.con.doneAdd.contains i then (l, s)
  else
    let s := s.modCon (fun c => { c with doneAdd := c.doneAdd ++ [i] })
    if ¬ ok then (l, s)
    else if i ≠ 0 then (s.addTrain l, s)
    else
      let l := putAt l (trAt (64 + 16 * s.nodeId)) s.nodeSection
      let (l, t) := s.serveSlots l
      (s.addTrain l, t)

/-- A frame of another manager's train passes through the node. -/
def State.workerRx (s : State) (fromE : Bool) (l : List Byte) (fcsOk stomped busy : Bool) : State :=
  match s.ringOut fromE with
  | none => s
  | some (p, wrap) =>
    s.passTrain p l fcsOk stomped busy (fun t =>
      let t := if fcsOk then (t.takeSteer l).noteManager l (wrap || trWrapped l) else t
      let (l, t) := t.work l fcsOk
      (if wrap then trFlag 2 true (trFlag 0 true l) else l, t))

/-! ### The manager (R234, R235) -/

/-- Sections and slots as the last circuit 0 returned them. -/
def State.snapshot (s : State) (l : List Byte) : State :=
  let s := (List.range 256).foldl (fun t j => t.setf F.CON_SECTION (octN l (trAt (64 + 4 * j)) 4) 0 j) s
  s.modCon (fun c => { c with slots := (List.range 8).map (fun k =>
    let x := c.slots.getD k Slot.free
    let y := slotAt l (trAt (1088 + 128 * k))
    if x.state ≠ 0 ∧ y.target = x.target ∧ y.seq = x.seq % 65536 then
      { x with state := y.state, words := if y.state = 3 then y.words else x.words }
    else x) })

/-- The port on which the manager launches: it wraps what it launches where PORT_E is down. -/
def State.launchPort (s : State) : Nat := if s.on F.CON_STATE.WRAP_E then s.portW else s.portE

/-- CON_TRAIN_WINDOW, once in a round (R210). -/
def State.overrun (s : State) : State :=
  if s.con.overrun then s
  else ((s.bump F.TRAIN_OVERRUN).modCon (fun c => { c with overrun := true })).raise 50 s.con.round

/-- The loop time of circuit 0, from the launch to the return of the first octet. -/
def State.measureLoop (s : State) (p : Nat) (l : List Byte) : State :=
  match s.con.launchTime with
  | none => s
  | some t =>
    if trIndex l ≠ 0 then s
    else (s.setf F.CON_LOOP.LOOP (min 0x1FFFF ((s.lt - frameLen l * s.octetLt p - t) / ltNs))).setf F.CON_LOOP.FOLDED
      (trWrapped l).toNat

/-- The end of circuit 0 at the manager: it reads, keeps the sections, and sends the frame on as circuit 1. -/
def State.endAdd (s : State) (fromE : Bool) (l : List Byte) (fcsOk stomped busy : Bool) : State :=
  let s := s.measureLoop (s.ringIn fromE) l
  s.passTrain s.launchPort l fcsOk stomped busy (fun t =>
    let t := t.modCon (fun c => { c with back0 := c.back0 ++ [trIndex l] })
    let t := if fcsOk then t.noteManager l (trWrapped l) else t
    let t := t.readPass l fcsOk
    let t := if fcsOk ∧ trIndex l = 0 then t.snapshot l else t
    (trFlag 0 false (trFlag 1 true l), t))

/-- The end of circuit 1: the frame is consumed; the last one may be back after the window, or the round, has ended (R210). -/
def State.endRead (s : State) (l : List Byte) (fcsOk stomped : Bool) : State :=
  let s := if fcsOk then s else s.bump (if stomped then F.TRAIN_POISON_RX else F.TRAIN_FCS_ERR)
  let s := s.modCon (fun c => { c with back1 := c.back1 ++ [trIndex l], trainSeen := true })
  if trIndex l + 1 = trCount l ∧ (s.trainLate s.lt ∨ octN l 22 4 ≠ s.con.round % 2 ^ 32) then s.overrun else s

/-- A frame of the manager's own train. -/
def State.ownRx (s : State) (fromE : Bool) (l : List Byte) (fcsOk stomped busy : Bool) : State :=
  if fromE ∧ ¬ s.on F.CON_STATE.W_DOWN then s.passTrain s.portW l fcsOk stomped busy (fun t => (trFlag 0 false l, t))
  else if trRead l then s.endRead l fcsOk stomped
  else s.endAdd fromE l fcsOk stomped busy

/-- A train frame that the through-path judges (R211, R235): a manager gives way to a lower one and drops a higher one's frame. -/
def State.judgeTrain (s : State) (fromE : Bool) (l : List Byte) (fcsOk stomped busy : Bool) : State :=
  if s.conForeign l then s.bump F.TRAIN_FOREIGN
  else
    let s := s.heardOn fromE
    if ¬ s.isManager then s.workerRx fromE l fcsOk stomped busy
    else if conSender l = s.nodeId then s.ownRx fromE l fcsOk stomped busy
    else if lowerMgr (oct l 27, conSender l) (s.fld F.CON_MGR.RANK, s.nodeId) then
      (s.modCon (fun c => { c with yielding := true })).workerRx fromE l fcsOk stomped busy
    else s.bump F.TRAIN_FOREIGN

/-- A train frame at a ring port: a port that is disabled, and an operating state that bars it, discard it as any frame (R29, R40);
one for the ring island held in reset is discarded on its way there (R16), and the through-path takes none that began to arrive before
the reset's end (R216). -/
def State.trainRx (s : State) (fromE : Bool) (l : List Byte) (fcsOk stomped busy : Bool) : State :=
  let p := s.ringIn fromE
  if ¬ s.on F.CON_CTL.ENABLE ∨ s.nPorts ≤ p then s
  else if ¬ s.on F.PRT_CTL.ENABLE p ∨ ¬ s.op.service then (s.macRx p l fcsOk s.op.service).2
  else if s.ringHeld then s.xingDiscard islRing
  else if ¬ s.conUp ∨ s.lt < s.con.resumeAt + frameLen l * s.octetLt p then s
  else
    let (ok, t) := s.trainJudge p l fcsOk
    if ok then t.judgeTrain fromE l fcsOk stomped busy else t

/-- TRAIN_FRAME_RX. -/
def execTrainFrameRx (fromE : Bool) (octets : List Byte) (fcsOk stomped busy : Bool) (s : State) :
    Host.Outcome State Fault Refusal := .next (s.trainRx fromE octets fcsOk stomped busy)

/-! ### Rounds (R208, R231, R234) -/

/-- The manager launches trains. -/
def State.launches (s : State) : Bool :=
  s.conUp && s.joined && s.isManager && (s.ringState = rACTIVE || s.ringState = rPASSIVE)

/-- A node of a folded ring gets no train for MGR_TIMEOUT rounds, before any candidate of its segment launches: a second break has
cut it off from the manager (R233, log 53). -/
def State.foldedSplit (s : State) : State :=
  if s.joined && !s.con.trainSeen && !s.isManager && s.con.mgrLast.isSome && s.con.folded &&
      s.con.trainMissed + 1 = s.fld F.CON_MGR.MGR_TIMEOUT then s.splitOff
  else s

/-- A node that two breaks at once have cut off from the manager (R233): joined, it wraps, or the last train it had was folded, and
no train has come for longer than any candidate of its segment would have waited (log 53). -/
def State.missSplit (s : State) : State :=
  if s.joined && !s.con.trainSeen && !s.isManager && !s.on F.CON_STATE.SPLIT && s.con.mgrLast.isSome &&
      s.con.trainMissed + 1 = s.fld F.CON_MGR.MGR_TIMEOUT + 16 &&
      (s.on F.CON_STATE.WRAP_W || s.on F.CON_STATE.WRAP_E || s.con.folded) then
    ((s.setf F.CON_STATE.SPLIT 1).modCon (fun c => { c with mgrLast := none })).raise 49 0
  else s

/-- The train that the round just ended brought, or did not bring. -/
def State.closeRound (s : State) : State :=
  let c := s.con
  let s := if s.joined ∧ ¬ c.trainSeen then s.bump F.TRAIN_MISSED else s
  let s := if c.yielding then s.setf F.CON_STATE.MANAGER 0 else s
  let s := s.foldedSplit.missSplit
  s.modCon (fun c =>
    { c with
      trainMissed := if c.trainSeen then 0 else c.trainMissed + 1
      mgrRef := if c.trainSeen && !c.wrapSeen then c.mgrLast else c.mgrRef
      trainSeen := false, wrapSeen := false, yielding := false, launchTime := none, doneAdd := [], doneRead := []
      back0 := [], back1 := [], overrun := false, body := [], readOff := false })

/-- A port that is down no longer: its link is up, and it has not been quiet for 3 rounds (R231). -/
def State.stillDown (s : State) (portE : Bool) (quiet : Nat) : Bool :=
  s.on (if portE then F.CON_STATE.E_DOWN else F.CON_STATE.W_DOWN) &&
    !(s.on F.PRT_STATUS.LINK_UP (s.ringIn portE) && quiet < 3)

/-- The third quiet round in a row ends: the port is found down (R231). -/
def State.quietDown (s : State) (portE : Bool) (quiet : Nat) : State :=
  let f := if portE then F.CON_STATE.E_DOWN else F.CON_STATE.W_DOWN
  if quiet < 3 || s.on f then s else ((s.setf f 1).bump F.WRAP_EVENTS).raise 48 portE.toNat

/-- At a round start the whole rounds of quiet and of an up port are counted, a port whose third quiet round has just ended is down,
and wraps begin (R231, R363). -/
def State.roundPorts (s : State) : State :=
  let c := s.con
  let qW := if c.heard.contains false then 0 else c.quietW + 1
  let qE := if c.heard.contains true then 0 else c.quietE + 1
  let s := (s.quietDown false qW).quietDown true qE
  let w := s.stillDown false qW
  let e := s.stillDown true qE
  let up := fun (down portE : Bool) (n : Nat) =>
    if down || c.downed.contains portE || s.on (if portE then F.CON_STATE.E_DOWN else F.CON_STATE.W_DOWN) then 0 else n + 1
  let s := if w then s.setf F.CON_STATE.WRAP_W 1 else s.setf F.CON_STATE.W_DOWN 0
  let s := if e then s.setf F.CON_STATE.WRAP_E 1 else s.setf F.CON_STATE.E_DOWN 0
  s.modCon (fun x => { x with
    quietW := qW, quietE := qE, upW := up w false c.upW, upE := up e true c.upE, heard := [], downed := [], beaconSent := false })

/-- The manager's train of the round. -/
def State.buildTrain (s : State) : State :=
  if s.launches then s.modCon (fun c => { c with body := s.buildBody }) else s

/-- RING_ROUND_START. -/
def execRingRoundStart (s : State) : Host.Outcome State Fault Refusal :=
  .next (
    if ¬ s.conUp then s
    else
      let s := s.modCon (fun c => { c with round := max c.round (s.ringNs s.lt / ringRound - 1) })
      let s := s.runToRingNs ((s.con.round + 1) * ringRound)
      (s.closeRound.modCon (fun c => { c with round := c.round + 1 })).roundPorts.takeEntries.buildTrain)

/-- TRAIN_LAUNCH: at round offset 25.6 µs, with the manager's own contributions added. -/
def State.launch (s : State) : State :=
  let s := s.runToRingNs (s.con.round * ringRound + 25600)
  let p := s.launchPort
  ((List.range s.trainCount).foldl (fun t i => t.sendDue p kCONCORD (s.addTrain (s.trainFrame i))) s).modCon (fun c =>
    { c with launchTime := some s.lt })

def execTrainLaunch (s : State) : Host.Outcome State Fault Refusal :=
  .next (if s.launches ∧ s.con.launchTime.isNone ∧ s.con.body ≠ [] then s.launch else s)

/-- TRAIN_WINDOW_END: the window of the manager's round ends; a circuit 1 that comes back from now on raises CON_TRAIN_WINDOW as
its last frame returns (R210). -/
def execTrainWindowEnd (s : State) : Host.Outcome State Fault Refusal :=
  .next (if ¬ s.launches ∨ s.con.launchTime.isNone then s
    else s.runToRingNs (s.con.round * ringRound + 25600 + s.trainWindow))

/-! ### Remote commands at the manager (R236, R237) -/

/-- Which of the parked RING_REMOTE commands slot `k` serves: they park in the order of SEQ. -/
def State.slotRank (s : State) (k : Nat) : Nat :=
  let x := s.con.slots.getD k Slot.free
  (s.con.slots.filter (fun y => y.state ≠ 0 && y.seq < x.seq)).length

/-- The parked RING_REMOTE that slot `k` serves; a slot whose command a takeover has completed (R238) serves none. Such
slots are older than every other. -/
def State.slotCmd (s : State) (k : Nat) : Option Cmd :=
  let cs := s.host.parked.filter (fun c => c.opcode = 0x42)
  let orphans := (s.con.slots.filter (fun y => y.state ≠ 0)).length - cs.length
  if s.slotRank k < orphans then none else cs[s.slotRank k - orphans]?

/-- RING_REMOTE of slot `k` completes, and the slot is free. -/
def State.finishSlot (s : State) (k st : Nat) (ws : List Nat) : State :=
  let t := s.modCon (fun r => { r with slots := r.slots.set k Slot.free })
  match s.slotCmd k with
  | some c => (t.modHost (fun h => { h with parked := h.parked.erase c })).answer c st (if st = xOK then 0 else 7) ws
  | none => t

/-- Slot `k` ends without a response. -/
def State.failSlot (s : State) (k : Nat) : State :=
  if (s.con.slots.getD k Slot.free).state = 0 then s else (s.finishSlot k xWRONGSTATE []).bump F.REMOTE_FAILED

/-- Every command slot becomes FREE, oldest first. -/
def State.freeSlots (s : State) : State :=
  (List.range 8).foldl (fun t _ =>
    match ((List.range 8).filter (fun k => (t.con.slots.getD k Slot.free).state ≠ 0)).find? (fun k => t.slotRank k = 0) with
    | some k => t.failSlot k
    | none => t) s

/-- Every pending RING_REMOTE completes with WRONG_STATE, the slots staying as they are (R238). -/
def State.dropRemotes (s : State) : State :=
  (s.host.parked.filter (fun c => c.opcode = 0x42)).foldl (fun t _ =>
    (t.finishParked 0x42 xWRONGSTATE 7 []).bump F.REMOTE_FAILED) s

/-- The target's last section shows it in a state that takes commands. -/
def State.sectionUp (s : State) (n : Nat) : Bool :=
  let w := s.fld F.CON_SECTION 0 (4 * n)
  w.testBit 31 && 2 < bitsOf w 26 24

def State.ringRemote (s : State) (c : Cmd) : State :=
  let n := bitsOf (c.word 1) 5 0
  let ws := (List.range 14).map (fun w => c.word (w + 2))
  if ¬ s.isManager then s.finish xWRONGSTATE 7 []
  else if ¬ s.sectionUp n then s.finish xWRONGSTATE 7 []
  else match (List.range 8).find? (fun k => (s.con.slots.getD k Slot.free).state = 0) with
    | none => s.finish xNORES 7 []
    | some k =>
      if [0x42, 0x80, 0x90, 0x91].contains (bitsOf (c.word 2) 15 0) then s.finish xBADARG 7 []
      else s.park.modCon (fun r => { r with
        slots := r.slots.set k ⟨1, n, r.slotSeq + 1, ws, r.round⟩, slotSeq := r.slotSeq + 1 })

/-- RING_REMOTE. -/
def execRingRemote (s : State) : Host.Outcome State Fault Refusal := .next (s.xci 0x42 (fun c t => t.ringRemote c))

/-- RING_REMOTE_DONE of a slot: its response is back, or 16,384 rounds have passed. -/
def execRingRemoteDone (slot : Nat) (s : State) : Host.Outcome State Fault Refusal :=
  .next (
    let x := s.con.slots.getD slot Slot.free
    if x.state = 3 then (s.finishSlot slot xOK x.words).bump F.REMOTE_DONE
    else if x.state ≠ 0 ∧ x.since + 16384 ≤ s.con.round then s.failSlot slot
    else s)

/-- MANAGER_TAKEOVER: at a round start, without a train for MGR_TIMEOUT + RANK rounds (R235); a candidate with both ports down is a
segment of its own (R233). -/
def execManagerTakeover (s : State) : Host.Outcome State Fault Refusal :=
  .next (
    let r := s.fld F.CON_MGR.RANK
    if s.conUp ∧ s.joined ∧ ¬ s.isManager ∧ r ≠ 0xFF ∧ (s.ringState = rACTIVE ∨ s.ringState = rPASSIVE) ∧
        s.fld F.CON_MGR.MGR_TIMEOUT + r ≤ s.con.trainMissed then
      let lost := s.fld F.CON_STATE.MGR_NODE
      let s := if s.on F.CON_STATE.W_DOWN && s.on F.CON_STATE.E_DOWN then s.splitOff else s
      let s := s.freeSlots.modCon (fun c => { c with steerPub := 0, yielding := false })
      (((s.setf F.CON_STATE.MANAGER 1).bump F.MGR_TAKEOVERS).raise 53 lost).buildTrain
    else s)

/-! ### Resets and STANDBY (R216, R238) -/

/-- A train frame is in transmission. -/
def isTrain (x : Tx) : Bool := x.copy.origin = .control kCONCORD && oct x.octets 15 = 2

/-- A train frame in passage ends here, with a stomped FCS (R216): 4 octets and the gap are left of it. -/
def State.stompTrain (s : State) (p : Nat) : State :=
  s.modPort p (fun d => { d with tx := d.tx.map (fun x =>
    if isTrain x && s.lt < x.stop then { x with badFcs := true, stop := min x.stop (s.lt + 16 * s.octetLt p) } else x) })

/-- Ring time, RATE and STEER are discarded; so are the manager role and the command slots. -/
def State.dropRingTime (s : State) : State :=
  let s := s.freeSlots.resetFlds [F.CON_RATE.RATE, F.CON_STEER.STEER, F.CON_STATE.STEER_HOLD, F.CON_STATE.STEER_PINNED,
    F.CON_STATE.MANAGER, F.CON_STATE.LIMIT_RUN]
  s.modCon (fun c =>
    { c with
      hasTime := false, rt := 0, rest := 0, slew := 0, rateNext := none, steerNext := none, steerPub := 0, cycle := 0, round := 0
      trainMissed := 0, trainSeen := false, yielding := false, launchTime := none, body := [], contrib := [], entries := [], slotDone := none })

/-- The CON block's part of a warm reset, and its block reset. -/
def State.conReset (s : State) : State :=
  let s := ((s.stompTrain s.portW).stompTrain s.portE).dropRingTime
  if s.joined then s.listen else s

/-- The end of such a reset: the through-path forwards again, from the next frame that starts arriving (R216). -/
def State.conResume (s : State) : State := s.modCon (fun c => { c with resumeAt := s.lt })

/-- The ring's part of STANDBY (R206, R382); a RING_LEAVE that waits for the end of the cycle completes. -/
def State.conStandby (s : State) : State :=
  let t := s.leaveRing.dropRingTime
  if s.con.leaving then t.finishAll 0x41 xOK 0 [] else t

end Sys2Proof.Machine
end

