-- ==== Sys2Proof/Machine/Ingress.lean ====
section
/-! DEFINITION. Frames as they come in at a network port, whatever they are (R443), reassembly in the pMAC (R44), and crossings
(R14). -/

namespace Sys2Proof.Machine

/-- A data frame that passed the checks takes its cells, and its descriptor is presented to the classifier (R139, R140). -/
def State.takeData (s : State) (p : Nat) (octets : List Byte) : State :=
  let n := cellsOf (frameLen octets)
  let (f, s) := (s.takeIng p n).newFrame p octets .ingress (p / 4) n (tagsOf (s.fld F.PRT_TAG.TPID p) octets) (s.portNs p)
  s.presentDescriptor (p / 4) f

/-- The residual of a probe that no row brought: a free value. -/
def State.anyResidual (s : State) : Int × State :=
  ((Config.probeResidual s.draws).toInt, { s with draws := s.draws + 1 })

/-- What a frame at port `p` is. -/
inductive Kind where
  | concord
  | pause
  | lldp
  | probe
  | ptp (k : Nat)
  | data
  deriving DecidableEq, Repr

def State.kindAt (s : State) (p : Nat) (l : List Byte) : Kind :=
  if s.ringPort p && s.isConcord l then .concord
  else if isPause l then .pause
  else if oct2 l 12 = 0x88CC then .lldp
  else if s.isProbeFrame p l then .probe
  else match s.ptpAt p l with
    | some k => .ptp k
    | none => .data

/-- A frame of a kind that passed the checks. -/
def State.takeFrame (s : State) (p : Nat) (l : List Byte) : Kind → State
  | .concord =>
    if s.on F.CON_CTL.ENABLE ∧ s.ringHeld then s.xingDiscard islRing
    else if ¬ s.conUp then s
    else if s.conForeign l then s.bump F.SYNC_FOREIGN
    else if conType l = 1 then (s.heardOn (s.portE = p)).takeSync (s.portE = p) l
    else s.heardOn (s.portE = p)
  | .pause => s.takePause p l
  | .lldp => s.takeLldp p l
  | .probe =>
    let (r, s) := s.anyResidual
    s.takeProbe p l r
  | .ptp k => s.takePtp p l k
  | .data => s.takeData p l

/-- A received frame; a train frame at a ring port goes to the through-path instead (R20). -/
def State.receive (s : State) (p : Nat) (l : List Byte) (fcsOk : Bool) : State :=
  let k := s.kindAt p l
  if k = .concord ∧ conType l = 2 ∧ s.conUp then s.trainRx (s.portE = p) l fcsOk false false
  else
    let may := match k with
      | .data => s.rxData p
      | .lldp => s.rxLldp l
      | _ => s.rxControl
    let (ok, t) := s.macRx p l fcsOk may
    if ok then t.takeFrame p l k else t

/-- FRAME_RECEIVED (R443). -/
def execFrameReceived (p : Nat) (octets : List Byte) (fcsOk : Bool) (s : State) : Host.Outcome State Fault Refusal :=
  atUnit (p < s.nPorts) s (if s.phase = .running then s.receive p octets fcsOk else s)

/-! ### The end of a transmission, and the near-end loopback (R69, R149) -/

/-- In TEST, what a port in loopback has sent whole comes in at its own receiver (R28, R69; log 64). -/
def State.loopBack (s : State) (p : Nat) (x : Tx) : State :=
  if !(s.op = .test && s.on F.PRT_CTL.LOOPBACK p && x.whole) then s
  else if x.copy.origin = .control kVERIFY then s.takeVerify p
  else if x.copy.origin = .control kRESPOND then s.takeRespond p
  else s.receive p x.octets (!x.badFcs)

/-- TX_FRAME_DONE. -/
def execTxFrameDone (p : Nat) (s : State) : Host.Outcome State Fault Refusal :=
  atUnit (p < s.nPorts) s
    (if s.phase ≠ .running then s
     else match (s.port p).tx with
       | none => s
       | some x => (s.txDone p).loopBack p x)

/-! ### Reassembly (R44) -/

/-- The partial frame is discarded and counted. -/
def State.dropPartial (s : State) (p : Nat) : State :=
  if (s.port p).rxPart.isSome then (s.bump F.RX_ASSEMBLY_ERR p).modPort p (fun d => { d with rxPart := none }) else s

/-- Octets of the frame being reassembled, with the next fragment count and the frame's time-stamp point: the end of a
fragment. -/
def State.endFragment (s : State) (p frameNo count point : Nat) (l : List Byte) (last crcOk : Bool) : State :=
  let s := s.modPort p (fun d => { d with rxPart := if !last && crcOk then some ⟨frameNo, count, l, point⟩ else none })
  if last then
    ((s.modPort p (fun d => { d with rxBegan := some point })).receive p l crcOk).modPort p (fun d => { d with rxBegan := none })
  else if crcOk then s else s.bump F.RX_FCS_ERR p

/-- A fragment at the pMAC of port `p`; the first continuation fragment has count 0. -/
def State.fragment (s : State) (p : Nat) (start : Bool) (frameNo count : Nat) (l : List Byte) (last crcOk : Bool) : State :=
  if start then (s.dropPartial p).endFragment p frameNo 0 (s.rxPoint p l) l last crcOk
  else match (s.port p).rxPart with
    | none => s
    | some x =>
      if x.frameNo ≠ frameNo ∨ x.count ≠ count then s.dropPartial p
      else s.endFragment p frameNo ((count + 1) % 4) x.point (x.octets ++ l) last crcOk

/-- CONTINUATION_FRAGMENT_RX. -/
def execContinuationFragmentRx (p : Nat) (start : Bool) (frameNo count : Nat) (octets : List Byte) (last crcOk : Bool)
    (s : State) : Host.Outcome State Fault Refusal :=
  atUnit (p < s.nPorts) s
    (if s.phase = .running && s.on F.PRT_MM_CTL.PREEMPT_EN p then s.fragment p start frameNo count octets last crcOk else s)

/-! ### Crossings (R14) -/

/-- A descriptor takes its place at the classifier: after those of earlier cycles, and among those of its own core cycle in
ascending ingress port number (R73). -/
def placeArrived (l : List Arrived) (x : Arrived) : List Arrived :=
  match l with
  | [] => [x]
  | y :: r => if y.cycle = x.cycle ∧ x.port < y.port then x :: y :: r else y :: placeArrived r x

/-- What a transfer brings to its destination at the local instant `due`. -/
def State.deliver (s : State) (due : Nat) : Cargo → State
  | .descriptor fid =>
    let p := ((s.frame fid).map (fun f => f.port)).getD 0
    { s with inbox := placeArrived s.inbox ⟨fid, p, due / coreCycle⟩ }
  | .copy c =>
    if 64 ≤ c.port then (s.panelOffer (c.port - 64) c).2
    else { s with arrived := SMap.putD s.arrived c.port (SMap.val s.arrived c.port [] ++ [c]) [] }

/-- CROSSING_DELIVERY: the oldest transfer from `src` to `dst`, three destination cycles after it was presented. -/
def execCrossingDelivery (src dst : Nat) (s : State) : Host.Outcome State Fault Refusal :=
  .next (match s.xing.find? (fun x => x.src = src && x.dst = dst) with
    | none => s
    | some x => ({ s with xing := s.xing.erase x }.runToLt x.due).deliver x.due x.cargo)

end Sys2Proof.Machine
end

