-- ==== Sys2Proof/Machine/Tables.lean ====
section
/-! DEFINITION. The BAR2 table aperture as a whole (R326, R327): what a dword read returns, and which table a dword write
reaches. -/

namespace Sys2Proof.Machine

/-- The template region of the time block: a template of an absent port is unused space (R252, R326). -/
def State.templateWrite (s : State) (off data : Nat) : State :=
  if s.nPorts ≤ off / 256 then s else s.setTab (tTime + off / 4) data

/-- Whether a BAR2 offset is used on this part (R326). -/
def State.bar2Used (s : State) (off : Nat) : Bool :=
  if off < 0x1000_0000 then
    s.mixUsed off
  else if off < 0x1200_0000 then (sidEntry (off - 0x1000_0000)).isSome
  else if off < 0x1300_0000 then decide ((off - 0x1200_0000) / 0x4_0000 < s.nPorts)
  else if off < 0x1340_0000 then decide ((off - 0x1300_0000) / 0x1_0000 < s.nPorts)
  else if off < 0x1340_4000 then decide ((off - 0x1340_0000) / 256 < s.nPorts)
  else if off < 0x1340_8000 then decide ((off - 0x1340_4000) / 256 < s.nPorts)
  else if off < 0x1340_A000 then true
  else decide (0x1342_0000 ≤ off ∧ off < 0x1343_8000)

/-- A BAR2 offset at which a write is looked at: used, and not that of a read-only dword (R332). -/
def State.bar2Takes (s : State) (off : Nat) : Bool :=
  s.bar2Used off &&
    !(if off < 0x1000_0000 then mixRoAt off
      else if off < 0x1200_0000 then sidRoAt (off - 0x1000_0000)
      else if off < 0x1300_0000 then off / 4 % 8 = 3
      else 0x1342_0000 ≤ off && s.cxmRoAt (off - 0x1342_0000))

/-- The effect of a dword write to a table that the operating state admits. -/
def State.bar2Put (s : State) (o : Origin4) (off data : Nat) : State :=
  if off < 0x1000_0000 then (s.reachMix off).mixWrite o off data
  else if off < 0x1200_0000 then s.sidWrite o (off - 0x1000_0000) data
  else if off < 0x1300_0000 then s.subqWrite (off - 0x1200_0000) data
  else if off < 0x1340_0000 then s.clauseWrite o (off - 0x1300_0000) data
  else if off < 0x1340_4000 then s.wakeFilterWrite o (off - 0x1340_0000) data
  else if off < 0x1340_8000 then s.templateWrite (off - 0x1340_4000) data
  else if off < 0x1340_A000 then s.contribWrite o (off - 0x1340_8000) data
  else s.cxmWrite o (off - 0x1342_0000) data

/-- A dword write at a BAR2 offset; unused space and read-only dwords take none and record none. -/
def State.bar2Write (s : State) (o : Origin4) (off data : Nat) : State :=
  if s.bar2Takes off then s.gatedTab o data (fun t => t.bar2Put o off data) else s

/-- A dword of the SID region as it reads: token counts, LATENT and history come from the functions themselves. -/
def State.sidRead (s : State) (off : Nat) : Nat :=
  match sidEntry (off - 0x1000_0000) with
  | none => 0
  | some e =>
    let d := off / 4
    let w := d - e.base
    if e.region = rMETER ∧ w = 5 then (s.meter e.index).c / 1024
    else if e.region = rMETER ∧ w = 6 then (s.meter e.index).e / 1024
    else if e.region = rRECOV ∧ w = 4 then s.recovWord4 e.index
    else if e.region = rHISTORY then bitsOf ((s.recov e.index).history % 2 ^ s.histLen e.index) (32 * w + 31) (32 * w)
    else s.tab d

/-- Dword 3 of a sub-queue entry: the integer part of its token count (R128). -/
def State.tokenWord (s : State) (k : Nat) : Nat :=
  let p := k / 8192
  let c := k / 1024 % 8
  let q := k % 1024
  if s.shapeEn p c q then ofSigned 32 ((s.tokensAt p c q s.lt).fdiv bitUnit) else 0

/-- What a dword read at a BAR2 offset finds. -/
def State.bar2Read (s : State) (off : Nat) : Nat :=
  if ¬ s.bar2Used off then 0
  else if 0x1000_0000 ≤ off ∧ off < 0x1200_0000 then s.sidRead off
  else if 0x1200_0000 ≤ off ∧ off < 0x1300_0000 ∧ off / 4 % 8 = 3 then s.tokenWord ((off - 0x1200_0000) / 32)
  else s.tab (off / 4)

/-- What the host reads at a BAR2 offset (R300): zero in STANDBY and while a wipe runs (R383, R408). -/
def State.hostTableRead (s : State) (off : Nat) : Nat :=
  if s.pwr.state = .standby ∨ s.wiping then 0 else s.bar2Read (off % 2 ^ 30 / 4 * 4)

end Sys2Proof.Machine
end

