-- ==== Sys2Proof/Machine/Dma.lean ====
section
/-! DEFINITION. The DMA engine (R276 to R291, R143): addresses, rings and descriptors, the checks at fetch, bursts, completion,
pausing. -/

namespace Sys2Proof.Machine

/-! ### Channel states (R293) -/

def cDISABLED : Nat := 0
def cIDLE : Nat := 1
def cRUNNING : Nat := 2
def cPAUSING : Nat := 3
def cPAUSED : Nat := 4
def cWAITPOOL : Nat := 5
def cWAITCQ : Nat := 6

def State.chState (s : State) (ch : Nat) : Nat := s.fld F.DMA_CH_STATUS.STATE 0 ch
def State.setChState (s : State) (ch v : Nat) : State := s.setf F.DMA_CH_STATUS.STATE v 0 ch

/-- Status codes (R283). -/
def dOK : Nat := 0x00
def dBADDESC : Nat := 0x01
def dBADADDR : Nat := 0x02
def dDENIED : Nat := 0x03
def dMISALIGNED : Nat := 0x04
def dOVERLAP : Nat := 0x05
def dPROTECTED : Nat := 0x06
def dTABLE : Nat := 0x07
def dFRAME : Nat := 0x08
def dBEAT : Nat := 0x09
def dREADBACK : Nat := 0x0A

/-- Operations. -/
def oCOPY : Nat := 0
def oFILL : Nat := 1
def oCOMPARE : Nat := 2

/-! ### Addresses (R277) -/

inductive Region where
  | host
  | cxl (port : Nat)
  | stage
  | frames (esh : Nat)
  | engine
  | table
  deriving DecidableEq, Repr

/-- The region of an address whose fields are present on this part. -/
def State.regionOf (s : State) (a : Nat) : Option Region :=
  match bitsOf a 63 60 with
  | 0 => some .host
  | 1 => match cxlAt a with
    | some x => if s.cxlOk x.port x.off 1 then some (.cxl x.port) else none
    | none => none
  | 2 =>
    if a.testBit 40 then (if bitsOf a 59 41 = 0 ∧ bitsOf a 39 16 = 0 then some (.frames (bitsOf a 15 0)) else none)
    else if bitsOf a 59 28 = 0 ∧ bitsOf a 27 24 < s.nIslands then some .stage else none
  | 3 => if bitsOf a 59 27 = 0 ∧ bitsOf a 26 23 < s.nIslands then some .engine else none
  | 4 => if bitsOf a 59 30 = 0 then some .table else none
  | _ => none

/-- An envelope of bytes, both ends counted. -/
structure Env where
  lo : Int
  hi : Int
  deriving DecidableEq, Repr

/-- The region of an envelope that lies within one (R269, R283); raw stage memory and the engine stores go on from one present island
to the next. -/
def State.envRegion (s : State) (e : Env) : Option Region :=
  if e.lo < 0 ∨ (2 ^ 64 : Nat) ≤ e.hi then none
  else match s.regionOf e.lo.toNat, s.regionOf e.hi.toNat with
    | some r, some r' => if r = r' then some r else none
    | _, _ => none

/-! ### Descriptors (R280, R283, R286) -/

/-- The ring address of a channel's descriptors and records, and how many there are. -/
def State.descBase (s : State) (ch : Nat) : Nat := 4096 * s.fld F.DMA_CH_DESC_L.ADDR 0 ch + 2 ^ 32 * s.fld F.DMA_CH_DESC_H 0 ch
def State.cqBase (s : State) (ch : Nat) : Nat := 4096 * s.fld F.DMA_CH_CQ_L.ADDR 0 ch + 2 ^ 32 * s.fld F.DMA_CH_CQ_H 0 ch
def State.descCount (s : State) (ch : Nat) : Nat := 2 ^ s.fld F.DMA_CH_DESC_L.LOG2 0 ch
def State.cqCount (s : State) (ch : Nat) : Nat := 2 ^ s.fld F.DMA_CH_CQ_L.LOG2 0 ch

/-- The 64 bytes of a descriptor as fields, whose ring index is `i`. -/
def descOf (i : Nat) (l : List Byte) : Desc :=
  let f := fun (k n : Nat) => leNum (slice l k n)
  let w := f 0 4
  let inner := bitsOf (f 4 4) 23 0
  { index := i, prio := bitsOf w 23 21, irq := w.testBit 20, cmpConst := w.testBit 19, op := bitsOf w 17 16,
    tag := bitsOf w 15 0, inner := if inner = 0 then 2 ^ 24 else inner, middle := f 8 2, outer := f 10 2,
    src := f 16 8, dst := f 24 8, srcM := toSigned 32 (f 32 4), srcO := toSigned 32 (f 36 4),
    dstM := toSigned 32 (f 40 4), dstO := toSigned 32 (f 44 4), fill := f 48 8 }

/-- A reserved field of a descriptor is nonzero. -/
def descReserved (l : List Byte) : Bool :=
  let f := fun (k n : Nat) => leNum (slice l k n)
  bitsOf (f 0 4) 30 24 ≠ 0 || (f 0 4).testBit 18 || f 7 1 ≠ 0 || f 12 4 ≠ 0 || f 56 8 ≠ 0

/-- The sides that a descriptor uses: FILL and a constant COMPARE read no source. -/
def Desc.usesSrc (d : Desc) : Bool := d.op = oCOPY || (d.op = oCOMPARE && !d.cmpConst)
def Desc.writes (d : Desc) : Bool := d.op ≠ oCOMPARE
def Desc.total (d : Desc) : Nat := d.inner * d.middle * d.outer

/-- The envelope of a side (R286). -/
def Desc.env (d : Desc) (addr : Nat) (m o : Int) : Env :=
  let x := m * (d.middle - 1 : Nat)
  let y := o * (d.outer - 1 : Nat)
  ⟨addr + min 0 x + min 0 y, addr + (d.inner - 1 : Nat) + max 0 x + max 0 y⟩

def Desc.srcEnv (d : Desc) : Env := d.env d.src d.srcM d.srcO
def Desc.dstEnv (d : Desc) : Env := d.env d.dst d.dstM d.dstO

/-- An address in frame space, and a destination there. -/
def frameSpace (a : Nat) : Bool := bitsOf a 63 60 = 2 && a.testBit 40
def Desc.toFrames (d : Desc) : Bool := frameSpace d.dst

/-- Row and byte of loop-order offset `k`, and the addresses of both sides there (R281). -/
def Desc.row (d : Desc) (k : Nat) : Nat := k / d.inner
def Desc.col (d : Desc) (k : Nat) : Nat := k % d.inner
def Desc.srcAt (d : Desc) (k : Nat) : Nat :=
  ((d.src : Int) + (d.row k / d.middle : Nat) * d.srcO + (d.row k % d.middle : Nat) * d.srcM + (d.col k : Nat)).toNat
def Desc.dstAt (d : Desc) (k : Nat) : Nat :=
  ((d.dst : Int) + (d.row k / d.middle : Nat) * d.dstO + (d.row k % d.middle : Nat) * d.dstM + (d.col k : Nat)).toNat

/-! ### The checks at fetch (R283 to R286, R276 to R278) -/

/-- The rules of R285. -/
def State.frameBad (s : State) (d : Desc) : Bool :=
  let h := d.dst % 65536
  let p := s.eshPort h
  d.toFrames && (d.op ≠ oCOPY || d.dstM ≠ 0 || d.dstO ≠ 0 || !s.eshValid h || d.inner < 60 ||
    (if 64 ≤ p then 1518 else s.fld F.PRT_MAXLEN.MAXLEN p - 4) < d.inner)

/-- The region of each side: frame space has no envelope. -/
def State.dstRegion (s : State) (d : Desc) : Option Region := if d.toFrames then s.regionOf d.dst else s.envRegion d.dstEnv
def State.srcRegion (s : State) (d : Desc) : Option Region :=
  if frameSpace d.src then s.regionOf d.src else s.envRegion d.srcEnv

/-- A side's alignment. -/
def sideAligned (n : Nat) (addr inner : Nat) (m o : Int) : Bool :=
  addr % n = 0 && inner % n = 0 && m % (n : Int) = 0 && o % (n : Int) = 0

def State.sideMisaligned (s : State) (d : Desc) (r : Option Region) (addr : Nat) (m o : Int) : Bool :=
  (s.op ≠ .operational && !sideAligned 64 addr d.inner m o) || (r = some .table && !sideAligned 4 addr d.inner m o)

def State.misaligned (s : State) (d : Desc) : Bool :=
  (d.usesSrc && !frameSpace d.src && s.sideMisaligned d (s.srcRegion d) d.src d.srcM d.srcO) ||
    (!d.toFrames && s.sideMisaligned d (s.dstRegion d) d.dst d.dstM d.dstO)

/-- The envelopes overlap as R286 refuses; a FILL and a constant COMPARE take the destination's for the source. -/
def Desc.overlaps (d : Desc) : Bool :=
  !d.toFrames && !frameSpace d.src && (d.op = oCOPY && d.srcEnv.lo ≤ d.dstEnv.hi && d.dstEnv.lo ≤ d.srcEnv.hi ||
    d.op = oCOMPARE && !d.cmpConst && d.srcEnv ≠ d.dstEnv && d.srcEnv.lo ≤ d.dstEnv.hi && d.dstEnv.lo ≤ d.srcEnv.hi)

/-- Stores that no DMA write may touch (R276). -/
def State.heldExtents (s : State) : List Extent :=
  s.validVideos.filterMap (fun v => viExtent (s.videoEntry v)) ++
    (s.validLines.filter (fun n => lnMode (s.lineEntry n) ≠ mHOLD)).filterMap (fun n => lnExtent (s.lineEntry n)) ++
    (if s.pairOn then s.ckptExtent.toList else [])

/-- A write that R276 or R277 refuses, or a read of frame space. -/
def State.isProtected (s : State) (d : Desc) : Bool :=
  (d.usesSrc && frameSpace d.src) ||
  (d.writes && (match s.dstRegion d with
    | some (.cxl p) =>
      let x : Extent := ⟨p, d.dstEnv.lo.toNat % 2 ^ 37, (d.dstEnv.hi - d.dstEnv.lo).toNat + 1⟩
      s.heldExtents.any (fun y => x.meets y)
    | some .stage => s.op ≠ .test
    | some .engine => s.op ≠ .test
    | _ => false))

/-- The first check of R283 that fails for a descriptor of channel `ch`. -/
def State.checkDesc (s : State) (ch : Nat) (l : List Byte) (d : Desc) : Option Nat :=
  let src := s.srcRegion d
  let dst := s.dstRegion d
  if descReserved l ∨ d.op = 3 ∨ d.middle = 0 ∨ d.outer = 0 then some dBADDESC
  else if s.frameBad d then some dFRAME
  else if (d.usesSrc ∧ src.isNone) ∨ dst.isNone then some dBADADDR
  else if s.chOwner ch ≠ 0 ∧ ((d.usesSrc ∧ src ≠ some .host) ∨ dst ≠ some .host) then some dDENIED
  else if s.misaligned d then some dMISALIGNED
  else if d.overlaps then some dOVERLAP
  else if s.isProtected d then some dPROTECTED
  else if d.writes ∧ dst = some .table ∧ s.tableBarred then some dTABLE
  else none

/-! ### Fetch (R279, R280) -/

/-- The completion queue of a channel holds no free slot. -/
def State.cqFull (s : State) (ch : Nat) : Bool :=
  (s.fld F.DMA_CH_HEAD.CQ_HEAD 0 ch + 1) % s.cqCount ch = s.fld F.DMA_CH_CQ_TAIL 0 ch % s.cqCount ch

/-- The channel may fetch a descriptor. -/
def State.mayFetch (s : State) (ch : Nat) : Bool :=
  s.phase = .running && s.on F.DMA_CTL.ENABLE && s.on F.DMA_CH_CTL.ENABLE 0 ch && !s.on F.DMA_CH_CTL.PAUSE 0 ch &&
    (s.chState ch = cIDLE || s.chState ch = cWAITCQ) && !(s.chan ch).stalled && s.op ≠ .safe && !s.ckptOwns ch &&
    s.fld F.DMA_CH_HEAD.HEAD 0 ch ≠ s.fld F.DMA_CH_TAIL 0 ch

/-- The descriptor at HEAD is fetched and checked. -/
def State.fetch (s : State) (ch : Nat) : State :=
  let i := s.fld F.DMA_CH_HEAD.HEAD 0 ch
  let l := cellsRead s.host.mem (s.descBase ch + 64 * i) 64
  if s.cqFull ch then s.setChState ch cWAITCQ
  else if ¬ (leNum (slice l 0 4)).testBit 31 then
    ((s.bump F.DMA_NOT_OWNED).setChState ch cIDLE).setChan ch { s.chan ch with stalled := true }
  else
    let d := descOf i l
    (s.setChState ch cRUNNING).setChan ch
      { s.chan ch with
        desc := some d, done := 0, good := 0, status := s.checkDesc ch l d, mismatch := none, discarded := false
        row := [], building := false }

/-- DESCRIPTOR_FETCH. -/
def execDescriptorFetch (ch : Nat) (s : State) : Host.Outcome State Fault Refusal :=
  atUnit (ch < 64) s (if s.mayFetch ch then s.fetch ch else s)

/-- A write of a register of channel `ch`: one that the checkpoint writer owns takes none (R279). -/
def State.chWrite (s : State) (o : Origin4) (ch data : Nat) (f : State → State) : State :=
  if s.ckptOwns ch then s.refuse o data cRULE else f s

/-- The effect of a write of DMA_CH_TAIL. -/
def State.tailWrite (s : State) (o : Origin4) (ch data : Nat) : State :=
  let v := data % 65536
  if s.descCount ch ≤ v then s.refuse o data cVALUE
  else (s.setf F.DMA_CH_TAIL v 0 ch).setChan ch { s.chan ch with stalled := false }

/-- DMA_DOORBELL: a write of DMA_CH_TAIL. -/
def execDmaDoorbell (ch tail : Nat) (s : State) : Host.Outcome State Fault Refusal :=
  let o := atBar0 (0x60300 + 4 * ch)
  atUnit (ch < 64) s
    (if s.hostUp then s.gated 6 o tail (fun t => t.chWrite o ch tail (fun u => u.tailWrite o ch tail)) else s)

/-- The effect of a write of DMA_CH_CQ_TAIL: a channel that waits for a slot may fetch again. -/
def State.cqTailWrite (s : State) (ch data : Nat) : State :=
  let s := s.setf F.DMA_CH_CQ_TAIL data 0 ch
  if s.chState ch = cWAITCQ ∧ ¬ s.cqFull ch then s.setChState ch cIDLE else s

/-- CQ_SLOT_FREE: a write of DMA_CH_CQ_TAIL. -/
def execCqSlotFree (ch tail : Nat) (s : State) : Host.Outcome State Fault Refusal :=
  let o := atBar0 (0x60500 + 4 * ch)
  atUnit (ch < 64) s
    (if s.hostUp then s.gated 6 o tail (fun t => t.chWrite o ch tail (fun u => u.cqTailWrite ch tail)) else s)

/-! ### Bytes of the regions -/

/-- The context and slot whose word stands at a byte offset of engine island `m`'s store. -/
def State.storeSlot (s : State) (m off : Nat) : Option (Nat × Nat) :=
  let b := off / 256
  s.mix.store.findSome? (fun x =>
    if 2 ^ 20 ≤ x.1 ∨ islandOf xCTX x.1 ≠ m then none
    else (x.2.findIdx? (· = b)).map (fun i => (x.1, 64 * i + off / 4 % 64)))

/-- Raw memory that nothing has written reads zero: no frame has used it, and no test has left patterns in it (R397). -/
def State.rawZero (s : State) : Bool := s.nextId = 0 && s.bst.tested = []

/-- A byte of raw stage memory or of an engine store: the sample of a context that lies there, what a raw write left, zero
while no frame has come in since the wipe, and otherwise a free value (log 31). `k` numbers the draw. -/
def State.rawAt (s : State) (a k : Nat) : Byte :=
  let listed := SMap.val s.raw a (if s.rawZero then 0#8 else Config.rawByte k)
  if bitsOf a 63 60 ≠ 3 then listed
  else match s.storeSlot (bitsOf a 26 23) (bitsOf a 22 0) with
    | none => listed
    | some (c, i) => match (SMap.look s.mix.ctxs c).bind (fun d => SMap.look d.slots i) with
      | some (v, t) => (leBytes 4 (ofSigned 24 v + 2 ^ 24 * t)).getD (a % 4) 0#8
      | none => Config.rawByte k

/-- An access to an engine store reaches its island (R17). -/
def State.reachRaw (s : State) (a : Nat) : State := if bitsOf a 63 60 = 3 then s.reachEngine (bitsOf a 26 23) else s

/-- A read of `n` table bytes reaches the islands that hold the entries (R17). -/
def State.reachTables (s : State) (a n : Nat) : State :=
  (List.range n).foldl (fun t i => t.reachMix ((a + i) % 2 ^ 30 / 4 * 4)) s

/-- The island of an engine store is held in reset: a write there is discarded at its sender (R16). -/
def State.rawHeld (s : State) (a : Nat) : Bool := bitsOf a 63 60 = 3 && s.engineHeld (bitsOf a 26 23)

/-- The words of engine store bytes `[a, a + n)` that hold a parity error, by their byte offsets in the store. -/
def State.badWords (s : State) (a n : Nat) : List Nat :=
  (s.bad.filter (fun z => z.1 = badStore && z.2 / 2 ^ 21 = bitsOf a 26 23)).filterMap (fun z =>
    let w := z.2 % 2 ^ 21 * 4
    if w < bitsOf a 22 0 + n ∧ bitsOf a 22 0 < w + 4 then some w else none)

/-- A read of engine store bytes: how many precede the first beat of 64 bytes that fails for a parity error, which the engine island
reports (R180, R288). -/
def State.storeRead (s : State) (a n : Nat) : Nat × State :=
  let ws := s.badWords a n
  match (ws.map (fun w => w / 64)).min? with
  | none => (n, s)
  | some b => (64 * b - bitsOf a 22 0, (ws.filter (fun w => w / 64 = b)).foldl (fun t w =>
      t.storeParity (storeIdx (bitsOf a 26 23) (w / 4))) s)

/-- `n` bytes from an address, and how many precede the first whose beat fails. -/
def State.dmaRead (s : State) (a n : Nat) : List Byte × Nat × State :=
  match s.regionOf a with
  | some .host => (cellsRead s.host.mem a n, n, s)
  | some (.cxl c) =>
    let off := a % 2 ^ 37
    (s.cxlRead c off n, ((s.badUnits c off n).map (fun b => b - off)).foldl min n, s.countRead c off n)
  | some .table =>
    let s := s.reachTables a n
    ((List.range n).map (fun i => (leBytes 4 (s.bar2Read ((a + i) % 2 ^ 30 / 4 * 4))).getD ((a + i) % 4) 0#8), n, s)
  | some (.frames _) => ([], 0, s)
  | some _ =>
    let s := (s.reachRaw a).reachRaw (a + n - 1)
    let (i, s) := if bitsOf a 63 60 = 3 then s.storeRead a n else (n, s)
    ((List.range n).map (fun i => s.rawAt (a + i) (s.draws + i)), i, { s with draws := s.draws + n })
  | none => ([], 0, s)

/-- A byte written raw. -/
def State.rawByte (s : State) (a : Nat) (b : Byte) : State :=
  { s with raw := if s.rawZero then SMap.putD s.raw a b 0#8 else SMap.put s.raw a b }

/-- A word written raw: where a context's sample lies, the sample changes. A word of an engine store then holds good parity
(R180). -/
def State.rawWord (s : State) (a : Nat) (l : List Byte) : State :=
  let s := if bitsOf a 63 60 = 3 then s.clearBad badStore (storeIdx (bitsOf a 26 23) (bitsOf a 22 2)) else s
  match if bitsOf a 63 60 = 3 then s.storeSlot (bitsOf a 26 23) (bitsOf a 22 0) else none with
  | some (c, i) =>
    match SMap.look s.mix.ctxs c with
    | some d =>
      let v := leNum l
      let d := { d with slots := SMap.put d.slots i (toSigned 24 v, bitsOf v 31 24) }
      s.modMix (fun m => { m with ctxs := SMap.put m.ctxs c d })
    | none => s
  | none => (List.range l.length).foldl (fun t i => t.rawByte (a + i) (l.getD i 0#8)) s

/-- A raw write, which TEST admits in whole beats (R284). -/
def State.rawWrite (s : State) (a : Nat) (l : List Byte) : State :=
  (List.range (ceilDiv l.length 4)).foldl (fun t i => t.rawWord (a + 4 * i) (slice l (4 * i) 4)) s

/-- A table refuses a write: it is recorded. -/
def State.records (s : State) (f : State → State) : Bool :=
  0 < (f (s.setf F.REG_WI_COUNT.COUNT 0)).fld F.REG_WI_COUNT.COUNT

/-- Whole dwords written to the tables, up to the first that a table refuses: how many bytes were accepted. -/
def State.tableStore (s : State) (ch a : Nat) : (fuel : Nat) → List Byte → Nat × State
  | 0, _ => (0, s)
  | k + 1, l =>
    let off := a % 2 ^ 30
    let w := fun (t : State) => t.bar2Write ⟨.dma4, s.chOwner ch, off, ch⟩ off (leNum (l.take 4))
    if s.records w then (0, w s)
    else
      let (n, t) := State.tableStore (w s) ch (a + 4) k (l.drop 4)
      (n + 4, t)

/-- Bytes written from an address: how many were accepted. -/
def State.dmaWrite (s : State) (ch a : Nat) (l : List Byte) : Nat × State :=
  match s.regionOf a with
  | some .host => (l.length, s.modHost (fun h => { h with mem := cellsWrite h.mem a l }))
  | some (.cxl c) => (l.length, s.cxlWrite c (a % 2 ^ 37) l)
  | some .table => s.tableStore ch a (l.length / 4) l
  | some (.frames _) => (l.length, s)
  | some _ => (l.length, if s.rawHeld a then s.xingDiscard (16 + bitsOf a 26 23) else (s.reachRaw a).rawWrite a l)
  | none => (0, s)

/-! ### Bursts (R281, R282, R285, R287, R288) -/

/-- The bytes of FILL for `n` addresses from `a`. -/
def fillBytes (fill a n : Nat) : List Byte := (List.range n).map (fun i => (leBytes 8 fill).getD ((a + i) % 8) 0#8)

/-- The length of the burst at loop offset `k`. -/
def Desc.burst (d : Desc) (k : Nat) : Nat :=
  let a := if d.toFrames then d.col k else if d.op = oCOMPARE ∧ ¬ d.cmpConst then d.srcAt k else d.dstAt k
  min (d.inner - d.col k) (512 - a % 512)

/-- The descriptor ends with a status after `good` bytes. -/
def ChDyn.stop (c : ChDyn) (status good : Nat) : ChDyn := { c with status := some status, good := good }

/-- The place of the first difference of two lists. -/
def firstDiff : List Byte → List Byte → Nat
  | x :: l, y :: r => if x = y then firstDiff l r + 1 else 0
  | _, _ => 0

/-- A burst of COMPARE. -/
def State.burstCompare (s : State) (ch : Nat) (d : Desc) : State :=
  let c := s.chan ch
  let n := d.burst c.done
  let (x, i, s) := if d.cmpConst then (fillBytes d.fill (d.dstAt c.done) n, n, s) else s.dmaRead (d.srcAt c.done) n
  let (y, j, s) := s.dmaRead (d.dstAt c.done) n
  let ok := min i j
  let k := firstDiff (x.take ok) (y.take ok)
  if k < ok then s.setChan ch { c.stop dOK (c.done + k) with mismatch := some (c.done + k) }
  else if ok < n then s.setChan ch (c.stop dBEAT (c.done + ok))
  else s.setChan ch { c with done := c.done + n, good := c.done + n }

/-- A burst of COPY or FILL to memory. -/
def State.burstWrite (s : State) (ch : Nat) (d : Desc) : State :=
  let c := s.chan ch
  let n := d.burst c.done
  let a := d.dstAt c.done
  let (x, i, s) := if d.op = oFILL then (fillBytes d.fill a n, n, s) else s.dmaRead (d.srcAt c.done) n
  let (k, s) := s.dmaWrite ch a (x.take i)
  let whole := if s.regionOf a = some .table then i / 4 * 4 else i
  if k < whole then s.setChan ch (c.stop (if s.regionOf a = some .table then dTABLE else dBEAT) (c.done + k))
  else if i < n then s.setChan ch (c.stop dBEAT (c.done + k))
  else s.setChan ch { c with done := c.done + n, good := c.done + n }

/-- The frame of a row is complete: it is enqueued to its handle, or discarded outside OPERATIONAL. -/
def State.endRow (s : State) (ch : Nat) (d : Desc) : State :=
  let c := s.chan ch
  if ¬ c.building ∨ s.op ≠ .operational then
    let s := s.dropRow ch
    (s.bump F.DMA_FRAME_STATE_DISCARD).setChan ch { s.chan ch with discarded := true }
  else
    let h := d.dst % 65536
    let s := s.dropRow ch
    if s.isBad rESH h then s.sidParity rESH h
    else if ¬ s.eshValid h then s.bump F.SID_FANOUT_DROP
    else
      let (f, s) := s.dmaFrame (s.eshPort h) c.row
      let s := s.countNoSeq f.rtag [h]
      let (y, s) := s.eshCopy h f f.rtag false (.host ch)
      let (ok, s) := s.offerTo y
      if ok then s.bump F.DMA_FRAMES_BUILT else s

/-- Cells for the frame of the next row are taken in OPERATIONAL; the channel waits while the pool has too few (R143). -/
def State.beginRow (s : State) (ch : Nat) (d : Desc) : Option State :=
  let p := s.eshPort (d.dst % 65536)
  let n := cellsOf (d.inner + 4)
  if s.op ≠ .operational then some s
  else if ¬ s.dmaRoom p n then none
  else
    let c := { s.chan ch with building := true, island := p / 4, cells := if 64 ≤ p then 0 else n }
    let q := s.island (p / 4)
    some ((s.setIsland (p / 4) { q with dmaUsed := q.dmaUsed + c.cells }).setChan ch c)

/-- A burst of a frame-space descriptor. -/
def State.burstFrame (s : State) (ch : Nat) (d : Desc) : State :=
  let start : Bool := d.col (s.chan ch).done = 0 && !(s.chan ch).building
  match if start then s.beginRow ch d else some s with
  | none => (s.setChState ch cWAITPOOL).bump F.QSH_DMA_POOL_WAIT (s.eshPort (d.dst % 65536))
  | some s =>
    let c := s.chan ch
    let n := d.burst c.done
    let (x, i, s) := s.dmaRead (d.srcAt c.done) n
    if i < n then (s.dropRow ch).setChan ch { (s.dropRow ch).chan ch with status := some dBEAT, good := c.done + i }
    else
      let s := s.setChan ch { c with done := c.done + n, good := c.done + n, row := c.row ++ x }
      if d.col (c.done + n) = 0 then s.endRow ch d else s

/-- One burst of channel `ch`. -/
def State.burst (s : State) (ch : Nat) : State :=
  match (s.chan ch).desc with
  | none => s
  | some d =>
    if d.toFrames then s.burstFrame ch d else if d.op = oCOMPARE then s.burstCompare ch d else s.burstWrite ch d

/-- The descriptor of a channel has bytes left to move. -/
def ChDyn.unfinished (c : ChDyn) : Bool := c.desc.any (fun d => c.done < d.total) && c.status.isNone

/-- Channel `ch` is ready for a burst. -/
def State.chReady (s : State) (ch : Nat) : Bool := s.chState ch = cRUNNING && (s.chan ch).unfinished

/-- The priority of what a channel runs. -/
def State.chPrio (s : State) (ch : Nat) : Nat := ((s.chan ch).desc.map (fun d => d.prio)).getD 0

/-- The highest priority that is ready. -/
def State.topPrio (s : State) : Nat := (((List.range 64).filter s.chReady).map s.chPrio).foldl max 0

/-- The scheduler's choice: the highest PRIO; among equals in round robin, from the channel after the last of that priority. -/
def State.nextChannel (s : State) : Option Nat :=
  let k := s.topPrio
  ((List.range 64).map (fun i => (SMap.val s.lastCh k 63 + 1 + i) % 64)).find? (fun ch => s.chReady ch && s.chPrio ch = k)

/-- DMA_BURST. -/
def execDmaBurst (s : State) : Host.Outcome State Fault Refusal :=
  .next (if s.phase ≠ .running then s
    else match s.nextChannel with
      | none => s
      | some ch => { s with lastCh := SMap.putD s.lastCh (s.chPrio ch) ch 63 }.burst ch)

/-- DMA_POOL_CELLS_AVAILABLE: the channel goes on when its pool holds the cells of its frame (R143). -/
def execDmaPoolCellsAvailable (ch : Nat) (s : State) : Host.Outcome State Fault Refusal :=
  atUnit (ch < 64) s
    (match (s.chan ch).desc with
     | none => s
     | some d =>
       if s.chState ch = cWAITPOOL ∧ s.dmaRoom (s.eshPort (d.dst % 65536)) (cellsOf (d.inner + 4)) then
         s.setChState ch cRUNNING
       else s)

/-- Bytes of the row that the beat holding its last byte at address `a` supplies. -/
def lastBeat (inner a : Nat) : Nat := min inner (a % 64 + 1)

/-- BEAT_ERROR: a beat of the running descriptor fails, the last one included when no byte is left to move (R288). -/
def State.beatError (s : State) (ch : Nat) : State :=
  let c := s.chan ch
  match c.desc with
  | none => s
  | some d =>
    if c.status.isSome then s
    else if c.done < d.total then
      let s := s.dropRow ch
      s.setChan ch ((s.chan ch).stop dBEAT c.done)
    else
      let a := if d.usesSrc then d.srcAt (d.total - 1) else d.dstAt (d.total - 1)
      s.setChan ch (c.stop dBEAT (d.total - lastBeat d.inner a))

def execBeatError (ch : Nat) (s : State) : Host.Outcome State Fault Refusal :=
  atUnit (ch < 64) s (if s.chState ch = cRUNNING ∨ s.chState ch = cPAUSING then s.beatError ch else s)

/-! ### Completion (R279, R280, R289, R291) -/

/-- The bytes of a completion record. -/
def recordOf (d : Desc) (c : ChDyn) (status good : Nat) (paused : Bool) (ns : Nat) : List Byte :=
  let flags := c.phase.toNat + c.mismatch.isSome.toNat * 2 + c.discarded.toNat * 4 + paused.toNat * 8
  leBytes 2 d.index ++ leBytes 2 d.tag ++ leBytes 1 status ++ leBytes 1 flags ++ [0, 0] ++ leBytes 8 good ++
    leBytes 8 (c.mismatch.getD (2 ^ 64 - 1)) ++ leBytes 4 (ns % 1000000000) ++ leBytes 4 (ns / 1000000000)

/-- The vector of channel `ch`'s records goes to its owner (R304). -/
def State.chVector (s : State) (ch : Nat) : State :=
  let v := s.chOwner ch
  if v = 0 then s.sendVec 0 (8 + ch) else s.sendVec v (1 + ch - s.fld F.HIF_VF_DMA.BASE 0 v)

/-- A read-back of the last byte at `a` is made after the last write to host, CXL, raw stage or engine-store memory. -/
def Desc.readsBack (d : Desc) : Bool := d.writes && !d.toFrames && bitsOf d.dst 63 60 ≠ 4

/-- The last address that a descriptor writes. -/
def Desc.lastAt (d : Desc) : Nat := d.dstAt (d.total - 1)

/-- The read-back fails: as the command says, at a CXL port that is MAPPED no longer, or in a unit whose read fails (R270). -/
def State.readBackFails (s : State) (d : Desc) (ok : Bool) : Bool :=
  d.readsBack && (!ok || (match s.regionOf d.lastAt with
    | some (.cxl c) => s.cxlPoisoned c (d.lastAt % 2 ^ 37) 1
    | some _ => false
    | none => true))

/-- The read-back of a CXL destination is a read. -/
def State.countBack (s : State) (d : Desc) : State :=
  match s.regionOf d.lastAt with
  | some (.cxl c) => if d.readsBack then s.countRead c (d.lastAt % 2 ^ 37) 1 else s
  | _ => s

/-- Bytes of row `r` that lie in the beat of address `a`. -/
def Desc.rowInBeat (d : Desc) (a r : Nat) : Nat :=
  let b := a / 64 * 64
  let lo := d.dstAt (r * d.inner)
  min (lo + d.inner) (b + 64) - max lo b

/-- Bytes of a descriptor that lie in the beat of its last one. -/
def Desc.backBytes (d : Desc) : Nat :=
  (List.range (d.middle * d.outer)).foldl (fun n r => n + d.rowInBeat d.lastAt r) 0

/-- The channel's state after a record. -/
def State.afterRecord (s : State) (ch status : Nat) (paused : Bool) : State :=
  let s := s.setChan ch { ChDyn.reset with phase := (s.chan ch).phase }
  let s := (s.setf F.DMA_CH_POS_OM.O 0 0 ch).setf F.DMA_CH_POS_OM.M 0 0 ch
  let s := (s.setf F.DMA_CH_POS_IN 0 0 ch).setf F.DMA_CH_STATUS.LAST_STATUS status 0 ch
  if status ≠ 0 then
    (((s.bump F.DMA_CH_ERRORS 0 ch).setf F.DMA_CH_CTL.PAUSE 1 0 ch).setf F.DMA_CH_STATUS.ERR_PAUSED 1 0 ch).setChState ch cPAUSED
  else s.setChState ch (if paused then cPAUSED else cIDLE)

/-- OWN returns to software, the record is written, HEAD and CQ_HEAD advance. -/
def State.complete (s : State) (ch : Nat) (d : Desc) (status good : Nat) : State :=
  let c := s.chan ch
  let paused := s.on F.DMA_CH_CTL.PAUSE 0 ch
  let q := s.fld F.DMA_CH_HEAD.CQ_HEAD 0 ch
  let mem := cellWrite s.host.mem (s.descBase ch + 64 * d.index + 3) 0#8
  let mem := cellsWrite mem (s.cqBase ch + 32 * q) (recordOf d c status good paused s.ns)
  let s := s.modHost (fun h => { h with mem := mem })
  let s := s.setf F.DMA_CH_HEAD.CQ_HEAD ((q + 1) % s.cqCount ch) 0 ch
  let s := s.setChan ch { c with phase := if q + 1 = s.cqCount ch then !c.phase else c.phase }
  let s := (s.setf F.DMA_CH_HEAD.HEAD ((d.index + 1) % s.descCount ch) 0 ch).bump F.DMA_CH_DONE 0 ch
  let s := if d.irq then s.chVector ch else s
  s.afterRecord ch status paused

/-- DESCRIPTOR_COMPLETE: the descriptor has ended, or its last byte is moved and its read-back returns. -/
def State.completeNext (s : State) (ch : Nat) (readBackOk : Bool) : State :=
  let c := s.chan ch
  match c.desc, c.status with
  | some d, some st => s.complete ch d st c.good
  | some d, none =>
    if c.done < d.total then s
    else if s.readBackFails d readBackOk then (s.countBack d).complete ch d dREADBACK (d.total - d.backBytes)
    else s.complete ch d dOK d.total
  | none, _ => s

def execDescriptorComplete (ch : Nat) (readBackOk : Bool) (s : State) : Host.Outcome State Fault Refusal :=
  atUnit (ch < 64) s (if s.phase = .running then s.completeNext ch readBackOk else s)

/-! ### Pausing and disabling (R290, R291) -/

/-- DMA_CH_POS names the first loop-order byte not yet written. -/
def State.setPos (s : State) (ch : Nat) : State :=
  let c := s.chan ch
  match c.desc with
  | none => s
  | some d =>
    let r := d.row c.done
    let s := (s.setf F.DMA_CH_POS_OM.O (r / d.middle) 0 ch).setf F.DMA_CH_POS_OM.M (r % d.middle) 0 ch
    s.setf F.DMA_CH_POS_IN (d.col c.done) 0 ch

/-- The effect of a write of PAUSE at 1. -/
def execDmaPause (ch : Nat) (s : State) : Host.Outcome State Fault Refusal :=
  let o := atBar0 (0x60100 + 4 * ch)
  let data := 0x100 + s.fld F.DMA_CH_CTL.ENABLE 0 ch
  atUnit (ch < 64) s
    (if s.hostUp then s.gated 6 o data (fun t => t.chWrite o ch data (fun u => u.pauseChan ch)) else s)

/-- DMA_PAUSED: the outstanding bursts are written, and the channel is paused unless its descriptor has ended. -/
def execDmaPaused (ch : Nat) (s : State) : Host.Outcome State Fault Refusal :=
  atUnit (ch < 64) s
    (if s.chState ch = cPAUSING ∧ (s.chan ch).unfinished then (s.setPos ch).setChState ch cPAUSED else s)

/-- The effect of a write of PAUSE at 0: the channel goes on where it stood. -/
def State.resumeChan (s : State) (ch : Nat) : State :=
  let s := (s.setf F.DMA_CH_CTL.PAUSE 0 0 ch).setf F.DMA_CH_STATUS.ERR_PAUSED 0 0 ch
  if s.chState ch = cPAUSED ∨ s.chState ch = cPAUSING then
    s.setChState ch (if (s.chan ch).desc.isSome then cRUNNING else cIDLE)
  else s

/-- DMA_RESUME. -/
def execDmaResume (ch : Nat) (s : State) : Host.Outcome State Fault Refusal :=
  let o := atBar0 (0x60100 + 4 * ch)
  let data := s.fld F.DMA_CH_CTL.ENABLE 0 ch
  atUnit (ch < 64) s
    (if s.hostUp then s.gated 6 o data (fun t => t.chWrite o ch data (fun u => u.resumeChan ch)) else s)

/-- The effect of a write of ENABLE at 0: accepted in IDLE and PAUSED alone (R291). -/
def State.disableChan (s : State) (o : Origin4) (ch data : Nat) : State :=
  let st := s.chState ch
  if st = cIDLE ∨ st = cPAUSED then s.chStop ch
  else s.refuse o data cRULE

/-- The effect of a write of ENABLE at 1. -/
def State.enableChan (s : State) (ch : Nat) : State :=
  let s := s.setf F.DMA_CH_CTL.ENABLE 1 0 ch
  if s.chState ch = cDISABLED then s.setChState ch (if s.on F.DMA_CH_CTL.PAUSE 0 ch then cPAUSED else cIDLE) else s

/-- DMA_CHANNEL_DISABLE. -/
def execDmaChannelDisable (ch : Nat) (s : State) : Host.Outcome State Fault Refusal :=
  let o := atBar0 (0x60100 + 4 * ch)
  let data := 0x100 * s.fld F.DMA_CH_CTL.PAUSE 0 ch
  atUnit (ch < 64) s
    (if s.hostUp then s.gated 6 o data (fun t => t.chWrite o ch data (fun u => u.disableChan o ch data)) else s)

end Sys2Proof.Machine
end

