-- ==== Sys2Proof/Machine/Retain.lean ====
section
/-! DEFINITION. What the events of R374 do to each block's dynamic state: the rows of the retention tables that several
events share (R68, R94, R126, R150, R182, R264, R292). -/

namespace Sys2Proof.Machine

/-! ### Queues and stage memory (R150) -/

/-- A sub-queue of port `p` stands empty at its defaults: no frame, tag zero, BURST × 8 bits of tokens when shaped. -/
def State.freshSubq (s : State) (p k : Nat) : SubQ :=
  if s.shapeEn p (k / 1024) (k % 1024) then ⟨[], 0, s.burstUnits p (k / 1024) (k % 1024), s.lt⟩ else SubQ.reset

/-- The frames that port `p` holds: queued, due, in transmission and pre-empted. -/
def PortDyn.held (d : PortDyn) : List Nat :=
  (d.ctrl ++ d.due ++ d.subqs.flatMap (fun kx => kx.2.q)).map (fun c => c.fid) ++
    d.tx.toList.map (fun x => x.copy.fid) ++ d.ellipsis.toList.map (fun x => x.copy.fid)

/-- Port `p`'s queues, Ellipsis and MAC staging are empty, their cells returned; credits, tokens, virtual times and tags
stand at their defaults. Nothing is counted. A train frame that a reset stomps ends by itself (R216). -/
def State.wipePort (s : State) (p : Nat) : State :=
  let d := s.port p
  let t := s.setPort p
    { d with
      ctrl := [], due := [], vtime := [], occupancy := [], tx := d.tx.filter (fun x => isTrain x && x.badFcs), ellipsis := none, rxPart := none
      credit := d.credit.map (fun x => (x.1, (0, s.lt)))
      subqs := d.subqs.foldl (fun m kx => SMap.putD m kx.1 (s.freshSubq p kx.1) SubQ.reset) [] }
  d.held.foldl State.release t

/-- A delay line's records that wait in cells, or have been read ahead, are to be read again from CXL memory (R292). -/
def State.rewindLine (s : State) (n : Nat) : State :=
  let d := s.line n
  let k := d.staged.length
  let m := max 1 (lnSlots (s.lineEntry n))
  let t := d.staged.foldl (fun t x => t.release x.1) s
  t.setLine n { d with staged := [], next := (d.next + m - k % m) % m, left := d.left + k }

def State.rewindLines (s : State) : State := (s.lines.map (fun x => x.1)).foldl State.rewindLine s

/-- Captures that wait in the write buffers are lost, without a count (R375, R377). -/
def State.dropCaptures (s : State) : State :=
  s.captures.foldl (fun t c => t.release c.fid) { s with captures := [] }

/-- The frames that wait at the classifier, on crossings and for unpacking are gone. -/
def State.dropWaiting (s : State) : State :=
  let fids := s.inbox.map (fun x => x.fid) ++ s.mix.unpack.map (fun u => u.fid) ++ s.mix.video.map (fun v => v.fid) ++
    s.arrived.flatMap (fun x => x.2.map (fun c => c.fid)) ++
    s.xing.map (fun x => match x.cargo with
      | .descriptor fid => fid
      | .copy c => c.fid)
  let t := { s with inbox := [], xing := [], arrived := [], mix := { s.mix with unpack := [], video := [] } }
  (fids.foldl State.release t).settleUnblocks

/-- Every queue of the network ports is empty and every cell but the Mix pools' reserved ones is back; panel ports keep
their frames in their own buffers. -/
def State.wipeQueues (s : State) : State :=
  let t := (List.range s.nPorts).foldl State.wipePort s
  (t.rewindLines.dropCaptures).dropWaiting

/-- The queues of the panel ports are empty, without a count. -/
def State.wipePanel (s : State) (t : Nat) : State :=
  let d := s.panel t
  let u := (d.high ++ d.low ++ d.tx.toList.map (fun x => x.1)).foldl State.release s
  u.modPanel t (fun d => { d with high := [], low := [], tx := none, attempts := 0, backoff := none, defer := false })

def State.wipePanels (s : State) : State := (List.range 8).foldl State.wipePanel s

/-- A panel port's part of a block reset of window 0x0B (R68). -/
def State.resetPanel (s : State) (t : Nat) : State :=
  (((s.panelSettle t).wipePanel t).setf F.PNL_STATUS.PLCA_OK 0 0 t).modPanel t (fun d => { d with opportunity := 0, burst := 0 })

/-- The end of that reset: a coordinator sends a new BEACON. -/
def State.panelBeacon (s : State) (t : Nat) : State :=
  if s.on F.PNL_CTL.PLCA_EN 0 t && s.fld F.PNL_PLCA.NODE_ID 0 t = 0 then s.setf F.PNL_STATUS.PLCA_OK 1 0 t else s

/-! ### Streams (R94) -/

/-- TAKE_ANY is set in every recovery function, its timer stopped, and the buckets of every valid meter are full. -/
def State.sidDefaults (s : State) : State :=
  let fs := (s.listedIn (recovTab 0) 16 32768).filter (fun f => s.tabBit (recovTab f) 0 31)
  let ms := (s.listedIn (meterTab 0) 16 16384).filter s.meterValid
  ms.foldl State.meterFull (fs.foldl State.setTakeAny s)

/-! ### The mix fabric (R182) -/

/-- The sample store of a context is empty: every sample absent, FRESH zero. -/
def State.emptyCtx (s : State) (c : Nat) : State :=
  (s.setTab (ctxTab c + 3) 0).modMix (fun m => { m with ctxs := SMap.put m.ctxs c CtxDyn.reset })

/-- The sample stores and row buffers of the engine islands that satisfy `f` are wiped, with the batches in progress. -/
def State.wipeStores (s : State) (f : Nat → Bool) : State :=
  let cs := (s.mix.ctxs.map (fun x => x.1)).filter (fun c => f (islandOf xCTX c))
  let t := cs.foldl State.emptyCtx s
  { t with
    raw := t.raw.filter (fun x => ¬ (x.1 / 2 ^ 60 = 3 ∧ f (bitsOf x.1 26 23)))
    bad := t.bad.filter (fun x => ¬ (x.1 = badStore ∧ f (x.2 / 2 ^ 21)))
    mix := { t.mix with
      batches := t.mix.batches.filter (fun b => !f (engIsland b.e))
      fetched := t.mix.fetched.filter (fun x => !f (islandOf xTILE x.1))
      choices := t.mix.choices.filter (fun x => !f (sumIsland x.sum)) } }

/-- The fabric's part of a warm reset, a MIX block reset, STANDBY and a takeover: stores empty, picture stores marked
empty, a ramp abandoned. -/
def State.mixDefaults (s : State) : State :=
  (s.wipeStores (fun _ => true)).modMix (fun m => { m with pictures := [], ramp := none })

/-! ### DMA (R292) -/

/-- Every channel but the checkpoint writer's is DISABLED, with its bursts drained and no record. -/
def State.stopChannels (s : State) : State :=
  (List.range 64).foldl (fun t ch => if t.ckptOwns ch then t else t.chStop ch) s

/-! ### Time stamps (R264) -/

/-- A TSU block reset of port `p`. -/
def State.tsuReset (s : State) (p : Nat) : State :=
  let t := s.resetFlds [F.TSU_LINK_DELAY, F.TSU_NRR, F.TSU_TX_CAL, F.TSU_RX_CAL, F.TSU_STATUS.DELAY_VALID,
    F.TSU_STATUS.CAL_CONVERGED, F.TSU_STATUS.STALE, F.TSU_STATUS.SOURCE, F.TSU_CABLE.LENGTH_DM] p
  (t.modTsu p (fun x =>
    { x with pdOpen := none, pdHist := [], pdMeans := [], pdDelay := 0, prSent := [], prGot := [], prHist := [],
             prDelays := [], prDelay := 0, prAccepted := 0, prResid := 0 })).newSide p

/-! ### Sentences (R126) -/

/-- A SEN block reset of port `p`: the frames that await R119 or R120 are wiped, silently. -/
def State.senReset (s : State) (p : Nat) : State :=
  s.discardWhere p (fun c => s.fbit F.SEN_CTL.DROP_LATE c.tc p || c.builtBy.isSome) (fun t _ => t)

/-! ### Ports (R374, R377) -/

/-- A PRT block reset: the link retrains. -/
def State.prtReset (s : State) (p : Nat) : State := s.linkLost p

end Sys2Proof.Machine
end

