-- ==== Sys2Proof/Machine/Pair.lean ====
section
/-! DEFINITION. The mirror pair (R345 to R360): the heartbeat, CHECKPOINT_CONFIG, writing checkpoints, and the takeover. -/

namespace Sys2Proof.Machine

/-! ### The heartbeat (R345, R346) -/

/-- ALIVE_STOP_IDLE: the always-on domain misses the control island's heartbeat. -/
def execAliveStopIdle (s : State) : Host.Outcome State Fault Refusal :=
  .next (if s.aliveOk then (s.modPair (fun p => { p with forcedIdle := true, hung := true })).timeAlive else s)

/-! ### The region (R351) -/

/-- First byte of the region on the mirror port, of a slot, and of the control page. -/
def State.ckptBase (s : State) : Nat := 4096 * s.fld F.CXM_CKPT.BASE
def slotSize : Nat := 0x8_0000
def State.slotAddr (s : State) (k : Nat) : Nat := s.ckptBase + slotSize * k
def State.claimAddr (s : State) : Nat := s.ckptBase + 0x10_0000

def State.ckptPort (s : State) : Nat := s.fld F.CXM_CKPT.PORT
def State.unit (s : State) : Nat := s.fld F.PAIR_CTL.UNIT

/-- The unit writes CLAIM with VALID and its own UNIT (R352, R356). -/
def State.writeClaim (s : State) : State :=
  if s.cxlOk s.ckptPort s.claimAddr 4 then s.cxlWrite s.ckptPort s.claimAddr (leBytes 4 (2 ^ 31 + s.unit)) else s

/-- CLAIM as it reads; none when the read fails. -/
def State.claim (s : State) : Option Nat :=
  if s.cxlOk s.ckptPort s.claimAddr 4 && !s.cxlPoisoned s.ckptPort s.claimAddr 4 then
    some (leNum (s.cxlRead s.ckptPort s.claimAddr 4))
  else none

/-- Entry to OPERATIONAL (R31, R352). -/
def State.enterOper (s : State) : State :=
  let t := s.toOp .operational
  if t.pairOn then t.writeClaim else t

/-- CHECKPOINT_CONFIG is refused (R351). -/
def State.ckptBad (s : State) (base : Nat) : Bool :=
  let c := s.mirrorPort
  let x : Extent := ⟨c, 4096 * base, ckptSize⟩
  let stores := s.validLines.filterMap (fun n => lnExtent (s.lineEntry n)) ++
    s.validVideos.filterMap (fun v => viExtent (s.videoEntry v))
  !s.mapped c || s.fld F.CXM_PORT_STATUS.MHD 0 c = 0 || (s.cxlPort c).mapped < x.off + x.len ||
    stores.any (fun y => x.meets y) || (1 < s.nCxl && stores.any (fun y => y.port = c)) ||
    s.chState 63 ≠ cDISABLED || ((List.range 16).drop 1).any (fun v => s.chOfVf v 63)

/-- CXM_CKPT as it reads. -/
def State.ckptWord (s : State) : Nat := s.word [F.CXM_CKPT.VALID, F.CXM_CKPT.PORT, F.CXM_CKPT.BASE]

/-- A takeover that runs is abandoned (R358). -/
def State.dropTakeover (s : State) : State :=
  if s.pair.takeover.isSome then
    (s.modPair (fun p => { p with takeover := none })).setf F.PAIR_STATUS.LAST_OUTCOME 4
  else s

/-- A unit in RECOVERY whose level is high begins the takeover (R350, R356 steps 1 and 2). -/
def State.startTakeover (s : State) : State :=
  if s.pairOn && s.pair.roleLevel && s.op = .recovery && s.pair.takeover.isNone && s.pwr.warmRun.isNone &&
      !s.pair.hung then
    (s.modPair (fun p => { p with takeover := some ⟨s.ns, s.lt, [], false⟩ })).writeClaim
  else s

/-- The pair is enabled with its region at `base`. -/
def State.pairEnable (s : State) (base : Nat) : State :=
  let s := ((s.setf F.CXM_CKPT.VALID 1).setf F.CXM_CKPT.PORT s.mirrorPort).setf F.CXM_CKPT.BASE base
  (s.setf F.PAIR_CTL.PAIR_EN 1).setf F.DMA_CTL.CKPT_D63 1

/-- The pair is disabled: the writer stops, and D63 returns to software. -/
def State.pairDisable (s : State) : State :=
  let s := ((s.setf F.PAIR_CTL.PAIR_EN 0).setf F.DMA_CTL.CKPT_D63 0).dropTakeover
  s.modPair (fun p => { p with writing := none })

/-- CHECKPOINT_CONFIG. -/
def State.checkpointConfig (s : State) (c : Cmd) : State :=
  if c.word 1 % 2 = 0 then
    let t := s.pairDisable
    t.finishOk [t.ckptWord]
  else if s.ckptBad (bitsOf (c.word 2) 24 0) then s.finish xBADARG 7 [s.ckptWord]
  else
    let t := s.pairEnable (bitsOf (c.word 2) 24 0)
    (t.finishOk [t.ckptWord]).startTakeover

def execCheckpointConfig (s : State) : Host.Outcome State Fault Refusal :=
  .next (s.xci 0x50 (fun c t => t.checkpointConfig c))

/-! ### The checkpoint's layout (R351) -/

/-- Seconds and nanoseconds of an instant in ns, as the layout puts them: nanoseconds, then six bytes of seconds. -/
def ckptTime (t : Nat) : List Byte := leBytes 4 (t % 1000000000) ++ leBytes 6 (t / 1000000000)
def ckptTimeAt (l : List Byte) (k : Nat) : Nat := leNum (slice l k 4) + 1000000000 * leNum (slice l (k + 4) 6)

/-- A Sentence's block: parameters, base time in ns, and C in ns. -/
structure SenBlock where
  len : Nat
  cycle : Nat
  ext : Nat
  resv : Nat
  base : Nat
  c : Nat
  deriving DecidableEq, Repr

/-- A Sentence record: the operative part and the pending swap. -/
structure SenRec where
  valid : Bool
  bank : Nat
  oper : SenBlock
  pend : Option SenBlock
  deriving DecidableEq, Repr

/-- A block from the registers of a list as `senAdmin` and `senOper` order them. -/
def State.senBlock (s : State) (p : Nat) (fs : List Field) (c : Nat) : SenBlock :=
  let v := fun (i : Nat) => match fs[i]? with
    | some f => s.fld f p
    | none => 0
  ⟨v 0, v 1, v 2, v 6, v 3 + 1000000000 * (v 4 + 2 ^ 32 * v 5), c⟩

/-- Port `p`'s Sentence as the unit holds it. -/
def State.senRec (s : State) (p : Nat) : SenRec :=
  { valid := s.on F.SEN_STATUS.OPER_VALID p, bank := s.fld F.SEN_STATUS.OPER_BANK p
    oper := s.senBlock p senOper (s.port p).sen.operC
    pend := if s.swapPending p then some (s.senBlock p senAdmin (s.port p).sen.change) else none }

def SenBlock.bytes (b : SenBlock) : List Byte :=
  leBytes 4 b.len ++ leBytes 4 b.cycle ++ leBytes 4 b.ext ++ leBytes 4 b.resv ++ ckptTime b.base ++ [0, 0] ++
    ckptTime b.c ++ [0, 0]

def senBlockAt (l : List Byte) (k : Nat) : SenBlock :=
  let f := fun (i : Nat) => leNum (slice l (k + i) 4)
  ⟨f 0, f 4, f 8, f 12, ckptTimeAt l (k + 16), ckptTimeAt l (k + 28)⟩

def SenRec.bytes (r : SenRec) : List Byte :=
  leBytes 4 (r.valid.toNat + 2 * r.bank + 4 * r.pend.isSome.toNat) ++ leBytes 4 0 ++ r.oper.bytes ++
    (match r.pend with
     | some b => b.bytes
     | none => List.replicate 40 0) ++ List.replicate 40 0

def senRecAt (l : List Byte) : SenRec :=
  let fl := leNum (slice l 0 4)
  ⟨fl.testBit 0, bitsOf fl 1 1, senBlockAt l 8, if fl.testBit 2 then some (senBlockAt l 48) else none⟩

/-- The mix bank state: operative bank, A_eff of the pending commit, A_eff of the operative bank. -/
structure MixRec where
  bank : Nat
  pend : Option Nat
  last : Nat
  deriving DecidableEq, Repr

def State.mixRec (s : State) : MixRec := ⟨s.operBank, s.mix.pending.map (fun x => x.aeff), s.mix.lastAeff⟩

def MixRec.bytes (r : MixRec) (t : Nat) : List Byte :=
  leBytes 8 (r.bank + 2 * r.pend.isSome.toNat) ++ leBytes 8 (r.pend.getD 0) ++ leBytes 8 r.last ++ leBytes 8 (t / 125000) ++
    List.replicate 224 0

def mixRecAt (l : List Byte) : MixRec :=
  let fl := leNum (slice l 0 1)
  ⟨bitsOf fl 0 0, if fl.testBit 1 then some (leNum (slice l 8 8)) else none, leNum (slice l 16 8)⟩

/-- The valid generation functions. -/
def State.validGens (s : State) : List Nat := (s.listedIn (genTab 0) 4 32768).filter (fun g => s.tabBit (genTab g) 0 31)

/-- Slot offsets of the sections. -/
def ckMix : Nat := 0x100
def ckSen (p : Nat) : Nat := 0x1000 + 128 * p
def ckGen (g : Nat) : Nat := 0x4000 + 4 * g

/-- What a capture at `t` ns takes (R352), by slot offset; the other bytes of the body are zero. -/
def State.captureAt (s : State) (t : Nat) : List (Nat × List Byte) :=
  (ckMix, s.mixRec.bytes t) :: (List.range s.nPorts).map (fun p => (ckSen p, (s.senRec p).bytes)) ++
    (s.listedIn (genTab 0) 4 32768).map (fun g =>
      (ckGen g, leBytes 4 (s.tabBits (genTab g) 0 31 31 * 2 ^ 31 + s.tabBits (genTab g) 0 15 0)))

/-- The header of a slot without its HDR_CRC. -/
def State.ckptHead (s : State) (w : CkptWrite) (valid : Bool) (bodyCrc : Nat) : List Byte :=
  leBytes 4 0x4B43545A ++ leBytes 2 1 ++ leBytes 2 s.fuses.variant.part ++ [0x21] ++ leBytes 1 s.unit ++
    leBytes 1 (valid.toNat + 2 * w.final.toNat) ++ [0] ++ leBytes 4 (s.fld F.PAIR_SEQ.SEQ + 1) ++ ckptTime w.cap ++ [0, 0] ++
    leBytes 4 (s.fld F.PAIR_GEN.CONFIG_GEN) ++ leBytes 4 bodyCrc ++ List.replicate 216 0

/-- The header whole. -/
def withCrc (l : List Byte) : List Byte := l ++ leBytes 4 (crc32 l)

/-- The bytes of a slot's body as they stand in memory. -/
def State.slotBody (s : State) (k : Nat) : List Byte := s.cxlRead s.ckptPort (s.slotAddr k + 0x100) (slotSize - 0x100)

/-- Bytes of CXL memory set to zero. -/
def State.cxlZero (s : State) (c off n : Nat) : State :=
  let d := s.cxlPort c
  s.setCxl c
    { d with
      mem := d.mem.filter (fun x => ¬ (off ≤ x.1 ∧ x.1 < off + n))
      poison := d.poison.filter (fun b => !unitIn off n b)
      late := d.late.filter (fun b => !unitIn off n b) }

/-- The body of a slot is written. -/
def State.writeBody (s : State) (w : CkptWrite) : State :=
  let a := s.slotAddr w.slot
  w.image.foldl (fun t x => t.cxlWrite t.ckptPort (a + x.1) x.2) (s.cxlZero s.ckptPort (a + 0x100) (slotSize - 0x100))

/-! ### Writing checkpoints (R352 to R355, R359) -/

/-- A step of the write fails (R354): the write is abandoned, and the slot stays as it is. -/
def State.ckptFail (s : State) (slot : Nat) : State :=
  ((s.modPair (fun p => { p with writing := none })).bump F.CKPT_WRITE_FAIL).raise 64 slot

/-- The region can be reached. -/
def State.regionUp (s : State) : Bool := s.cxlOk s.ckptPort s.ckptBase ckptSize

/-- A capture: steps 1 and 2 of R353. A unit that finds itself fenced writes nothing and enters SAFE (R355). -/
def State.capture (s : State) (final : Bool) : State :=
  let slot := 1 - s.fld F.PAIR_STATUS.LAST_SLOT
  match s.claim with
  | none => (s.countRead s.ckptPort s.claimAddr 4).ckptFail slot
  | some c =>
    if c.testBit 31 ∧ c % 2 ≠ s.unit then (s.modPair (fun p => { p with writing := none })).raise 65 0
    else if ¬ s.regionUp then s.ckptFail slot
    else
      let w : CkptWrite := ⟨slot, final, s.ns, s.captureAt s.ns⟩
      (s.cxlWrite s.ckptPort (s.slotAddr slot) (withCrc (s.ckptHead w false 0))).modPair (fun p =>
        { p with writing := some w })

/-- The next capture instant (R352). -/
def State.nextCapture (s : State) : Nat :=
  let f := s.fld F.PAIR_PHASE.PHASE
  (s.ns + 125000 - f) / 125000 * 125000 + f

/-- CHECKPOINT_CAPTURE: a capture that meets a write in progress is skipped (R354). -/
def execCheckpointCapture (s : State) : Host.Outcome State Fault Refusal :=
  .next (
    if ¬ s.pairOn ∨ s.op ≠ .operational ∨ s.phase ≠ .running then s
    else
      let t := s.runToNs s.nextCapture
      if t.pair.writing.isSome then t.bump F.CKPT_SKIPPED else t.capture false)

/-- A write may go on: in OPERATIONAL, or, when final, in RECOVERY (R359, R360). -/
def State.mayWrite (s : State) (w : CkptWrite) : Bool := s.pairOn && (s.op = .operational || (w.final && s.op = .recovery))

/-- Steps 3 to 6 of R353. -/
def State.ckptDone (s : State) (w : CkptWrite) : State :=
  let s := s.writeBody w
  let s := s.cxlWrite s.ckptPort (s.slotAddr w.slot) (withCrc (s.ckptHead w true (crc32 (s.slotBody w.slot))))
  let s := (s.setf F.PAIR_SEQ.SEQ (s.fld F.PAIR_SEQ.SEQ + 1)).setf F.PAIR_STATUS.LAST_SLOT w.slot
  (s.bump F.CKPT_WRITTEN).modPair (fun p => { p with writing := none, written := p.written + 1 })

/-- CHECKPOINT_WRITE_DONE: every step has succeeded, or one has failed (R354). -/
def execCheckpointWriteDone (ok : Bool) (s : State) : Host.Outcome State Fault Refusal :=
  .next (match s.pair.writing with
    | none => s
    | some w =>
      if ¬ s.mayWrite w then s.modPair (fun p => { p with writing := none })
      else if ok ∧ s.regionUp then s.ckptDone w
      else s.ckptFail w.slot)

/-- The unit acts on a low level of ROLE_ACTIVE: in OPERATIONAL the final capture and RECOVERY (R350, R359); during a
takeover its end (R358). -/
def State.levelLow (s : State) : State :=
  if ¬ s.pairOn then s
  else if s.op = .operational then
    let t := (s.modPair (fun p => { p with writing := none })).capture true
    if t.op = .operational then t.toOp .recovery else t
  else s.dropTakeover

/-- ROLE_ACTIVE falls. A unit whose control island has hung does not act on it (R346). -/
def State.roleFall (s : State) : State :=
  let s := s.modPair (fun p => { p with roleLevel := false })
  if s.pair.hung then s else s.levelLow

/-- ROLE_ACTIVE rises: in RECOVERY the takeover begins. -/
def State.roleRise (s : State) : State := (s.modPair (fun p => { p with roleLevel := true })).startTakeover

/-- The control island's heartbeat has returned: the unit acts on the level that it finds (R350; log 38). -/
def State.heartbeat (s : State) : State :=
  if s.pair.hung then
    let t := s.modPair (fun p => { p with hung := false })
    if t.pair.roleLevel then t.startTakeover else t.levelLow
  else s

/-- ALIVE_TOGGLE: the next edge, while the conditions of R345 hold; after a hang it shows that the heartbeat is back. -/
def execAliveToggle (s : State) : Host.Outcome State Fault Refusal :=
  .next (
    let s := s.heartbeat.timeAlive
    match s.pair.aliveNext with
    | none => s
    | some t => (s.runToLt t).modPair (fun p => { p with alive := !p.alive, aliveNext := some (t + 500 * ltNs) }))

/-! ### Takeover (R356, R357) -/

/-- The header of slot `k`, when the slot is usable at `nt` ns (step 3). -/
def State.usable (s : State) (nt k : Nat) : Bool :=
  let a := s.slotAddr k
  let l := s.cxlRead s.ckptPort a 256
  let cap := ckptTimeAt l 16
  s.cxlOk s.ckptPort a 256 && !s.cxlPoisoned s.ckptPort a 256 && leNum (slice l 252 4) = crc32 (l.take 252) &&
    leNum (slice l 0 4) = 0x4B43545A && leNum (slice l 4 2) = 1 && leNum (slice l 6 2) = s.fuses.variant.part &&
    (leNum (slice l 10 1)).testBit 0 && nt ≤ cap + 1000 * s.fld F.PAIR_TIMING.MAX_AGE

/-- SEQ of a slot's header. -/
def State.slotSeqNo (s : State) (k : Nat) : Nat := leNum (s.cxlRead s.ckptPort (s.slotAddr k + 12) 4)

/-- The usable slots, the higher SEQ first (step 4). -/
def State.usableSlots (s : State) (nt : Nat) : List Nat :=
  match s.usable nt 0, s.usable nt 1 with
  | true, true => if 0 < toSigned 32 (s.slotSeqNo 1 + 2 ^ 32 - s.slotSeqNo 0) then [1, 0] else [0, 1]
  | true, false => [0]
  | false, true => [1]
  | false, false => []

/-- A step of the takeover ends: nothing happens while the control island hangs, and where the level has fallen the sequence stops there
(R346, R358). -/
def State.takeoverStep (s : State) (f : Takeover → State) : State :=
  match s.pair.takeover with
  | none => s
  | some t => if s.pair.hung then s else if s.pair.roleLevel then f t else s.dropTakeover

/-- TAKEOVER_HEADERS_READ (steps 2 and 3). -/
def execTakeoverHeadersRead (s : State) : Host.Outcome State Fault Refusal :=
  .next (s.takeoverStep (fun t =>
      let l := s.usableSlots t.nt
      (([0, 1] : List Nat).foldl (fun u k => u.countRead u.ckptPort (u.slotAddr k) 256) s).modPair (fun p => { p with takeover := some { t with slots := l, found := l ≠ [] } })))

/-- NEXT of every valid generation function (R95, R357): from the record when it is VALID, else from the unit's own. -/
def State.takeGens (s : State) (body : Nat → Option Nat) : State :=
  s.validGens.foldl (fun t g =>
    let k := genTab g
    let own := t.tabBits k 0 15 0
    t.setTabBits k 0 15 0 (((body g).getD own) + t.tabBits k 1 15 0)) s

/-- A record advanced to `t` ns: a swap that lies at or before `t` counts as made. -/
def SenRec.advance (r : SenRec) (t : Nat) : SenRec :=
  match r.pend with
  | some b => if b.c ≤ t then ⟨true, 1 - r.bank, b, none⟩ else r
  | none => r

/-- Two Sentences agree: both have none operative, or the same, and the same swap ahead. -/
def SenRec.same (a b : SenRec) : Bool :=
  a.valid = b.valid && a.bank = b.bank && (!a.valid || a.oper = b.oper) && a.pend = b.pend

/-- The registers of a list take a block. -/
def State.putBlock (s : State) (p : Nat) (fs : List Field) (b : SenBlock) : State :=
  let sec := b.base / 1000000000
  (fs.zip [b.len, b.cycle, b.ext, b.base % 1000000000, sec % 2 ^ 32, sec / 2 ^ 32, b.resv]).foldl
    (fun t x => t.setf x.1 x.2 p) s

/-- Port `p` takes the result of a record that differs from its own Sentence. -/
def State.adoptSen (s : State) (p : Nat) (r : SenRec) : State :=
  let had : Bool := s.adminState p ≠ aEMPTY
  let s := ((s.setf F.SEN_STATUS.OPER_VALID r.valid.toNat p).setf F.SEN_STATUS.OPER_BANK r.bank p).putBlock p senOper r.oper
  let s := s.modSen p (fun x => { x with operC := r.oper.c, faulty := [] })
  match r.pend with
  | some b =>
    if had then
      let s := (s.putBlock p senAdmin b).setf F.SEN_STATUS.ADMIN_STATE aPENDING p
      s.modSen p (fun x => { x with change := b.c, armed := s.portNs p })
    else s.setf F.SEN_STATUS.ADMIN_STATE aEMPTY p
  | none => s.setf F.SEN_STATUS.ADMIN_STATE aEMPTY p

/-- The port's cycle and Clause as they stand now. -/
def State.resumeSen (s : State) (p : Nat) : State :=
  if s.on F.SEN_STATUS.OPER_VALID p then
    (s.modSen p (fun x => { x with cycle := (s.senPos p (s.portNs p)).cycle.start })).takeClause p false
  else s.regate p

/-- The Sentence of port `p` against its record: whether they differed, and the state that follows. -/
def State.takeSen (s : State) (nt : Nat) (p : Nat) (r : SenRec) : Bool × State :=
  let s := if s.swapPending p && (s.port p).sen.change ≤ nt then s.doSwap p false else s
  let r := r.advance nt
  if r.same (s.senRec p) then (false, s) else (true, (s.adoptSen p r).resumeSen p)

/-- A mix record advanced to `t` ns. -/
def MixRec.advance (r : MixRec) (t : Nat) : MixRec :=
  match r.pend with
  | some a => if a * 1000000 ≤ t then ⟨1 - r.bank, none, a⟩ else r
  | none => r

/-- Cells and store that the bank which was operative held return; the drain is over. -/
def State.dropBank (s : State) (b : Nat) : State :=
  let mine := s.mix.reserved.filter (fun r => r.bank = b || r.old.isSome)
  let s := (s.mixCells mine false).modMix (fun m =>
    { m with
      reserved := m.reserved.filter (fun r => ¬ (r.bank = b ∨ r.old.isSome))
      drainEnd := none, ramp := none })
  s.freeStore (s.banksInUse ++ s.mix.pending.toList.map (fun x => x.bank))

/-- Bank `b` holds its cells and its store blocks; a bank whose commit has given them back takes them again. -/
def State.holdBank (s : State) (b : Nat) (p : Placement) : State :=
  let s :=
    if s.mix.reserved.any (fun r => r.bank = b && r.old.isNone) then s
    else
      let rs := s.reserves b
      ((s.mixCells rs true).allocate b).modMix (fun m => { m with reserved := m.reserved ++ rs })
  s.showPlacement b p

/-- Bank `b`, whose A_eff was `last`, becomes operative. The commit with which the unit itself made it, also one that is pending, gives its
placement; `keep` says that the pending one stays. A bank that the unit never committed is placed after release (R357). -/
def State.takeBank (s : State) (b last : Nat) (keep : Bool) : State :=
  let old := s.operBank
  let own := (s.mix.pending.filter (fun x => x.bank = b)).map (fun x => x.place)
  let place := own.or (SMap.look s.mix.placed b)
  let s := (s.setf F.MIX_STATUS.OPER_BANK b).modMix (fun m =>
    { m with
      placed := match place with
        | some p => SMap.put m.placed b p
        | none => m.placed
      pending := if keep then m.pending else m.pending.filter (fun x => x.bank ≠ b)
      activated := true, unplaced := place.isNone, lastAeff := last })
  let s := (s.modPair (fun p => { p with placing := place.isNone })).dropBank old
  match place with
  | some p => s.holdBank b p
  | none => s

/-- The unit's own pending commit follows the record's: kept with its A_eff, or withdrawn. -/
def State.followCommit (s : State) (pend : Option Nat) : State :=
  match s.mix.pending with
  | none => s
  | some x => match pend with
    | some a => s.modMix (fun m => { m with pending := some { x with aeff := a, loaded := false } })
    | none => s.dropCommit x

/-- The mix bank state against its record. -/
def State.takeMix (s : State) (nt : Nat) (r : MixRec) : Bool × State :=
  let s := match s.mix.pending with
    | some x => if x.aeff * 1000000 ≤ nt then s.activate x else s
    | none => s
  let r := r.advance nt
  let own := s.mixRec
  if r.bank = own.bank ∧ r.pend = own.pend then (false, s)
  else
    let s := if r.pend.isSome then s.followCommit r.pend else s
    let s := if r.bank ≠ s.operBank then s.takeBank r.bank r.last r.pend.isSome else s
    (true, if r.pend.isNone then s.followCommit none else s)

/-- The takeover columns of the retention tables (R94, R126, R150, R182, R238, R292). -/
def State.takeoverDefaults (s : State) : State :=
  (s.wipeQueues.sidDefaults.mixDefaults.stopChannels).dropRemotes

/-- The units that differed are counted, and raised once (R357). -/
def State.mismatch (s : State) (n : Nat) : State :=
  if n = 0 then s else (s.bump F.STATE_MISMATCH 0 0 n).raise 68 (n % 2 ^ 16)

/-- The body of slot `k` is applied (R357). -/
def State.applyBody (s : State) (nt k : Nat) : State :=
  let a := s.slotAddr k
  let at' := fun (off n : Nat) => s.cxlRead s.ckptPort (a + off) n
  let gen := fun (g : Nat) =>
    let v := leNum (at' (ckGen g) 4)
    if v.testBit 31 then some (v % 2 ^ 16) else none
  let recs := (List.range s.nPorts).map (fun p => (p, senRecAt (at' (ckSen p) 128)))
  let m := mixRecAt (at' ckMix 256)
  let (n, t) := recs.foldl (fun nt' x =>
    let (d, u) := nt'.2.takeSen nt x.1 x.2
    (nt'.1 + d.toNat, u)) ((0, s.takeGens gen) : Nat × State)
  let (d, t) := t.takeMix nt m
  (t.mismatch (n + d.toNat)).takeoverDefaults

/-- Step 7, and the outcome. -/
def State.releasePair (s : State) (since outcome : Nat) : State :=
  let s := (s.modPair (fun p => { p with takeover := none, takeovers := p.takeovers + 1 })).bump F.TAKEOVERS
  let s := (s.setf F.PAIR_STATUS.LAST_OUTCOME outcome).setf F.PAIR_TAKEOVER_NS.DURATION (min (2 ^ 20 - 1) ((s.lt - since) / ltNs))
  s.enterOper

/-- Steps 5 to 7 with the body of slot `k`. -/
def State.loadSlot (s : State) (t : Takeover) (k : Nat) : State :=
  let h := s.cxlRead s.ckptPort (s.slotAddr k) 256
  let gen := leNum (slice h 28 4)
  let s := if gen ≠ s.fld F.PAIR_GEN.CONFIG_GEN then s.raise 66 gen else s
  let s := s.applyBody t.nt k
  let s := (s.setf F.PAIR_SEQ.SEQ (leNum (slice h 12 4))).setf F.PAIR_STATUS.LAST_SLOT k
  s.releasePair t.since 1

/-- The body of slot `k` passes BODY_CRC. -/
def State.bodyOk (s : State) (k : Nat) : Bool :=
  s.cxlOk s.ckptPort (s.slotAddr k) slotSize && !s.cxlPoisoned s.ckptPort (s.slotAddr k) slotSize &&
    leNum (s.cxlRead s.ckptPort (s.slotAddr k + 32) 4) = crc32 (s.slotBody k)

/-- TAKEOVER_BODY_LOADED: within 14 µs of the level. A body that fails is followed by the other slot's, when usable
(step 4). -/
def execTakeoverBodyLoaded (s : State) : Host.Outcome State Fault Refusal :=
  .next (s.takeoverStep (fun t => match t.slots with
      | [] => s
      | k :: r =>
        if t.since + 14 * ltUs < s.lt then s
        else if s.bodyOk k then s.loadSlot t k
        else (s.countRead s.ckptPort (s.slotAddr k) slotSize).modPair (fun p => { p with takeover := some { t with slots := r } })))

/-- The unit goes on with its own state (R356). -/
def State.ownState (s : State) (t : Takeover) : State :=
  let outcome := if t.found then 3 else 2
  let s := ((s.takeGens (fun _ => none)).takeoverDefaults).runToLt (t.since + 15 * ltUs)
  ((s.bump F.TAKEOVER_NO_CKPT).releasePair t.since outcome).raise 67 outcome

/-- TAKEOVER_TIMEOUT: no body has loaded 14 µs after the level was taken; release at 15 µs. -/
def execTakeoverTimeout (s : State) : Host.Outcome State Fault Refusal :=
  .next (s.takeoverStep (fun t => (s.runToLt (t.since + 14 * ltUs)).ownState t))

/-- The operative bank is placed and checked as a commit would (R357): a bank that fails stays without a placement. -/
def State.placeOperative (s : State) : State :=
  let b := s.operBank
  match s.commitCheck b s.ns with
  | (some _, _) => s
  | (none, p) =>
    let rs := s.reserves b
    let s := ((s.mixCells rs true).allocate b).showPlacement b p
    s.modMix (fun m => { m with placed := SMap.put m.placed b p, unplaced := false, reserved := m.reserved ++ rs })

/-- TAKEOVER_PLACEMENT_DONE. -/
def execTakeoverPlacementDone (s : State) : Host.Outcome State Fault Refusal :=
  .next (
    if s.pair.placing ∧ s.op = .operational ∧ s.phase = .running then
      (s.modPair (fun p => { p with placing := false })).placeOperative
    else s)

end Sys2Proof.Machine
end

