-- ==== Sys2Proof/Machine/Bist.lean ====
section
/-! DEFINITION. Self-test and repair (R393 to R402): the list of units, power waves, results, spares and fuses; and the wipes that
clear memories and registers (R27, R31, R397, R404, R407). -/

namespace Sys2Proof.Machine

/-! ### Wipes -/

/-- Every on-package memory is zero with good parity: tables, queues, buffers, stores. -/
def State.wipeMemories (s : State) : State :=
  let s := (s.wipeQueues.wipePanels).mixDefaults
  { s with
    tabs := [], bad := [], sidCol := none, mixCol := none, conCol := none, cxmCol := none, frames := [], nextId := 0
    meters := [], recs := [], lines := [], raw := [], bst := { s.bst with tested := [] } }

/-- The registers of a window return to their reset values. -/
def State.dropWindow (s : State) (w : Nat) : State := { s with regs := s.regs.filter (fun x => x.1 / 32 / 0x1_0000 ≠ w) }

/-- The table dwords that satisfy `f` read zero, and the entries that satisfy `bad` hold good parity. -/
def State.dropTabs (s : State) (f : Nat → Bool) (bad : Nat × Nat → Bool) : State :=
  { s with tabs := s.tabs.filter (fun x => !f x.1), bad := s.bad.filter (fun x => !bad x) }

/-- The engine island of a mix entry or store word known to hold a parity error. -/
def badIsland (x : Nat × Nat) : Nat := if x.1 = badStore then x.2 / 2 ^ 21 else islandOf (x.1 - 16) (x.2 % 2 ^ 22)

/-- The entries of a memory unit. -/
def State.dropUnit (s : State) (u : Nat) : State :=
  s.dropTabs (fun k => memUnit k = some u) (fun x =>
    if u < 16 then x.1 = badClause && x.2 / 8192 / 4 = u
    else if u < 64 then 16 ≤ x.1 && x.1 < badClause && badIsland x = u - 32
    else x.1 < 16)

/-- The memories of a tested unit (R397) or of one that is wiped (R31): dynamic contents are gone. -/
def State.dropMemories (s : State) (u : Nat) : State :=
  let s := s.dropUnit u
  if u < 16 then (List.range 4).foldl (fun t j => t.wipePort (4 * u + j)) s
  else if u < 64 then s.wipeStores (fun m => m = u - 32)
  else { s with meters := [], recs := [], sidCol := none }

/-! ### Groups (R393) -/

/-- Power of a unit of a group in tenths of a watt, and its time in ms. -/
def bistPower (g : Nat) : Nat := [90, 60, 70, 140, 100, 80, 30, 50, 1].getD g 0
def bistTime (g : Nat) : Nat := [28, 12, 20, 15, 40, 10, 8, 10, 1].getD g 0

/-- Groups that drive scan chains, and groups with spares. -/
def bistScan (g : Nat) : Bool := [1, 3, 5, 6, 7].contains g
def bistSpares (g : Nat) : Bool := g < 4

/-- Units of a group. -/
def State.bistUnits (s : State) (g : Nat) : Nat := if g < 4 then s.nIslands else 1

/-- Groups of a mask. -/
def maskGroups (m : Nat) : List Nat := (List.range 9).filter (fun g => m.testBit g)

/-! ### Islands and spares (R5, R399) -/

/-- The physical island that the fuses give a logical unit from manufacture (R5). -/
def Fuses.mapped (f : Fuses) (engine : Bool) (u : Nat) : Nat := (if engine then f.engineMap else f.portMap).val u u

/-- The physical island that serves a logical unit: the latest repair's, else the fused one (R5, R399). -/
def State.physical (s : State) (engine : Bool) (u : Nat) : Nat :=
  match (s.repairs.filter (fun r => r.engine = engine && r.logical = u)).reverse with
  | r :: _ => r.physical
  | [] => s.fuses.mapped engine u

/-- The spare islands of a kind that serve no unit, have been taken out by no repair and have not failed, lowest first. -/
def State.spares (s : State) (engine : Bool) : List Nat :=
  let mine := s.repairs.filter (fun r => r.engine = engine)
  (List.range 16).filter (fun p =>
    !(List.range s.nIslands).any (fun u => s.fuses.mapped engine u = p) && !mine.any (fun r => r.physical = p) &&
      !s.bst.badSpares.contains (engine, p))

/-- The island that a unit of the list runs on. -/
def State.bistIsland (s : State) (x : BistUnit) : Nat :=
  if x.group < 4 then
    (if bistEngine x.group then 16 else 0) + (if x.spare then x.unit else s.physical (bistEngine x.group) x.unit)
  else if x.group < 6 then 32 else x.group + 27

/-! ### Keys (R403) -/

/-- The slots of a mask are emptied by a cause (LAST_CLEAR); BST_KEYS_CLEARED when one was loaded. -/
def State.clearKeys (s : State) (mask cause : Nat) : State :=
  let hit := s.bst.keys.any (fun x => mask.testBit x.1)
  if hit then
    let s := s.modBst (fun b => { b with keys := b.keys.filter (fun x => !mask.testBit x.1) })
    let loaded := s.bst.keys.foldl (fun a x => a + 2 ^ x.1) 0
    ((s.setf F.BST_KEY_STATUS.LOADED loaded).setf F.BST_KEY_STATUS.LAST_CLEAR cause).raise 84 cause
  else s

/-! ### BIST_RUN (R394) -/

/-- A unit of a scan group of the mask has its REG lock set. -/
def State.bistLocked (s : State) (m : Nat) : Bool :=
  (m.testBit 1 && s.anyPort s.lockPort) || (m.testBit 3 && (List.range s.nIslands).any s.lockEng) ||
    (m.testBit 5 && s.lockSys 0x0A) || (m.testBit 6 && (s.lockSys 4 || s.lockSys 5)) ||
    (m.testBit 7 && (s.lockSys 6 || s.lockSys 7))

/-- The list of R395. -/
def State.bistList (s : State) (m : Nat) : List BistUnit :=
  (maskGroups m).flatMap (fun g => (List.range (s.bistUnits g)).map (fun u => ⟨g, u, false, 0⟩))

/-- A record with nothing tested. -/
def bistRecord (g : Nat) : List Nat := (g * 2 ^ 8) :: List.replicate 12 0

/-- The run starts, and the command parks. -/
def State.bistStart (s : State) (m : Nat) (repair : Bool) : State :=
  let s := if (List.range 9).any (fun g => m.testBit g && (bistScan g || g = 8)) then s.clearKeys 0xFFFF 2 else s
  let s := s.modBst (fun b =>
    { b with
      run := some (s.lt, repair, s.lt), units := s.bistList m, emptyTries := 0, mask := m, repairOf := []
      results := (maskGroups m).foldl (fun r g => SMap.put r g (bistRecord g)) b.results })
  ((s.setf F.BST_STATUS.WAVE 0).setf F.BST_STATUS.RUNNING 1).park

def State.bistRun (s : State) (c : Cmd) : State :=
  let m := c.word 1
  if s.bistLocked m then s.finish xLOCKED 8 []
  else if 2 ^ 9 ≤ m then s.finish xBADARG 7 []
  else if s.bst.run.isSome ∨ s.wiping then s.finish xBUSY 7 []
  else s.bistStart m ((c.word 2).testBit 0)

def execBistRun (s : State) : Host.Outcome State Fault Refusal := .next (s.xci 0x70 (fun c t => t.bistRun c))

/-! ### Waves (R395, R396) -/

/-- The units that join a wave: index in the list, with the wave's islands and power so far (tenths of a watt). -/
def State.packWave (s : State) (room : Nat) : (i : Nat) → List BistUnit → List Nat → Nat → List Nat
  | _, [], _, _ => []
  | i, x :: r, used, w =>
    let p := bistPower x.group
    let isl := s.bistIsland x
    if x.state = 0 ∧ ¬ used.contains isl ∧ w + p ≤ room then i :: State.packWave s room (i + 1) r (isl :: used) (w + p)
    else State.packWave s room (i + 1) r used w

/-- The state of listed units, by index. -/
def setUnits (l : List BistUnit) (is : List Nat) (st : Nat) : List BistUnit :=
  l.mapIdx (fun i x => if is.contains i then { x with state := st } else x)

/-- The run has nothing left to start: no unit waits, or none has fitted for as long as R396 waits. -/
def State.bistOver (s : State) : Bool :=
  !s.bst.units.any (fun x => x.state = 0) || 100 ≤ s.bst.emptyTries ||
    (s.fld F.BST_STATUS.WAVE = 0 && 1 ≤ s.bst.emptyTries)

def State.bistWave (s : State) (baseline : Nat) : State :=
  let s := s.run ltMs
  let is := s.packWave (10 * s.fld F.PWR_BUDGET - 10 * baseline) 0 s.bst.units [] 0
  if is = [] ∨ s.fld F.PWR_BUDGET < baseline then s.modBst (fun b => { b with emptyTries := b.emptyTries + 1 })
  else
    let s := s.modBst (fun b =>
      { b with units := setUnits b.units is 1, emptyTries := 0, run := b.run.map (fun r => (r.1, r.2.1, s.lt)) })
    s.setf F.BST_STATUS.WAVE (min 255 (s.fld F.BST_STATUS.WAVE + 1))

/-- BIST_WAVE_START: a baseline of 1 ms, in W, and the wave that it leaves room for. -/
def execBistWaveStart (baseline : Nat) (s : State) : Host.Outcome State Fault Refusal :=
  .next (
    if s.bst.run.isNone ∨ s.bst.units.any (fun x => x.state = 1) ∨ s.bistOver then s else s.bistWave baseline)

/-! ### What a test leaves (R397) -/

/-- A scan group returns every register and table entry of its unit to its power-on value. -/
def State.scanned (s : State) (g u : Nat) : State :=
  match g with
  | 1 =>
    let t := (List.range 4).foldl (fun t j =>
      let p := 4 * u + j
      let t := (t.wipePort p).dropWindow (0x10 + p)
      { t with ports := SMap.del t.ports p }) s
    (t.modBst (fun b => { b with tested := b.tested.filter (· ≠ u) })).dropUnit u
  | 3 =>
    let t := (s.wipeStores (fun m => m = u)).dropWindow (0x50 + u)
    let t := t.modBst (fun b => { b with tested := b.tested.filter (· ≠ 32 + u) })
    (t.dropUnit (32 + u)).dropTabs (fun k => k % 0x100_0000 < 0x8_0000 && k < 0x200_0000 && k % 0x100_0000 / 0x8000 = u)
      (fun _ => false)
  | 5 =>
    let t := s.dropWindow 0x0A
    ({ t with meters := [], recs := [], sidCol := none, bst := { t.bst with tested := t.bst.tested.filter (· ≠ 64) } }).dropUnit 64
  | 6 =>
    let t := (s.dropWindow 4).dropWindow 5
    ({ t with time := { TimeS.reset with syncFrom := t.lt }, con := ConS.reset, conCol := none }).dropTabs (fun k => tRing ≤ k && k < tCxm) (fun _ => false)
  | 7 =>
    let t := ((s.rewindLines.dropCaptures).dropWindow 6).dropWindow 7
    let t := { t with chans := [], lastCh := [], lines := [], cxmCol := none, mix := { t.mix with pictures := [] } }
    (List.range t.nCxl).foldl (fun t c => (t.setCxl c { t.cxlPort c with mapped := 0 }).startEnum c)
      (t.dropTabs (fun k => tCxm ≤ k) (fun _ => false))
  | _ => s

/-- A memory group leaves its unit's memories holding test patterns; raw reads of memories find free values. -/
def State.tested (s : State) (g u : Nat) : State :=
  if bistMemory g then
    let t := s.dropMemories (16 * g + u)
    { t with
      raw := []
      nextId := max 1 t.nextId
      bst := { t.bst with tested := (16 * g + u) :: t.bst.tested.filter (· ≠ 16 * g + u), pattern := t.bst.pattern + 1 } }
  else s.scanned g u

/-! ### Results (R398) -/

/-- Word `w` (1 to 13) of a group's record. -/
def BstS.word (b : BstS) (g w : Nat) : Nat := (SMap.val b.results g (bistRecord g)).getD (w - 1) 0
def BstS.setWord (b : BstS) (g w v : Nat) : BstS :=
  { b with results := SMap.put b.results g ((SMap.val b.results g (bistRecord g)).set (w - 1) v) }

/-- The end of a unit's test goes into its group's record: the time of the last end, and the first failure. -/
def State.recordEnd (s : State) (x : BistUnit) (start wave : Nat) : State :=
  let t := wave + bistTime x.group * ltMs
  let ns := s.ntAt t / 2 ^ 32
  let us := (t - start) / ltUs
  s.modBst (fun b =>
    if us < b.word x.group 4 then b
    else ((b.setWord x.group 2 (ns % 1000000000)).setWord x.group 3 (ns / 1000000000 % 2 ^ 32)).setWord x.group 4 us)

/-- Words 5 to 9 of the group's first failure. -/
def State.recordFirst (s : State) (x : BistUnit) (e : UnitEnd) : State :=
  let phys := s.bistIsland x % 16
  s.modBst (fun b =>
    let b := b.setWord x.group 5 (x.unit % 16 * 2 ^ 28 + (if x.group < 4 then phys else 0) * 2 ^ 24 + e.location % 2 ^ 24)
    let b := b.setWord x.group 6 (e.inst % 16 * 2 ^ 16 + e.element % 8 * 2 ^ 12 + e.bit % 2 ^ 9)
    ((b.setWord x.group 7 (sat32 e.failBits)).setWord x.group 8 (e.expected % 2 ^ 32)).setWord x.group 9 (e.observed % 2 ^ 32))

/-- A logical unit left failed. -/
def State.noteUnrepaired (s : State) (g u : Nat) : State :=
  s.modBst (fun b => b.setWord g 11 (withBits (b.word g 11) u u 1))

/-- A unit of the list has failed: its group's record, and BST_FAIL when no repair was asked for (R399). A spare of the run that already
serves the unit counts as failed. -/
def State.unitFails (s : State) (x : BistUnit) (e : UnitEnd) (repair : Bool) : State :=
  let s := s.bump F.BST_UNITS_FAILED
  if x.spare then s.modBst (fun b => { b with badSpares := b.badSpares ++ [(bistEngine x.group, x.unit)] })
  else
    let first : Bool := bitsOf (s.bst.word x.group 1) 31 16 = 0 || x.unit < bitsOf (s.bst.word x.group 5) 31 28
    let s := if first then s.recordFirst x e else s
    let s := s.modBst (fun b => b.setWord x.group 1 (withBits (b.word x.group 1) (16 + x.unit) (16 + x.unit) 1))
    let on := (bistEngine x.group, s.physical (bistEngine x.group) x.unit)
    let s :=
      if bistSpares x.group && s.bst.repairOf.any (fun r => r.1 = on.1.toNat && r.2 = (x.unit, on.2)) then
        s.modBst (fun b => { b with badSpares := b.badSpares ++ [on] })
      else s
    if ¬ repair then s.raise 80 (x.group + bitsOf (s.bst.word x.group 1) 31 16 * 2 ^ 16)
    else if s.fuses.variant = .zt5120 ∨ ¬ bistSpares x.group then s.noteUnrepaired x.group x.unit
    else s

/-! ### Repair (R399, R400) -/

/-- Groups of the run that cover a kind of island. -/
def State.kindGroups (s : State) (engine : Bool) : List Nat :=
  (maskGroups s.bst.mask).filter (fun g => bistSpares g && (bistEngine g = engine))

/-- Groups of the run in which logical unit `u` of a kind has failed. -/
def State.failedGroups (s : State) (engine : Bool) (u : Nat) : List Nat :=
  (s.kindGroups engine).filter (fun g => (s.bst.word g 1).testBit (16 + u))

/-- The spare last tried for a logical unit. -/
def State.spareOf (s : State) (engine : Bool) (u : Nat) : Option Nat :=
  ((s.bst.repairOf.filter (fun r => r.1 = engine.toNat && r.2.1 = u)).reverse.head?).map (fun r => r.2.2)

/-- The list's units on a spare. -/
def State.spareUnits (s : State) (engine : Bool) (p : Nat) : List BistUnit :=
  s.bst.units.filter (fun x => x.spare && x.unit = p && (bistEngine x.group = engine))

/-- The groups of a unit whose spares are exhausted stay failed. -/
def State.spentUnit (s : State) (engine : Bool) (u : Nat) : State :=
  (s.failedGroups engine u).foldl (fun t g => t.noteUnrepaired g u) s

/-- The next spare is tried for a unit, or its groups stay failed. -/
def State.trySpare (s : State) (engine : Bool) (u : Nat) : State :=
  match (s.spares engine).filter (fun p => ¬ s.bst.repairOf.any (fun r => r.1 = engine.toNat && r.2.2 = p)) with
  | [] => s.spentUnit engine u
  | p :: _ => s.modBst (fun b =>
      { b with
        repairOf := b.repairOf ++ [(engine.toNat, u, p)]
        units := b.units ++ (s.kindGroups engine).map (fun g => ⟨g, p, true, 0⟩) })

/-- The group's record of a repair, and BST_REPAIRED. -/
def State.noteRepair (s : State) (engine : Bool) (u old p g : Nat) : State :=
  let s := s.modBst (fun b =>
    b.setWord g 10 (2 ^ 31 + u * 2 ^ 24 + old * 2 ^ 16 + p * 2 ^ 8))
  s.raise 82 (g + u * 2 ^ 8 + p * 2 ^ 12 + engine.toNat * 2 ^ 16)

/-- The spare has passed: a soft repair, the island taken out counting as failed. -/
def State.softRepair (s : State) (engine : Bool) (u p : Nat) : State :=
  let old := s.physical engine u
  let s := s.modBst (fun b => { b with soft := b.soft ++ [⟨engine, u, p⟩], badSpares := b.badSpares ++ [(engine, old)] })
  (s.failedGroups engine u).foldl (fun t g => t.noteRepair engine u old p g) (s.bump F.BST_REPAIRS)

/-- A failed unit's repair goes one step on, where it can. -/
def State.stepRepair (s : State) (engine : Bool) (u : Nat) : State :=
  match s.spareOf engine u with
  | none => s.trySpare engine u
  | some p =>
    let us := s.spareUnits engine p
    if us.any (fun x => x.state = 3) ∨ s.bst.badSpares.contains (engine, p) then
      (s.modBst (fun b =>
        { b with units := b.units.filter (fun x => ¬ (x.spare ∧ x.unit = p ∧ bistEngine x.group = engine ∧ x.state = 0)) })).trySpare
        engine u
    else if us.all (fun x => x.state = 2) ∧ s.physical engine u ≠ p then s.softRepair engine u p
    else s

/-- Repairs of every failed unit. -/
def State.stepRepairs (s : State) : State :=
  [false, true].foldl (fun t k => (List.range s.nIslands).foldl (fun t u =>
    if t.failedGroups k u = [] then t
    else if (t.failedGroups k u).any (fun g => (t.bst.word g 11).testBit u) then t.spentUnit k u
    else t.stepRepair k u) t) s

/-- One running unit of the wave ends. -/
def State.endUnit (s : State) (ends : List UnitEnd) (start wave : Nat) (repair : Bool) (i : Nat) : State :=
  match s.bst.units[i]? with
  | none => s
  | some x =>
    if x.state ≠ 1 then s
    else
      let e := ends.find? (fun e => e.group = x.group && e.unit = x.unit && e.spare = x.spare)
      let ok := match e with
        | some e => e.passed
        | none => true
      let s := s.recordEnd x start wave
      let s := if x.spare then s else s.tested x.group x.unit
      let s := s.modBst (fun b => { b with units := setUnits b.units [i] (if ok then 2 else 3) })
      match e with
      | some e => if ok then s else s.unitFails x e repair
      | none => s

/-- BIST_WAVE_DONE: the wave's longest unit ends; a unit that `ends` does not name has passed. -/
def execBistWaveDone (ends : List UnitEnd) (s : State) : Host.Outcome State Fault Refusal :=
  .next (match s.bst.run with
    | none => s
    | some (start, repair, wave) =>
      let running := s.bst.units.filter (fun x => x.state = 1)
      if running = [] then s
      else
        let longest := (running.map (fun x => bistTime x.group)).foldl max 0
        let s := s.runToLt (wave + longest * ltMs)
        let s := (List.range s.bst.units.length).foldl (State.endUnit · ends start wave repair ·) s
        if repair ∧ s.fuses.variant ≠ .zt5120 then s.stepRepairs else s)

/-- The groups that end UNREPAIRED (R400). -/
def State.raiseUnrepaired (s : State) : State :=
  (maskGroups s.bst.mask).foldl (fun t g =>
    if t.bst.word g 11 = 0 then t else t.raise 81 (g + t.bst.word g 11 % 2 ^ 16 * 2 ^ 16)) s

/-- The run ends (R396). -/
def State.bistEnd (s : State) (repair : Bool) : State :=
  let done := !s.bst.units.any (fun x => x.state = 0)
  let s := s.modBst (fun b =>
    let b := { b with units := b.units.map (fun x => if x.state = 0 then { x with state := 5 } else x), run := none }
    (maskGroups b.mask).foldl (fun b g => b.settle s.repairs g) b)
  let s := s.setf F.BST_STATUS.RUNNING 0
  let s := if done then (s.bump F.BST_RUNS).finishParked 0x70 xOK 0 [] else s.finishParked 0x70 xNORES 7 []
  if repair then s.raiseUnrepaired else s

/-- BIST_RUN_DONE. -/
def execBistRunDone (s : State) : Host.Outcome State Fault Refusal :=
  .next (match s.bst.run with
    | none => s
    | some (_, repair, _) =>
      if s.bst.units.any (fun x => x.state = 1) ∨ ¬ s.bistOver then s else s.bistEnd repair)

/-- BIST_RESULT. -/
def execBistResult (s : State) : Host.Outcome State Fault Refusal :=
  .next (s.xci 0x71 (fun c t => t.finishOk (SMap.val t.bst.results (bitsOf (c.word 1) 4 0) [])))

/-! ### Fusing repairs (R402) -/

/-- The effect of a write of 1 to BST_FUSE.BURN: the soft repairs that stand are fused. -/
def State.fuseBurn (s : State) (o : Origin4) (data : Nat) : State :=
  if 2 ≤ s.lifecycle ∨ 8 < s.fuses.recordsUsed + s.bst.soft.length ∨ s.bst.burning.isSome then s.refuse o data cRULE
  else if s.op ≠ .test ∨ s.bst.soft = [] then s
  else (s.modBst (fun b => { b with burning := some (s.lt, b.soft) })).setf F.BST_FUSE.BURN_BUSY 1

/-- FUSE_BURN. -/
def execFuseBurn (s : State) : Host.Outcome State Fault Refusal :=
  let o := atBar0 0x90008
  .next (if s.hostUp then s.gated 9 o 0x8000_0000 (fun t => t.fuseBurn o 0x8000_0000) else s)

/-- One record is fused and read back: the repair is fused, or the record is consumed and the repair stays soft. -/
def State.burnOne (s : State) (r : Repair) (ok : Bool) : State :=
  let n := s.fuses.recordsUsed
  let s := { s with fuses := { s.fuses with recordsUsed := n + 1 } }.setf F.BST_FUSE.RECORDS_USED (n + 1)
  if ok then
    { s with
      fuses := { s.fuses with repairs := s.fuses.repairs ++ [r] }
      bst := { s.bst with soft := s.bst.soft.erase r } }
  else s.raise 83 n

/-- FUSE_BURN_DONE: 10 ms for each repair; a record that `readBacks` does not mention reads back right. -/
def execFuseBurnDone (readBacks : List Bool) (s : State) : Host.Outcome State Fault Refusal :=
  .next (match s.bst.burning with
    | none => s
    | some (t, rs) =>
      let s := s.runToLt (t + 10 * rs.length * ltMs)
      let s := (rs.mapIdx (fun i r => (r, readBacks.getD i true))).foldl (fun t x => t.burnOne x.1 x.2) s
      (s.modBst (fun b => { b with burning := none })).setf F.BST_FUSE.BURN_BUSY 0)

end Sys2Proof.Machine
end

