-- ==== Sys2Proof/Machine/Faults.lean ====
section
/-! DEFINITION. The fault collector's commands: reads and clears of cause bits, the forced S3, the rearming of the
first-fault record and the end of the vector holdoff (R368, R371 to R373). -/

namespace Sys2Proof.Machine

/-- Bits of cause register `i` that are 1, as source numbers. -/
def State.causes (s : State) (i : Nat) : List Nat :=
  ((List.range 32).filter (fun b => s.fbit F.FLT_CAUSE b 0 i)).map (fun b => 32 * i + b)

/-- The sources whose cause bit a read returns as 1 are marked as seen (R368). -/
def State.seeCauses (s : State) (i : Nat) : State :=
  { s with flt := { s.flt with seen := s.flt.seen ++ (s.causes i).filter (fun c => ¬ s.flt.seen.contains c) } }

/-- A read of FLT_CAUSE `i` (R368). -/
def execFltCauseRead (i : Nat) (s : State) : Host.Outcome State Fault Refusal :=
  let v := if i < 3 then s.fld F.FLT_CAUSE 0 i else 0
  .next (if s.hostUp then (if i < 3 then s.seeCauses i else s).modHost (fun h => { h with readData := v }) else s)

/-- A cause bit is cleared by a write of 1 when a read has returned it as 1 since it was set; an event of the same cycle leaves it
set, as a fresh change from 0 to 1 (R368). -/
def State.clearCause (s : State) (src : Nat) : State :=
  if s.flt.seen.contains src then
    let t := { s.setBit F.FLT_CAUSE (src % 32) false 0 (src / 32) with
      flt := { s.flt with seen := s.flt.seen.filter (· ≠ src) } }
    if SMap.val s.flt.last src 0 = s.lt / ctlCycle + 1 then t.setCause src else t
  else s

/-- The bits of a write to FLT_CAUSE `i`. -/
def State.clearCauses (s : State) (i : Nat) (data : Word) : State :=
  ((List.range 32).filter (fun b => data.toNat.testBit b)).foldl (fun t b => t.clearCause (32 * i + b)) s

/-- A write to FLT_CAUSE `i` (R368). -/
def execFaultCauseClear (i : Nat) (data : Word) (s : State) : Host.Outcome State Fault Refusal :=
  .next (if s.hostUp then s.gated 2 (atBar0 (0x20100 + 4 * i)) data.toNat
      (fun t => if i < 8 then t.clearCauses i data else t)
    else s)

/-- The effect of a write to FLT_FORCE (R373). -/
def State.fltForce (s : State) (o : Origin4) (data : Nat) : State :=
  if data = 0x5333 then s.raise 0 0 else s.refuse o data cVALUE

/-- A write to FLT_FORCE (R373). -/
def execFltForce (data : Word) (s : State) : Host.Outcome State Fault Refusal :=
  .next (if s.hostUp then s.gated 2 (atBar0 0x20008) data.toNat (fun t => t.fltForce (atBar0 0x20008) data.toNat) else s)

/-- The first-fault record is cleared and rearmed (R371). -/
def State.firstRearm (s : State) : State := { s with flt := { s.flt with first := none } }

/-- A write of 1 to FLT_CTL.FIRST_REARM (R371). -/
def execFirstRearm (s : State) : Host.Outcome State Fault Refusal :=
  .next (if s.hostUp then s.gated 2 (atBar0 0x20000) 1 State.firstRearm else s)

/-- The holdoff of a sent vector ends; a cause set during it sends one more vector, which opens another (R372). -/
def execIrqHoldoffEnd (s : State) : Host.Outcome State Fault Refusal :=
  match s.flt.holdEnd with
  | none => .next s
  | some e =>
    let t := s.runToLt e
    let d := t.flt.during
    let t := { t with flt := { t.flt with holdEnd := none, during := false } }
    .next (if d then t.faultIrq else t)

end Sys2Proof.Machine
end

