-- ==== Sys2Proof/Machine/Life.lean ====
section
/-! DEFINITION. The key store, scan access and the life cycle (R403 to R408). -/

namespace Sys2Proof.Machine

/-! ### Keys (R403, R314) -/

/-- The bytes of request words `a` to `a + n - 1`. -/
def Cmd.bytes (c : Cmd) (a n : Nat) : List Byte := (List.range n).flatMap (fun i => leBytes 4 (c.word (a + i)))

def State.keyLoad (s : State) (c : Cmd) : State :=
  let k := bitsOf (c.word 1) 3 0
  if s.lifecycle = 3 then s.finish xLOCKED 7 []
  else if c.word 10 ≠ crc32 (c.bytes 2 8) then s.finish xBADARG 7 []
  else if (SMap.look s.bst.keys k).isSome then s.finish xBADARG 5 []
  else
    let s := s.modBst (fun b => { b with keys := SMap.put b.keys k (leNum (c.bytes 2 8)) })
    (s.setBit F.BST_KEY_STATUS.LOADED k true).finishOk []

/-- KEY_LOAD. -/
def execKeyLoad (s : State) : Host.Outcome State Fault Refusal := .next (s.xci 0x90 (fun c t => t.keyLoad c))

/-- KEY_CLEAR. -/
def execKeyClear (s : State) : Host.Outcome State Fault Refusal :=
  .next (s.xci 0x91 (fun c t => (t.clearKeys (bitsOf (c.word 1) 15 0) 1).finishOk []))

/-! ### The TAP (R404) -/

/-- The private instruction may connect the chains: at once in BLANK and RETURNED, else after an unlock; not before the fuses, which
hold the life-cycle state, have been read. -/
def State.scanMay (s : State) : Bool := !s.porLow && (s.lifecycle = 0 || s.lifecycle = 3 || s.bst.unlocked)

/-- The TAP selects an instruction; the chains stay connected only under the private one. -/
def State.selectTap (s : State) (i : TapInstr) : State :=
  let s := s.modBst (fun b =>
    { b with tap := i, scanPending := i = .privateScan, scanOpen := b.scanOpen && i = .privateScan })
  s.setf F.BST_STATUS.SCAN_OPEN s.bst.scanOpen.toNat

/-- TAP_INSTRUCTION. -/
def execTapInstruction (i : TapInstr) (s : State) : Host.Outcome State Fault Refusal :=
  .next (match i with
    | .extest | .clamp | .highz =>
      if s.board.rstLow then s.selectTap i else (s.selectTap .bypass).bump F.BST_SCAN_REFUSED
    | .privateScan => if s.scanMay then s.selectTap i else s.selectTap .bypass
    | .bypass | .idcode | .sample => s.selectTap i)

/-- What the IDCODE register holds. -/
def State.idcode (s : State) : Nat := 1 * 2 ^ 28 + s.fuses.variant.part * 2 ^ 12 + 0x4B9 * 2 + 1

/-- SCAN_UNLOCK: a value shifted through UNLOCK; after 4 mismatches none is looked at. -/
def execScanUnlock (value : Nat) (s : State) : Host.Outcome State Fault Refusal :=
  .next (
    if 4 ≤ s.bst.unlockFails then s
    else if s.bst.keys.any (fun x => x.2 = value) then s.modBst (fun b => { b with unlocked := true })
    else (s.modBst (fun b => { b with unlockFails := b.unlockFails + 1 })).bump F.BST_SCAN_REFUSED)

/-- SCAN_OPEN: BST_SCAN_OPEN and SAFE, the key store cleared, the memories wiped. -/
def execScanOpen (s : State) : Host.Outcome State Fault Refusal :=
  .next (
    if s.bst.scanPending ∧ s.phase = .running ∧ s.scanMay then
      let keyed : Bool := s.lifecycle = 1 || s.lifecycle = 2
      let s := ((s.raise 88 keyed.toNat).clearKeys 0xFFFF 3).wipeMemories
      s.modBst (fun b => { b with scanPending := false, scanWiped := true })
    else s)

/-- SCAN_CHAINS_CONNECT: the wipe of about 40 ms has ended. -/
def execScanChainsConnect (s : State) : Host.Outcome State Fault Refusal :=
  .next (
    if s.bst.scanWiped ∧ s.bst.tap = .privateScan then
      let s := (s.run (40 * ltMs)).modBst (fun b => { b with scanWiped := false, scanOpen := true })
      s.setf F.BST_STATUS.SCAN_OPEN 1
    else s.modBst (fun b => { b with scanWiped := false }))

/-! ### LIFECYCLE_ADVANCE (R406 to R408) -/

/-- The authorisation value of a request. -/
def Cmd.auth (c : Cmd) : Nat := leNum (c.bytes 3 4)

/-- The authorisation value is right for the target. -/
def State.authOk (s : State) (target v : Nat) : Bool :=
  if target = 1 then v ≠ 0 && v ≠ 2 ^ 128 - 1 else v = s.owner

/-- A present CXL port is neither MAPPED nor NOT_PRESENT. -/
def State.cxlUnsettled (s : State) : Bool :=
  (List.range s.nCxl).any (fun c => s.cxlState c ≠ pMAPPED && s.cxlState c ≠ pNOTPRESENT)

/-- A failed authorisation. -/
def State.authFail (s : State) (target : Nat) : State :=
  let n := s.bst.authFails + 1
  let s := (s.modBst (fun b => { b with authFails := n })).setf F.BST_STATUS.AUTH_FAILS (min 9 n)
  let s := s.setf F.BST_STATUS.AUTH_LOCKOUT (decide (8 < n)).toNat
  s.raise 85 (target + n % 16 * 2 ^ 8)

/-- The transition begins: channels pause, keys and memories are cleared (R407 steps 1 and 2). -/
def State.startAdvance (s : State) (target v : Nat) : State :=
  let s := ((s.pauseAll.clearKeys 0xFFFF 4).wipeMemories).setf F.BST_STATUS.WIPING 1
  let ports := ((List.range s.nCxl).filter s.mapped).map (fun c => (c, (s.cxlPort c).mapped))
  (s.modBst (fun b => { b with advance := some ⟨s.lt, target, v, ports, []⟩ })).park

def State.lifecycleAdvance (s : State) (c : Cmd) : State :=
  let target := bitsOf (c.word 1) 1 0
  if c.word 2 ≠ 0x4C43 then s.finish xBADARG 6 []
  else if target ≠ s.lifecycle + 1 then s.finish xBADARG 7 []
  else if s.pairOn ∨ s.cxlUnsettled then s.finish xBADARG 7 []
  else if 8 < s.bst.authFails then s.finish xAUTH 7 []
  else if ¬ s.authOk target c.auth then (s.authFail target).finish xAUTH 7 []
  else s.startAdvance target c.auth

/-- LIFECYCLE_ADVANCE. -/
def execLifecycleAdvance (s : State) : Host.Outcome State Fault Refusal :=
  .next (s.xci 0x80 (fun c t => t.lifecycleAdvance c))

/-- The time of the wipes: 40 ms, and the largest mapping that did not fail at 112 bytes a ns. -/
def Transition.wipeLt (x : Transition) : Nat :=
  40 * ltMs + (((x.ports.filter (fun y => !x.failed.contains y.1)).map (fun y => wipeTime y.2)).foldl max 0)

/-- The new state is fused (R407 step 4). -/
def State.fuseState (s : State) (target v : Nat) : State :=
  let owner := if target = 1 then v else s.owner
  let s := { s with lifecycle := target, owner := owner, fuses := { s.fuses with lifecycle := target, owner := owner } }
  s.raise 86 target

/-- LIFECYCLE_WIPE_DONE: every wipe has ended, those of the ports `failed` in failure, beside those whose link was lost (R408); with none
failed the fuses take another 10 ms. -/
def execLifecycleWipeDone (failed : List Nat) (s : State) : Host.Outcome State Fault Refusal :=
  .next (match s.bst.advance with
    | none => s
    | some x =>
      let lost := (x.ports.map (fun y => y.1)).filter (fun c => failed.contains c && !x.failed.contains c)
      let bad := x.failed ++ lost
      let s := s.runToLt (x.start + x.wipeLt + if bad = [] then 10 * ltMs else 0)
      let s := x.ports.foldl (fun t y => if x.failed.contains y.1 then t else t.wipeCxl (lost.contains y.1) y.1) s
      let s := (s.modBst (fun b => { b with advance := none })).setf F.BST_STATUS.WIPING 0
      if bad = [] then ((s.bump F.BST_WIPES).fuseState x.target x.value).finishParked 0x80 xOK 0 []
      else (bad.foldl (fun t c => t.raise 87 c) s).finishParked 0x80 xNORES 7 [])

end Sys2Proof.Machine
end

