-- ==== Sys2Proof/Machine/MixBuild.lean ====
section
/-! DEFINITION. The arithmetic of the mix fabric (R155, R162 to R169, R176) and the frames that output groups build and send
(R159, R177, R189, R190). -/

namespace Sys2Proof.Machine

/-! ### Rounding (R163) -/

/-- `acc / 2^f` rounded half to even. -/
def roundEven (acc : Int) (f : Nat) : Int :=
  let q := acc.fdiv (2 ^ f : Nat)
  let r := acc.fmod (2 ^ f : Nat)
  let h : Int := (2 ^ (f - 1) : Nat)
  if r < h ∨ (r = h ∧ q % 2 = 0) then q else q + 1

/-- F and the range after saturation of an output format. -/
def roundRow (format : Nat) : Nat × Int × Int :=
  match format with
  | 0 => (28, -32768, 32767)
  | 2 => (12, -2147483648, 2147483647)
  | 4 => (33, 4, 1019)
  | 5 => (31, 16, 4079)
  | _ => (20, -8388608, 8388607)

/-- An accumulator as an output sample or component. -/
def outputOf (format : Nat) (acc : Int) : Int :=
  let (f, lo, hi) := roundRow format
  clampInt lo hi (roundEven acc f)

/-! ### Audio (R162, R164, R165) -/

/-- The gain of a product at sample `j` of `n`: the ramp of R165 where old and new differ. -/
def Mult.gainAt (m : Mult) (j n : Nat) : Int := m.old + ((m.new - m.old) * (j + 1)).fdiv n

/-- The frozen sample of a context, zero when it was absent (R158, R174). -/
def Batch.input (b : Batch) (c : Nat) (n : Int) : Int :=
  ((b.inputs.find? (fun x => x.1 = c && x.2.1 = n)).map (fun x => x.2.2)).getD 0

/-- The product of a term for sample `j` of `n` whose media index is `i`. -/
def Batch.product (b : Batch) (i : Int) (j n : Nat) (m : Mult) : Int := b.input m.ctx i * m.gainAt j n

/-- The accumulator of an audio sum for sample `j` of its window: a minus-one sum's is its parent's, less the product of the
named term, plus its own products. -/
def State.accum (s : State) (b : Batch) (x : Member) (j : Nat) : Int :=
  let w := s.memStart x
  let (n, first) := s.readWindow x.bank x.sum w
  let i := first + (j : Int)
  let total := ((s.allMults x.bank x.sum w).map (b.product i j n)).sum
  match s.minusMult x.bank x.sum w with
  | some m => total - b.product i j n m
  | none => total

/-- The octets of one AES3 subframe (log 27): block start at media indices divisible by 192, frame start on even channels,
even parity. -/
def aes3Octets (v : Int) (index channel : Nat) : List Byte :=
  let a := ofSigned 24 v
  let ones := ((List.range 24).filter (fun i => a.testBit i)).length
  let label := (if index % 192 = 0 then 2 ^ 5 else 0) + (if channel % 2 = 0 then 2 ^ 4 else 0) + ones % 2 * 2 ^ 3
  BitVec.ofNat 8 label :: beOctets 3 a

/-- The octets of an output sample. -/
def sampleOut (format : Nat) (v : Int) (index channel : Nat) : List Byte :=
  if format = 3 then aes3Octets v index channel
  else beOctets (sampleOctets format) (ofSigned (8 * sampleOctets format) v)

/-! ### Headers (R176, R177, R189) -/

/-- A frame of a group: template and payload, with the lengths, checksums, marker, sequence number and timestamp filled
in. -/
def fillFrame (g : List Nat) (marker : Bool) (seq ts : Nat) (payload : List Byte) : List Byte :=
  let t := gpTemplate g
  let v6 : Bool := gpHeaderLen g = 74
  let rtp := if v6 then 62 else 42
  let n := payload.length + 12
  let t := putAt t (rtp + 1) (beOctets 1 (marker.toNat * 128 + oct t (rtp + 1) % 128))
  let t := putAt t (rtp + 2) (beOctets 2 seq ++ beOctets 4 ts)
  let t := putAt t (rtp - 4) (beOctets 2 (n + 8) ++ [0, 0])
  if v6 then
    let l := putAt t 18 (beOctets 2 (n + 8)) ++ payload
    let c := 0xFFFF - udp6Sum l 14
    putAt l (rtp - 2) (beOctets 2 (if c = 0 then 0xFFFF else c))
  else fixIpv4 (putAt t 16 (beOctets 2 (n + 28)) ++ payload) 14

/-! ### Audio groups (R177) -/

/-- The frame of an audio group, whose members by channel are in `ms`, all of one window. -/
def State.audioFrame (s : State) (b : Batch) (g : List Nat) (ms : List Member) : List Byte :=
  match ms with
  | [] => []
  | x :: _ =>
    let w := s.memStart x
    let m := mediaAt w (gpRate g)
    let n := samplesIn (smPeriod (s.memSum x)) (gpRate g)
    let payload := (List.range n).flatMap (fun j => (List.range (gpChannels g)).flatMap (fun ch =>
      match ms.find? (fun y => smChannel (s.memSum y) = ch) with
      | some y => sampleOut (gpFormat g) (outputOf (gpFormat g) (s.accum b y j)) (m + j) ch
      | none => []))
    fillFrame g false ((x.k + gpSeqOffset g) % 65536) ((m + gpTsOffset g) % 2 ^ 32) payload

/-- The groups of a batch: index, bank, window. -/
def State.batchGroups (s : State) (b : Batch) : List (Nat × Nat × Nat) :=
  (b.sums.map (fun x => (smGroup (s.memSum x), x.bank, x.k))).eraseDups

/-- The members of a group of a batch. -/
def State.groupMembers (s : State) (b : Batch) (q : Nat × Nat × Nat) : List Member :=
  b.sums.filter (fun x => (smGroup (s.memSum x), x.bank, x.k) = q)

/-- The frames of the audio groups of a batch of which every sum produces output. -/
def State.audioFrames (s : State) (b : Batch) : List Built :=
  (s.batchGroups b).filterMap (fun q =>
    let g := s.group q.2.1 q.1
    let ms := s.groupMembers b q
    if gpVideo g ∨ ms.any (fun x => b.silent.contains x.sum) then none
    else some ⟨q.1, q.2.2, q.2.1, s.audioFrame b g ms⟩)

/-! ### Video (R155, R163, R166 to R169, R190) -/

/-- Planes of a picture. -/
def pY : Nat := 0
def pCb : Nat := 1
def pCr : Nat := 2

/-- Bits of a component. -/
def compBits (full : Bool) : Nat := if full then 12 else 10

/-- Where component `x` of a plane stands in its row: pgroup and place within it (log 28: Cb Y0 Cr Y1, or Cb Y Cr twice). -/
def compPlace (full : Bool) (plane x : Nat) : Nat × Nat :=
  if full then (x / 2, x % 2 * 3 + (if plane = pY then 1 else if plane = pCb then 0 else 2))
  else if plane = pY then (x / 2, x % 2 * 2 + 1)
  else (x, if plane = pCb then 0 else 2)

/-- Component `k` of a pgroup's octets. -/
def compAt (full : Bool) (o : List Byte) (k : Nat) : Nat :=
  let n := compBits full
  bitsOf (beNum o) (8 * pgroupOctets full - 1 - n * k) (8 * pgroupOctets full - n * (k + 1))

/-- Row `r` of slot `k` of video input `v` in the buffer of tile `t`, with the crop that the tile's entry `e` gives. -/
def bufRow (l : List RowBuf) (t : Nat) (e : List Nat) (v k r : Nat) : List Byte :=
  ((l.find? (fun x => x.tile = t && x.input = v && x.slot = k && x.row = r && x.left = tlX e && x.width = tlW e)).map
    (fun x => x.octets)).getD []

/-- Component `x` of a plane of a source row, whose buffered octets `o` begin at pixel `x0`. -/
def sourceComp (full : Bool) (o : List Byte) (x0 plane x : Nat) : Nat :=
  let (p, j) := compPlace full plane x
  compAt full (slice o ((p - x0 / 2) * pgroupOctets full) (pgroupOctets full)) j

/-- The black code of a plane. -/
def blackCode (full : Bool) (plane : Nat) : Nat :=
  if plane = pY then (if full then 256 else 64) else (if full then 2048 else 512)

/-- What a source of a tile adds to component (x, y) of a plane, counted within the tile. -/
def State.sourceSum (s : State) (buf : List RowBuf) (c : TileChoice) (full : Bool) (plane x y : Nat)
    (q : Int × Nat × Option Nat) : Int :=
  let t := c.entry
  let src := vi444 (s.videoEntry q.2.1)
  let half := !full && plane ≠ pY
  let x0 := (if half then tlX t / 2 else tlX t) + x * tlDh t
  let y0 := tlY t + y * tlDv t
  let taps : Nat :=
    match q.2.2 with
    | some k => ((List.range (tlDv t)).flatMap (fun j => (List.range (tlDh t)).map (fun i =>
        sourceComp src (bufRow buf c.tile t q.2.1 k (y0 + j)) (tlX t) plane (x0 + i) * 2 ^ (23 - compBits src)))).sum
    | none => tlDh t * tlDv t * (blackCode full plane * 2 ^ (23 - compBits full))
  q.1 * taps

/-- What a tile adds to component (x, r) of a plane of the output; a tile without any picture adds black (R161, R168). -/
def State.tileSum (s : State) (buf : List RowBuf) (g : List Nat) (black : Bool) (c : TileChoice) (plane x r : Nat) : Int :=
  let t := c.entry
  let full := gpFull g
  let half := !full && plane ≠ pY
  let xo := if half then tlXout t / 2 else tlXout t
  let wo := if half then tlWout t / 2 else tlWout t
  if r < tlYout t ∨ tlYout t + tlHout t ≤ r ∨ x < xo ∨ xo + wo ≤ x then 0
  else if black || c.sources.all (fun q => q.2.2.isNone) then
    (blackCode full plane * 2 ^ (roundRow (gpFormat g)).1 : Nat)
  else (c.sources.map (s.sourceSum buf c full plane (x - xo) (r - tlYout t))).sum

/-- What a tile without a choice adds: black over its rectangle (R168). -/
def noChoice (sum tile n : Nat) (e : List Nat) : TileChoice := ⟨sum, tile, n, e, []⟩

/-- An output component of a video sum's row. -/
def State.outComp (s : State) (buf : List RowBuf) (g : List Nat) (cs : List (TileChoice × Bool)) (plane x r : Nat) : Nat :=
  (outputOf (gpFormat g) ((cs.map (fun c => s.tileSum buf g c.2 c.1 plane x r)).sum)).toNat

/-- The octets of pgroup `p` of row `r`. -/
def State.pgroupOut (s : State) (buf : List RowBuf) (g : List Nat) (cs : List (TileChoice × Bool)) (r p : Nat) : List Byte :=
  let full := gpFull g
  let c := fun (plane x : Nat) => s.outComp buf g cs plane x r
  let l :=
    if full then [c pCb (2 * p), c pY (2 * p), c pCr (2 * p), c pCb (2 * p + 1), c pY (2 * p + 1), c pCr (2 * p + 1)]
    else [c pCb p, c pY (2 * p), c pCr p, c pY (2 * p + 1)]
  beOctets (pgroupOctets full) (l.foldl (fun a v => a * 2 ^ compBits full + v) 0)

/-- Packet `i` of row `r` of picture `n` (R167, R190). -/
def State.rowPacket (s : State) (buf : List RowBuf) (g : List Nat) (cs : List (TileChoice × Bool)) (n r i : Nat) :
    List Byte :=
  let k := gpPerRow g
  let t := picPeriod (gpPicRate g)
  let first := i * gpPgroups g
  let count := min (gpPgroups g) (gpWidth g / 2 - first)
  let num := (n * gpHeight g * k + r * k + i + gpSeqOffset g) % 2 ^ 32
  let ts := n * t.1 * 90000 / (t.2 * 1000000000) % 2 ^ 32
  let payload := beOctets 2 (num / 65536) ++ beOctets 2 (count * pgroupOctets (gpFull g)) ++ beOctets 2 r ++
    beOctets 2 (2 * first) ++ (List.range count).flatMap (fun j => s.pgroupOut buf g cs r (first + j))
  fillFrame g (r + 1 = gpHeight g && i + 1 = k) (num % 65536) ts payload

/-- The frames of a video sum's window, in order, from the row buffers and the black tiles of its home batch. -/
def State.videoFrames (s : State) (home : Batch) (x : Member) : List Built :=
  let e := s.memSum x
  let g := s.group x.bank (smGroup e)
  let (a, b) := gpRowRange g (s.memStart x) (smPeriod e)
  (List.range (b - a)).flatMap (fun j =>
    let n := (a + j) / gpHeight g
    let r := (a + j) % gpHeight g
    let cs := (sumTiles e).map (fun t =>
      ((s.choiceOf x.sum t n).getD (noChoice x.sum t n (s.tile x.bank t)), home.black.contains t))
    (List.range (gpPerRow g)).map (fun i => ⟨smGroup e, x.k, x.bank, s.rowPacket home.rows g cs n r i⟩))

/-- Each tile of a video sum has been computed for its window: its batch at `d` is done. -/
def State.tilesDone (s : State) (x : Member) (d : Nat) : Bool :=
  (sumTiles (s.memSum x)).all (fun t => s.mix.batches.any (fun b =>
    b.d = d && b.stage = .done && b.tiles.any (fun y => y.idx = t && y.sum = x.sum && y.k = x.k)))

/-- A video sum of its home batch `b`, whose tiles are all computed, builds its frames, unless nothing may leave: it produces no
output, or it counts nothing (R159). -/
def State.buildVideo (s : State) (b : Batch) (x : Member) : State :=
  let e := s.memSum x
  if smKind e ≠ kVIDEO ∨ ¬ s.tilesDone x b.d ∨ b.built.any (fun y => y.group = smGroup e && y.k = x.k) ∨
      b.silent.contains x.sum ∨ b.quiet.contains x.sum then s
  else s.setBatch { b with built := b.built ++ s.videoFrames b x }

/-- The video sums whose last tile batch is done build their frames. -/
def State.buildVideos (s : State) (d : Nat) : State :=
  (s.mix.batches.filter (fun b => b.d = d)).foldl (fun t b => b.sums.foldl (fun u x =>
    match u.batch b.e d with
    | some y => u.buildVideo y x
    | none => u) t) s

/-! ### ALLOTMENT_DONE and MIX_DEADLINE_ENQUEUE (R172, R159, R177) -/

/-- The products of a batch are formed, and its frames built. -/
def State.allotDone (s : State) (b : Batch) : State :=
  let s := s.runToNs b.allotEnd
  (s.setBatch { b with stage := .done, built := b.built ++ s.audioFrames b }).buildVideos b.d

def execAllotmentDone (e d : Nat) (s : State) : Host.Outcome State Fault Refusal :=
  .next (match s.batch e d with
    | none => s
    | some b => if b.stage = .running then s.allotDone b else s)

/-- What a mixed frame of the window of `x` has to precede (R120). -/
def State.mixDue (s : State) (x : Member) : MixDue :=
  let e := s.memSum x
  let v : MixDue := ⟨s.deadlinePort x.bank e, smPeriod e, smPhase e, x.k, 0⟩
  { v with next := s.dueAfter v s.ns }

/-- A mixed frame, untagged (R46), goes out by one egress handle: an invalid handle, or one read with a parity error, sends
none. -/
def State.sendMixed (s : State) (q : Built) (due : MixDue) (seq : Option Nat) (h : Nat) : State :=
  if s.isBad rESH h then s.sidParity rESH h
  else if ¬ s.eshValid h then s.bump F.SID_FANOUT_DROP
  else
    let p := s.eshPort h
    let (f, s) := s.newFrame p q.octets .mix (p / 4) (cellsOf (frameLen q.octets)) ⟨none, none⟩ s.ns
    let (c, s) := s.eshCopy h f seq false (.mixed q.group (islandOf xGROUP q.group) due)
    (s.offerTo c).2

/-- A built frame is numbered, when its group says so, and enqueued once for each egress handle (R177, R82). -/
def State.enqueueMixed (s : State) (due : MixDue) (q : Built) : State :=
  let g := s.group q.bank q.group
  if gpGenEn g ∧ s.isBad rGEN (gpGen g) then s.sidParity rGEN (gpGen g)
  else
    let (seq, s) := if gpGenEn g then s.generate (gpGen g) else (none, s)
    let s := s.countNoSeq seq ((gpEshs g).filter (fun h => !s.isBad rESH h))
    let s := (gpEshs g).foldl (fun t h => t.sendMixed q due seq h) s
    s.bump F.ENG_FRAMES_OUT (islandOf xGROUP q.group)

/-- A group's window brings no frame although nothing went wrong: no row of its picture is due in it (R167). -/
def State.noRows (s : State) (x : Member) : Bool :=
  let e := s.memSum x
  let (a, b) := gpRowRange (s.group x.bank (smGroup e)) (s.memStart x) (smPeriod e)
  smKind e = kVIDEO && b ≤ a

/-- The frames of a batch at its deadline instant: none of a group whose sums count nothing (R159); a group of which some sum
produced no output is withheld (R177). -/
def State.enqueueBatch (s : State) (b : Batch) : State :=
  let s := (s.runToNs b.d).dropBatch b.e b.d
  (s.batchGroups b).foldl (fun t q =>
    let fs := b.built.filter (fun y => y.group = q.1 && y.k = q.2.2 && y.bank = q.2.1)
    let m := islandOf xGROUP q.1
    let g := t.group q.2.1 q.1
    match t.groupMembers b q with
    | [] => t
    | x :: l =>
      let ms := x :: l
      if ms.any (fun y => b.quiet.contains y.sum) then t
      else if ms.any (fun y => b.silent.contains y.sum) || (fs = [] && !t.noRows x) then t.bump F.ENG_GROUP_WITHHELD m
      else if t.op ≠ .operational then t.bump F.ENG_UNSENT_DROP m 0 (fs.length * gpEshCount g)
      else fs.foldl (State.enqueueMixed · (t.mixDue x)) t) s

/-- A batch that is still computed, or waits for its engine, at its deadline instant is late: its groups are withheld, and what it
forms later goes nowhere (R175, R177). -/
def State.enqueueLate (s : State) (b : Batch) : State :=
  let s := (s.runToNs b.d).lateSums b.d b.serves
  let s := (s.batchGroups b).foldl (fun t q =>
    if (t.groupMembers b q).any (fun y => b.quiet.contains y.sum) then t
    else t.bump F.ENG_GROUP_WITHHELD (islandOf xGROUP q.1)) s
  s.modMix (fun m => { m with batches := m.batches.map (fun x =>
    if x.e = b.e ∧ x.d = b.d then { x with quiet := (x.quiet ++ b.serves).eraseDups } else x) })

/-- MIX_DEADLINE_ENQUEUE. -/
def execMixDeadlineEnqueue (e d : Nat) (s : State) : Host.Outcome State Fault Refusal :=
  .next (match s.batch e d with
    | none => s
    | some b =>
      if b.stage = .done then s.enqueueBatch b
      else if b.stage = .cut ∨ (b.stage = .running ∧ d < b.allotEnd + 600) then s.enqueueLate b
      else s)

end Sys2Proof.Machine
end

