-- ==== Sys2Proof/Machine/Monitors.lean ====
section
/-! DEFINITION. The supply, thermal and power monitors, the AVS loop and the wake logic of the PWR block (R384, R386 to
R390). The readings are operands: they come from outside the digital device. -/

namespace Sys2Proof.Machine

/-- The rated voltage of a rail in units of 100 µV: the AVS set voltage for VDD_CORE, the operating conditions' nominal
for the others (R386). -/
def State.nominal (s : State) (r : Nat) : Nat :=
  match r with
  | 0 => 10 * s.fld F.PWR_AVS_STATUS.SET_MV
  | 1 => 8000
  | 2 => 9000
  | 3 => 12000
  | _ => 18000

/-- A voltage differs from a nominal by more than `pm` per mille. -/
def outside (v nom pm : Nat) : Bool := pm * nom < (if v ≤ nom then nom - v else v - nom) * 1000

/-- The run of a rail's out-of-window samples: `r` after one, `r + 8` from the second on, when the source is raised. -/
def runStep (run : List Nat) (r : Nat) (out : Bool) : Option Nat :=
  if ¬ out then none else if run.contains r ∨ run.contains (r + 8) then some (r + 8) else some r

/-- One rail of a supply sample (R386): its reading, the runs, and the sources raised at the second sample in a row. -/
def State.supplyRail (s : State) (r v i : Nat) : State :=
  let t := (s.setf F.PWR_RAIL_VI.V v 0 r).setf F.PWR_RAIL_VI.I i 0 r
  let v := v % 2 ^ 16
  let step := fun (run : List Nat) (pm : Nat) => runStep run r (outside v (t.nominal r) pm)
  let w := step s.pwr.warnRun (t.fld F.PWR_RAIL_LIM.WARN_PM 0 r)
  let f := step s.pwr.failRun (t.fld F.PWR_RAIL_LIM.FAIL_PM 0 r)
  let rest := fun (run : List Nat) => run.filter (fun x => x % 8 ≠ r)
  let t := t.modPwr (fun p =>
    { p with warnRun := rest p.warnRun ++ w.toList, failRun := rest p.failRun ++ f.toList })
  let info := r + v * 2 ^ 16
  let t := if w = some (r + 8) ∧ s.pwr.warnRun.contains r then t.raise 8 info else t
  if f = some (r + 8) ∧ s.pwr.failRun.contains r then t.raise 9 info else t

/-- The rails of a sample, from rail `r` upward. -/
def State.supplyRails (s : State) (r : Nat) : List (Nat × Nat) → State
  | [] => s
  | (v, i) :: l => if r < 6 then (s.supplyRail r v i).supplyRails (r + 1) l else s

/-- The voltage and current sample of every 10 µs (R386), while PORn is high (R427). -/
def execSupplySample (readings : List (Nat × Nat)) (s : State) : Host.Outcome State Fault Refusal :=
  let t := s.runPeriod (10 * ltUs)
  .next (if s.porLow then t else t.supplyRails 0 readings)

/-- Sensor `i` is that of a present island (R387). -/
def State.sensorPresent (s : State) (i : Nat) : Bool :=
  i < s.nIslands || (16 ≤ i && i < 16 + s.nIslands) || (32 ≤ i && i < 38)

/-- The reading of a sensor in °C. -/
def State.sensor (s : State) (i : Nat) : Int := s.fldS F.PWR_THERM_SENS 0 i

/-- The present sensors. -/
def State.sensors (s : State) : List Nat := (List.range 38).filter s.sensorPresent

/-- A thermal source (R387): raised for the lowest-numbered sensor at or above the threshold when it is armed, armed
again once every sensor has fallen 5 °C below. Answers the raised sensor and the new disarmed flag. -/
def State.thermSource (s : State) (thr : Nat) (raised : Bool) : Option Nat × Bool :=
  match s.sensors.find? (fun i => (thr : Int) ≤ s.sensor i) with
  | some i => (if raised then none else some i, true)
  | none => (none, raised && s.sensors.any (fun i => (thr : Int) - 5 < s.sensor i))

/-- A sample's readings are stored, with the hottest sensor in PWR_THERM_MAX. -/
def State.storeTemps (s : State) (readings : List (Nat × Int)) : State :=
  let t := readings.foldl (fun t r =>
    if t.sensorPresent r.1 then t.setf F.PWR_THERM_SENS (ofSigned 8 r.2) 0 r.1 else t) s
  let hot := t.sensors.foldl (fun h i => if t.sensor h < t.sensor i then i else h) 0
  (t.setf F.PWR_THERM_MAX.SENSOR hot).setf F.PWR_THERM_MAX.TEMP (ofSigned 8 (t.sensor hot))

/-- The info word of a thermal source (R366). -/
def State.thermInfo (s : State) (i : Nat) : Nat := i + s.fld F.PWR_THERM_SENS 0 i * 2 ^ 8

/-- The thermal sample of every 100 µs (R387). -/
def execThermalSample (readings : List (Nat × Int)) (s : State) : Host.Outcome State Fault Refusal :=
  let t := (s.runPeriod (100 * ltUs)).storeTemps readings
  let w := t.thermSource (t.fld F.PWR_THERM_CTL.WARN_C) t.pwr.thermWarn
  let c := t.thermSource (t.fld F.PWR_THERM_CTL.CRIT_C) t.pwr.thermCrit
  let t := t.modPwr (fun p => { p with thermWarn := w.2, thermCrit := c.2 })
  let t := match w.1 with
    | some i => t.raise 10 (t.thermInfo i)
    | none => t
  .next (match c.1 with
    | some i => t.raise 11 (t.thermInfo i)
    | none => t)

/-- The power of rails in W, of their voltages in 100 µV and currents in 100 mA (R388). -/
def railWatts (rails : List (Nat × Nat)) : Nat := (rails.map (fun r => r.1 * r.2)).foldl (· + ·) 0 / 100000

/-- The power monitor's sum of every 1 ms (R388): of the rails listed, and of the others what `watts` tells. -/
def execPowerSample (watts : Nat) (s : State) (rails : List (Nat × Nat) := []) : Host.Outcome State Fault Refusal :=
  let w := watts + railWatts rails
  let t := (s.runPeriod ltMs).modPwr (fun p => { p with watts := w })
  .next (if t.fld F.PWR_BUDGET < w then t.raise 14 (w % 2 ^ 10) else t)

/-- The voltage set for a target (R24, R390): held within the bounds, PINNED and AVS_CONFLICT outside them. -/
def State.avsSet (s : State) (target : Int) : State :=
  let lo : Int := s.fld F.PWR_AVS_BOUNDS.MIN_MV
  let hi : Int := s.fld F.PWR_AVS_BOUNDS.MAX_MV
  let target := clampInt 0 1023 target
  let pinned : Bool := target < lo || hi < target
  let t := s.modPwr (fun p => { p with avsTarget := target })
  let t := t.setf F.PWR_AVS_STATUS.TARGET_MV target.toNat
  let t := t.setf F.PWR_AVS_STATUS.SET_MV (clampInt lo hi target).toNat
  let t := t.setf F.PWR_AVS_STATUS.PINNED pinned.toNat
  if pinned then t.bump F.AVS_CONFLICT else t

/-- The margin's run below the low threshold: PWR_AVS_MARGIN once in it, when it has lasted 1 ms and the loop is pinned at MAX_MV or
stopped (R390). -/
def State.avsMargin (s : State) (low : Bool) : State :=
  let atMax : Bool := s.on F.PWR_AVS_STATUS.PINNED && (s.fld F.PWR_AVS_BOUNDS.MAX_MV : Int) < s.pwr.avsTarget
  let n := if low then s.pwr.avsLowRun + 1 else 0
  let tells : Bool := 10 ≤ n && !s.pwr.avsTold && (atMax || s.on F.PWR_AVS_STATUS.STOPPED)
  let t := s.modPwr (fun p => { p with avsLowRun := n, avsTold := low && (p.avsTold || tells) })
  if tells then t.raise 13 (t.fld F.PWR_AVS_STATUS.SET_MV) else t

/-- `n` more transactions have failed. A failed one is retried; after three in a row the loop stops, with the last voltage held
(R389). -/
def State.avsFail (s : State) (n : Nat) : State :=
  if s.pwr.avsRow + n < 3 then s.modPwr (fun p => { p with avsRow := p.avsRow + n })
  else
    let t := s.modPwr (fun p => { p with avsFails := p.avsFails + 1, avsRow := 0 })
    (t.setf F.PWR_AVS_STATUS.STOPPED 1).raise 12 (Config.avsStatus t.pwr.avsFails).toNat

/-- The AVS loop's iteration of every 100 µs (R389, R390); in one without a valid response, `failures` transactions failed. -/
def execAvsIteration (move : Int) (low answered : Bool) (s : State) (failures : Nat := 3) : Host.Outcome State Fault Refusal :=
  let t := s.runPeriod (100 * ltUs)
  .next (if t.fld F.PWR_AVS_CTL.AVS_EN = 0 then t.setf F.PWR_AVS_STATUS.SET_MV 750
    else if t.on F.PWR_AVS_STATUS.STOPPED then t.avsMargin low
    else if answered then
      ((t.modPwr (fun p => { p with avsRow := 0 })).avsSet (t.pwr.avsTarget + 5 * clampInt (-1) 1 move)).avsMargin low
    else (t.avsFail failures).avsMargin low)

/-- The stopped loop's retry of every 10 ms (R389). -/
def execAvsRetry (answered : Bool) (s : State) : Host.Outcome State Fault Refusal :=
  if s.on F.PWR_AVS_STATUS.STOPPED then
    let t := s.runPeriod (10 * ltMs)
    .next (if answered then t.setf F.PWR_AVS_STATUS.STOPPED 0 else t)
  else .next s

/-- A write of 1 to PWR_WAKE_CTL.HOST_WAKE (R384). -/
def execHostWake (s : State) : Host.Outcome State Fault Refusal :=
  .next (if s.hostUp then s.gated 3 (atBar0 0x30100) 0x200 (fun t => t.wakeIf 3 none) else s)

/-- The next second, after the present one, whose low 32 bits equal PWR_WAKE_AT. -/
def State.wakeSecond (s : State) : Nat :=
  let sec := s.ns / 1000000000
  let d := (2 ^ 32 + s.fld F.PWR_WAKE_AT - sec % 2 ^ 32) % 2 ^ 32
  sec + (if d = 0 then 2 ^ 32 else d)

/-- Network time reaches PWR_WAKE_AT (R384). -/
def execWakeTimer (s : State) : Host.Outcome State Fault Refusal :=
  .next (if s.fbit F.PWR_WAKE_CTL.EN 2 && s.phase = .running then (s.runToNs (s.wakeSecond * 1000000000)).wakeIf 2 none
    else s)

/-- WAKE_OUT falls once PWR_WAKE_CAUSE reads zero and 10 µs have passed (R384). -/
def execWakeOutFall (s : State) : Host.Outcome State Fault Refusal :=
  match s.pwr.wakeOut with
  | none => .next s
  | some t =>
    if s.fld F.PWR_WAKE_CAUSE.CAUSE = 0 then
      .next ((s.runToLt (t + 10 * ltUs)).modPwr (fun p => { p with wakeOut := none }))
    else .next s

end Sys2Proof.Machine
end

