-- ==== Sys2Proof/Machine/NetTime.lean ====
section
/-! DEFINITION. The network time counter: rate, slew, the arming of a step, replicas and the PPS pins (R18, R240 to
R246). The step itself acts on Sentences and mixes as well and stands in Steps.lean. -/

namespace Sys2Proof.Machine

/-- An increment lies in the range of R241. -/
def incOk (v : Nat) : Bool := 0x00_F000_0000 ≤ v && v ≤ 0x01_1000_0000

/-- A new increment counts from the next tick; while a slew lasts it becomes the base at once (R241, R242). -/
def State.newInc (s : State) (v : Nat) : State :=
  s.modTime (fun x =>
    { x with
      inc := v
      oldInc := if s.lt < x.oldUntil then x.oldInc else x.inc
      oldUntil := if 0 < x.slewLeft then 0 else (s.lt / ltNs + 1) * ltNs })

/-- The effect of a write of NTM_INC_INT: both halves apply (R241). -/
def State.incWrite (s : State) (o : Origin4) (data : Nat) : State :=
  let v := data % 256 * 2 ^ 32 + s.fld F.NTM_INC_FRAC
  if incOk v then (s.setf F.NTM_INC_INT (data % 256)).newInc v else s.refuse o data cVALUE

/-- INCREMENT_WRITE (R241). -/
def execIncrementWrite (data : Word) (s : State) : Host.Outcome State Fault Refusal :=
  .next (if s.hostUp then
      s.gated 4 (atBar0 0x4000C) data.toNat (fun t => t.incWrite (atBar0 0x4000C) data.toNat)
    else s)

/-- The effect of a write of NTM_TEMP_INT: both halves of the slew increment apply (R242). -/
def State.tempWrite (s : State) (o : Origin4) (data : Nat) : State :=
  let v := data % 256 * 2 ^ 32 + s.fld F.NTM_TEMP_FRAC
  if incOk v then (s.setf F.NTM_TEMP_INT (data % 256)).markTime.modTime (fun x => { x with tempInc := v })
  else s.refuse o data cVALUE

/-- The effect of a write of NTM_TEMP_COUNT: a slew of that many ticks starts, restarts or, with 0, ends (R242). -/
def State.slewWrite (s : State) (count : Nat) : State :=
  s.markTime.modTime (fun x => { x with slewLeft := count * ltNs })

/-- SLEW_START (R242). -/
def execSlewStart (count : Word) (s : State) : Host.Outcome State Fault Refusal :=
  .next (if s.hostUp then s.gated 4 (atBar0 0x40018) count.toNat (fun t => t.slewWrite count.toNat) else s)

/-- SLEW_END: the slew's ticks run out. -/
def execSlewEnd (s : State) : Host.Outcome State Fault Refusal := .next (s.run s.time.slewLeft)

/-- NTM_TEMP_COUNT: ticks of slew remaining. -/
def State.slewCount (s : State) : Nat := ceilDiv s.time.slewLeft ltNs

/-! ### Steps (R243) -/

/-- The effect of a write of 1 to GO: the step waits for the next whole microsecond, or the write is refused. -/
def State.stepGo (s : State) (o : Origin4) (mode data : Nat) : State :=
  if s.time.step.isSome then s.refuse o data cRULE
  else if 999999999 < s.fld F.NTM_STEP_NS then s.refuse o data cVALUE
  else
    let w : StepWait :=
      ⟨(s.ns / 1000 + 1) * 1000, mode, s.fld F.NTM_STEP_SH * 2 ^ 32 + s.fld F.NTM_STEP_SL, s.fld F.NTM_STEP_NS⟩
    s.modTime (fun x => { x with step := some w })

/-- STEP_GO: a write of NTM_STEP_CTL with GO at 1 and MODE `mode`. -/
def execStepGo (mode : Nat) (s : State) : Host.Outcome State Fault Refusal :=
  let d := mode % 2 * 2 + 1
  .next (if s.hostUp then s.gated 4 (atBar0 0x4001C) d (fun t => t.stepGo (atBar0 0x4001C) (mode % 2) d) else s)

/-- The ns at which a step leaves the counter: MODE 0 adds seconds and nanoseconds modulo 2^48 s, MODE 1 sets them. -/
def StepWait.target (w : StepWait) : Nat :=
  ((if w.mode = 0 then w.at' else 0) + w.secs * 1000000000 + w.ns) % (2 ^ 48 * 1000000000)

/-! ### Replicas (R18) -/

/-- The residual error of a replica after a correction (log 5), within ±0.5 ns. -/
def replicaResidual (n : Nat) : Int := toSigned 32 (Config.replicaError n).toNat

/-- REPLICA_CORRECTION: every 1 µs each port island's replica of network time is corrected, and while the node is joined that
of ring time (R244). -/
def State.correctReplicas (s : State) : State :=
  let n := s.nIslands
  let s := (List.range s.nPorts).foldl (fun t p =>
    t.modPort p (fun d => { d with
      replica := replicaResidual (s.draws + p / 4)
      ringReplica := if s.joined then replicaResidual (s.draws + n + p / 4) else 0 })) s
  { s with draws := s.draws + 2 * n }

def execReplicaCorrection (s : State) : Host.Outcome State Fault Refusal :=
  .next (if s.phase = .running then (s.runPeriod ltUs).correctReplicas else s)

/-! ### PPS (R245, R246) -/

/-- The next ns after now at which network time plus NTM_PPS_OFFSET is a whole second. -/
def State.ppsNext (s : State) : Nat :=
  let k : Int := (2 ^ 30 : Nat)
  let off := s.fldS F.NTM_PPS_OFFSET
  let x := ((s.ns : Int) + off + k * 1000000000).toNat
  ((((x / 1000000000 + 1) * 1000000000 : Nat) : Int) - off - k * 1000000000).toNat

/-- PPS_OUT rises (R245). -/
def execPpsOutEdge (s : State) : Host.Outcome State Fault Refusal :=
  .next (if s.on F.NTM_CTL.PPS_OUT_EN && s.phase = .running then
      let t := s.runToNs s.ppsNext
      t.modTime (fun x => { x with ppsFall := some (t.lt + t.fld F.NTM_PPS * ltMs) })
    else s)

/-- PPS_OUT falls after its width. -/
def execPpsOutFall (s : State) : Host.Outcome State Fault Refusal :=
  .next (match s.time.ppsFall with
    | none => s
    | some t => (s.runToLt t).modTime (fun x => { x with ppsFall := none }))

/-- The level of PPS_OUT. -/
def State.ppsOut (s : State) : Bool := s.on F.NTM_CTL.PPS_OUT_EN && s.time.ppsFall.isSome

/-- PPS_IN rises and stays high for `highNs` ns: shorter pulses than 50 ns are ignored (R246). -/
def execPpsInEdge (highNs : Nat) (s : State) : Host.Outcome State Fault Refusal :=
  .next (if !s.on F.NTM_CTL.PPS_IN_EN || highNs < 50 || s.phase ≠ .running then s
    else
      let t := if s.time.ppsInNew then s.bump F.NTM_PPS_IN_OVERRUN else s
      (t.bump F.NTM_PPS_IN_EDGES).modTime (fun x => { x with ppsInTime := x.nt / 2 ^ 16, ppsInNew := true }))

end Sys2Proof.Machine
end

