-- ==== Sys2Proof/Machine/Power.lean ====
section
/-! DEFINITION. Resets, operating states and power states (R27, R31, R298, R374 to R385, R432, R434). -/

namespace Sys2Proof.Machine

/-! ### Power-on and cold reset (R27, R374, R432, R434) -/

/-- What stands outside the device, and what a power-on or cold reset cannot touch: the queue of commands, the model's own
clock and draw counter, the fuses, attached memories, the board, and the levels of PERSTn and ROLE_ACTIVE; TIMEOUT of
R255 runs from here. -/
def State.outside (s t : State) : State :=
  { t with
    pending := s.pending, lt := s.lt, draws := s.draws, fuses := s.fuses
    cxl := s.cxl.foldl (fun m x => SMap.putD m x.1 { x.2 with mapped := 0, perstAt := none } CxlPort.reset) []
    board := s.board
    host := { t.host with perst := s.host.perst, mem := s.host.mem }
    pair := { t.pair with roleLevel := s.pair.roleLevel }
    time := { t.time with syncFrom := s.lt } }

/-- Power-on reset: PORn is low. The lanes are to calibrate (R374). -/
def State.powerOn (s : State) : State :=
  let t := (s.haltWipes (fun _ => true)).outside State.reset
  { t with board := { t.board with calibrated := false } }

/-- POWER_ON_RESET: a low level of PORn of 1 µs or more; a shorter one is ignored (R434). -/
def execPowerOnReset (s : State) (lowNs : Nat := 1000) : Host.Outcome State Fault Refusal :=
  .next (if lowNs < 1000 then s else s.powerOn)

/-- Cold reset: RSTn is low. The life-cycle shadow and the owner value stay, ALIVE holds its level, and the TAP its
instruction. -/
def State.coldReset (s : State) : State :=
  let t := (s.haltWipes (fun _ => true)).outside State.reset
  let t := { t with
    porLow := false, lifecycle := s.lifecycle, owner := s.owner
    pair := { t.pair with alive := s.pair.alive }
    bst := { t.bst with tap := s.bst.tap } }
  t.setf F.PWR_RESET_CAUSE 1

/-- COLD_RESET: a low level of RSTn of 25 cycles of the always-on oscillator or more; a shorter one is ignored, and PORn low overrides
RSTn (R434). -/
def execColdReset (s : State) (cycles : Nat := 25) : Host.Outcome State Fault Refusal :=
  .next (
    if cycles < 25 then s
    else
      let t := if s.porLow then s else s.coldReset
      { t with board := { t.board with rstLow := true } })

/-- REFCLK_LOSS: the device is held in cold reset until REFCLK has run for 1 ms (R432). -/
def execRefclkLoss (s : State) : Host.Outcome State Fault Refusal :=
  .next (
    if s.porLow then s
    else
      let t := s.coldReset
      { t with board := { t.board with holdUntil := s.lt + ltMs } })

/-- The largest budget of the part (R392). -/
def Variant.budget : Variant → Nat
  | .zt5120 => 0x249
  | .zt2560 => 0x14A
  | .zt1280 => 0xBE

/-- The fuses are read: all of them after PORn; after RSTn all but the life-cycle state and the owner value (R27). -/
def State.readFuses (s : State) : State :=
  let s := if s.porLow then { s with lifecycle := s.fuses.lifecycle, owner := s.fuses.owner } else s
  (s.setf F.PWR_BUDGET s.fuses.variant.budget).setf F.BST_FUSE.RECORDS_USED s.fuses.recordsUsed

/-- RESET_RELEASE: the resets are high; the fuses are read and the wipe begins. While TESTMODE is high the device stays in power-on reset
(R421). A boundary instruction gives way to BYPASS (R404). -/
def execResetRelease (s : State) : Host.Outcome State Fault Refusal :=
  .next (
    if s.phase = .held ∧ ¬ s.board.testmode then
      let t := s.runToLt s.board.holdUntil
      let t := { t.readFuses with phase := .wiping, porLow := false, board := { t.board with rstLow := false, released := t.lt } }
      if [TapInstr.extest, .clamp, .highz].contains t.bst.tap then t.selectTap .bypass else t
    else s)

/-- STARTUP_ENTRY: about 43 ms after the release the lanes have calibrated, the device is in STARTUP, and every present CXL port
enumerates. -/
def execStartupEntry (s : State) : Host.Outcome State Fault Refusal :=
  .next (
    if s.phase = .wiping then
      let t := s.runToLt (s.board.released + 43 * ltMs)
      let t := { t with phase := .running, board := { t.board with calibrated := true }, host := { t.host with answering := !t.host.perst } }
      (List.range t.nCxl).foldl State.startEnum (t.toOp .startup)
    else s)

/-! ### Operating states (R31, R33, R350) -/

/-- The memories that BIST groups tested are wiped (R31). -/
def State.wipeTested (s : State) : State :=
  let t := s.bst.tested.foldl State.dropMemories s
  t.modBst (fun b => { b with tested := [] })

/-- The transitions that STATE_SET may make. -/
def setAllowed (old new : OpState) : Bool :=
  match old, new with
  | .startup, .operational => true
  | .startup, .test => true
  | .test, .startup => true
  | .operational, .recovery => true
  | .operational, .startup => true
  | .recovery, .operational => true
  | .recovery, .startup => true
  | _, _ => false

/-- The state that STATE_SET's argument names. -/
def opOf (n : Nat) : OpState := [OpState.startup, .test, .operational, .recovery].getD n .safe

/-- The device goes to a state that STATE_SET asked for. A unit whose level is low does not stay in OPERATIONAL (R350). -/
def State.goto (s : State) (new : OpState) : State :=
  let s := (if s.op = .test then s.wipeTested else s).dropTakeover
  if new = .operational then (if s.pairOn && !s.pair.roleLevel then s.toOp .recovery else s.enterOper)
  else (s.toOp new).startTakeover

/-! ### Warm reset (R31, R298, R316, R376) -/

/-- RESET_WARM: the response, and the warm reset 1 µs later. -/
def execResetWarm (s : State) : Host.Outcome State Fault Refusal :=
  .next (s.xci 0x60 (fun c t =>
    if c.word 1 ≠ 0x5741 then t.finish xBADARG 6 []
    else (t.finishOk []).modPwr (fun p => { p with warmAt := some (false, t.lt + ltUs) })))

/-- PCIE_HOT_RESET: the host island, and a warm reset as well while HOT_RESET_ACT is 0, but not in SAFE (R32), nor where an S3 of
the same cycle, which comes first (R33), leaves SAFE. -/
def State.hotReset (s : State) (condemned : Bool) : State :=
  if s.phase ≠ .running then s
  else
    let t := s.hostReset
    if t.on F.HIF_CTL.HOT_RESET_ACT ∨ t.op = .safe ∨ condemned = true then t
    else
      let t := t.modPwr (fun p => { p with warmAt := some (true, t.lt) })
      if t.pwr.state = .run && t.pwr.entry.isNone then t else t.startExit

/-- A block reset that a wider reset overtakes: its command completes with OK (R378). -/
def State.overtakeBlock (s : State) : State :=
  if s.pwr.blockRun.isSome then (s.finishOk []).modPwr (fun p => { p with blockRun := none }) else s

/-- The warm reset's effects on every block (R374). -/
def State.warmEffects (s : State) : State :=
  let s := (s.stopChannels.conReset.wipeQueues.wipePanels).sidDefaults
  (s.mixDefaults.abandonWide).resync

/-- The warm reset begins. -/
def State.warmBegin (s : State) (hot : Bool) : State :=
  let s := (s.overtakeBlock.bistStop).dropTakeover
  let s := s.modPair (fun p => { p with writing := none })
  let s := if s.op = .test then s.wipeTested else s
  let s := s.toOp (if s.op = .operational || s.op = .recovery then .recovery else .startup)
  let s := (s.warmEffects.setf F.PWR_RESET_CAUSE (if hot then 3 else 2)).bump F.PWR_WARM_COUNT
  s.modPwr (fun p => { p with warmAt := none, warmRun := some (hot, s.lt) })

/-- The pending warm reset begins, after the exit from a low-power state (R380) and after one that runs. -/
def State.warmReset (s : State) : State :=
  match s.pwr.warmAt with
  | none => s
  | some (hot, t) =>
    if s.phase ≠ .running ∨ s.pwr.warmRun.isSome then s
    else
      let s := s.runToLt t
      if s.op = .safe then s.modPwr (fun p => { p with warmAt := none })
      else if s.pwr.state = .standby ∨ s.pwr.entry.isSome then s.startExit
      else (if s.pwr.state = .doze then s.startExit else s).warmBegin hot

/-! ### Block reset (R377) -/

/-- The effects of a block reset on its target, as the target's own chapter gives them. -/
def State.blockEffects (s : State) (w sub : Nat) : State :=
  if w = 4 then s.resync
  else if w = 5 then s.conReset
  else if w = 6 then s.stopChannels
  else if w = 7 then (s.rewindLines.dropCaptures).modMix (fun m => { m with pictures := [] })
  else if w = 8 then
    let fids := s.mix.unpack.map (fun u => u.fid) ++ s.mix.video.map (fun v => v.fid)
    fids.foldl State.release (s.mixDefaults.modMix (fun m => { m with unpack := [], video := [] }))
  else if w = 0x0A then
    ((s.inbox.map (fun x => x.fid)).foldl State.release { s.sidDefaults with inbox := [] }).settleUnblocks
  else if w = 0x0B then (List.range 8).foldl State.resetPanel s
  else if 0x50 ≤ w then s.wipeStores (fun m => m = w - 0x50)
  else if sub = 0 then s.prtReset (w - 0x10)
  else if sub = 1 then s.senReset (w - 0x10)
  else if sub = 2 then s.wipePort (w - 0x10)
  else if sub = 3 then s.tsuReset (w - 0x10)
  else s

/-- The block reset that `c` asks for begins. -/
def State.blockBegin (s : State) (c : Cmd) : State :=
  let w := bitsOf (c.word 1) 7 0
  let sub := bitsOf (c.word 1) 9 8
  ((s.blockEffects w sub).bump F.PWR_BLOCK_COUNT).modPwr (fun p => { p with blockWait := false, blockRun := some (w, sub, s.lt) })

/-- BLOCK_RESET: the target is held in reset, and the command is in execution until it ends. During a warm reset it waits for the
warm reset's end (R378). -/
def execBlockReset (s : State) : Host.Outcome State Fault Refusal :=
  .next (s.xci 0x61 (fun c t =>
    if t.pwr.blockRun.isSome then t
    else if t.pwr.warmRun.isSome then t.modPwr (fun p => { p with blockWait := true })
    else t.blockBegin c))

/-- WARM_RESET_DONE: 1 ms after the begin; an S3 that waited takes effect, or a takeover begins (R350, R378), and a block reset that
waited begins. -/
def execWarmResetDone (s : State) : Host.Outcome State Fault Refusal :=
  .next (match s.pwr.warmRun with
    | none => s
    | some (_, t) =>
      let s := ((s.runToLt (t + ltMs)).modPwr (fun p => { p with warmRun := none })).conResume
      let s := s.settleS3.startTakeover
      match s.pwr.blockWait, s.host.cur with
      | true, some c => s.blockBegin c
      | _, _ => s)

/-- BLOCK_RESET_DONE: 100 µs after the begin. -/
def execBlockResetDone (s : State) : Host.Outcome State Fault Refusal :=
  .next (match s.pwr.blockRun with
    | none => s
    | some (w, _, t) =>
      let s := (s.runToLt (t + 100 * ltUs)).modPwr (fun p => { p with blockRun := none })
      let s := if w = 0x0B then (List.range 8).foldl State.panelBeacon s else if w = 5 then s.conResume else s
      (s.finishOk []).settleS3)

/-! ### Power states (R380 to R385) -/

/-- A port's lanes power down: the link goes down, without a fault (R45, R145). -/
def State.lanesOff (s : State) (p : Nat) : State := if s.on F.PRT_STATUS.LINK_UP p then s.linkDown p else s

/-- Entry to DOZE: the lanes of ports that are not enabled power down (R381). -/
def State.enterDoze (s : State) : State :=
  let s := (List.range s.nPorts).foldl (fun t p => if t.on F.PRT_CTL.ENABLE p then t else t.lanesOff p) s
  (s.modPwr (fun p => { p with state := .doze })).setf F.PWR_WAKE_TIMES.ENTRY 1

/-- A wake port whose partner sheds asks for one lane, 20 µs ahead (R53). -/
def State.narrow (s : State) (p : Nat) : State :=
  if s.wakePort p && s.on F.PRT_STATUS.LINK_UP p && s.partnerSheds p && 1 < s.lanes p then
    s.shedRequest p 1 (s.portNs p + 20000) 6 false
  else s

/-- Entry to STANDBY begins (R382, time 0). -/
def State.beginStandby (s : State) : State :=
  let s := (s.modPwr (fun p => { p with entry := some (0, s.lt) })).timeAlive
  (List.range s.nPorts).foldl State.narrow (s.pauseAll.conStandby)

/-- POWER_STATE. -/
def State.powerState (s : State) (c : Cmd) : State :=
  let n := bitsOf (c.word 1) 1 0
  if s.pwr.entry.isSome ∨ s.pwr.exit.isSome then s.finish xBUSY 7 [n]
  else match s.pwr.state with
    | .run =>
      if n = 1 then (s.finishOk [n]).enterDoze
      else if n = 2 ∧ ¬ s.pairOn then (s.finishOk [n]).beginStandby
      else s.finish xBADARG 7 [n]
    | .doze =>
      if n = 0 then (s.finishOk [n]).startExit
      else if n = 2 ∧ ¬ s.pairOn then (s.finishOk [n]).beginStandby
      else s.finish xBADARG 7 [n]
    | .standby => if n = 0 then (s.finishOk [n]).startExit else s.finish xBADARG 7 [n]

def execPowerState (s : State) : Host.Outcome State Fault Refusal := .next (s.xci 0xB0 (fun c t => t.powerState c))

/-- 20 µs into the entry: the lanes of all but the wake ports power down, and every queue is empty, silently. -/
def State.standbyPorts (s : State) : State :=
  let s := s.wipeQueues.wipePanels
  (List.range s.nPorts).foldl (fun t p => if t.wakePort p then t else t.lanesOff p) s

/-- 500 µs into the entry: the datapath islands power down, what reached the queues since 20 µs is gone, and the state is STANDBY; an exit that waits starts at once. -/
def State.standbyReached (s : State) : State :=
  let s := (List.range s.nPorts).foldl State.recalibrate ((s.wipeQueues.wipePanels.sidDefaults.mixDefaults).abandonWide)
  let s := s.modPwr (fun p => { p with state := .standby, entry := none, exit := p.exit.map (fun _ => s.lt) })
  s.setf F.PWR_WAKE_TIMES.ENTRY 500

/-- STANDBY_ENTRY_PHASE: 20 µs, 100 µs and 500 µs after the begin (R382). -/
def execStandbyEntryPhase (s : State) : Host.Outcome State Fault Refusal :=
  .next (match s.pwr.entry with
    | none => s
    | some (k, t) =>
      if k = 0 then ((s.runToLt (t + 20 * ltUs)).standbyPorts).modPwr (fun p => { p with entry := some (1, t) })
      else if k = 1 then (s.runToLt (t + 100 * ltUs)).modPwr (fun p => { p with entry := some (2, t) })
      else (s.runToLt (t + 500 * ltUs)).standbyReached)

/-- A wake port that narrowed asks for its earlier width, 20 µs ahead (R53). -/
def State.widen (s : State) (p : Nat) : State :=
  let w := (s.port p).standbyWidth
  if w ≠ 0 && s.on F.PRT_STATUS.LINK_UP p && s.lanes p < w then s.shedRequest p w (s.portNs p + 20000) 6 false
  else s.modPort p (fun d => { d with standbyWidth := 0 })

/-- STANDBY_EXIT_DONE: 2.0 ms after the wake request (R385). -/
def execStandbyExitDone (s : State) : Host.Outcome State Fault Refusal :=
  .next (match s.pwr.exit with
    | none => s
    | some w =>
      if s.pwr.state ≠ .standby then s
      else
        let s := (s.runToLt (w + 2 * ltMs)).modPwr (fun p => { p with state := .run, exit := none })
        let s := (s.setf F.PWR_WAKE_TIMES.EXIT 2000).timeAlive
        let s := (List.range s.nPorts).foldl (fun t p => (t.widen p).regate p) s
        s.settleS3)

end Sys2Proof.Machine
end

