-- ==== Sys2Proof/Machine/RegMap.lean ====
section
/-! DEFINITION. The register map: the registers of every BAR0 window with their fields, the decoding of a BAR0 offset (R320 to
R324) and of a virtual function's (R303, R325), written from the register tables of R69 to R71, R97, R127, R151, R183, R239,
R265, R266, R293, R294, R319, R344, R365, R391, R392 and R411. The wide groups (R341) stand apart. -/

namespace Sys2Proof.Machine

def regsPort0 : List RegInfo :=
  [⟨0x0, 0, 1, [F.PRT_CTL.RETRAIN, F.PRT_CTL.IFACE, F.PRT_CTL.MODE, F.PRT_CTL.LOOPBACK, F.PRT_CTL.ENABLE]⟩,
   ⟨0x4, 0, 1, [F.PRT_LANE.LANE_MAP, F.PRT_LANE.TX_POL, F.PRT_LANE.RX_POL]⟩,
   ⟨0x8, 0, 1, [F.PRT_MAXLEN.MAXLEN]⟩,
   ⟨0xc, 0, 1, [F.PRT_STATUS.HELD, F.PRT_STATUS.STATE_IDLE, F.PRT_STATUS.FEC_DEGRADED, F.PRT_STATUS.LANE_LOCK,
     F.PRT_STATUS.WIDTH, F.PRT_STATUS.LINK_UP]⟩,
   ⟨0x10, 0, 1, [F.PRT_MM_CTL.PREEMPTABLE, F.PRT_MM_CTL.VERIFY_TIME, F.PRT_MM_CTL.ADD_FRAG, F.PRT_MM_CTL.VERIFY_DIS,
     F.PRT_MM_CTL.PREEMPT_EN]⟩,
   ⟨0x14, 0, 1, [F.PRT_MM_STATUS.PARTNER_ADD_FRAG, F.PRT_MM_STATUS.ACTIVE, F.PRT_MM_STATUS.VERIFY_STATE]⟩,
   ⟨0x18, 0, 1, [F.PRT_TAG.TPID]⟩,
   ⟨0x1c, 0, 1, [F.PRT_FC.WDG_TIME, F.PRT_FC.PFC_HONOUR, F.PRT_FC.FC_MODE]⟩,
   ⟨0x100, 0, 1, [F.PRT_SHED_CTL.BLOCK_CLR, F.PRT_SHED_CTL.HIGH_PCT, F.PRT_SHED_CTL.LOW_PCT,
     F.PRT_SHED_CTL.MAX_WIDTH, F.PRT_SHED_CTL.MIN_WIDTH, F.PRT_SHED_CTL.SHED_EN]⟩,
   ⟨0x104, 0, 1, [F.PRT_SHED_STATUS.FAIL_RUN, F.PRT_SHED_STATUS.IN_TRANSITION, F.PRT_SHED_STATUS.BLOCKED,
     F.PRT_SHED_STATUS.PINNED, F.PRT_SHED_STATUS.WIDTH]⟩,
   ⟨0x200, 0, 1, [F.PRT_WAKE_CTL.MATCH_VALID, F.PRT_WAKE_CTL.MATCHED, F.PRT_WAKE_CTL.WAKE_PORT,
     F.PRT_WAKE_CTL.FILTER_EN]⟩,
   ⟨0x204, 0, 1, [F.PRT_PARTNER.PART_CODE, F.PRT_PARTNER.REVISION, F.PRT_PARTNER.MIN_WIDTH, F.PRT_PARTNER.CONCORD,
     F.PRT_PARTNER.SHED, F.PRT_PARTNER.PROBE, F.PRT_PARTNER.MM, F.PRT_PARTNER.VALID]⟩]

def regsPort1 : List RegInfo :=
  [⟨0x208, 0, 1, [F.PRT_PARTNER_EXT.RING_NODE, F.PRT_PARTNER_EXT.TRANS_TIME]⟩,
   ⟨0x1000, 0, 1, [F.SEN_CTL.DROP_LATE, F.SEN_CTL.ENABLE]⟩,
   ⟨0x1004, 0, 1, [F.SEN_STATUS.CLAUSE, F.SEN_STATUS.PAST_END, F.SEN_STATUS.IN_EXT, F.SEN_STATUS.TRUNCATING,
     F.SEN_STATUS.HOLD, F.SEN_STATUS.ADMIN_STATE, F.SEN_STATUS.OPER_BANK, F.SEN_STATUS.OPER_VALID]⟩,
   ⟨0x1008, 0, 1, [F.SEN_PREEMPT.HOLD_ADVANCE]⟩,
   ⟨0x100c, 0, 1, [F.SEN_DEFAULT.GATES]⟩,
   ⟨0x1010, 0, 1, [F.SEN_SKIPPED.SKIPPED]⟩,
   ⟨0x1100, 0, 1, [F.SEN_ADMIN_LEN]⟩,
   ⟨0x1200, 0, 1, [F.SEN_OPER_LEN]⟩,
   ⟨0x1104, 0, 1, [F.SEN_ADMIN_CYCLE]⟩,
   ⟨0x1204, 0, 1, [F.SEN_OPER_CYCLE]⟩,
   ⟨0x1108, 0, 1, [F.SEN_ADMIN_EXT]⟩,
   ⟨0x1208, 0, 1, [F.SEN_OPER_EXT]⟩]

def regsPort2 : List RegInfo :=
  [⟨0x110c, 0, 1, [F.SEN_ADMIN_BASE_NS]⟩,
   ⟨0x120c, 0, 1, [F.SEN_OPER_BASE_NS]⟩,
   ⟨0x1110, 0, 1, [F.SEN_ADMIN_BASE_SL]⟩,
   ⟨0x1210, 0, 1, [F.SEN_OPER_BASE_SL]⟩,
   ⟨0x1114, 0, 1, [F.SEN_ADMIN_BASE_SH]⟩,
   ⟨0x1214, 0, 1, [F.SEN_OPER_BASE_SH]⟩,
   ⟨0x1118, 0, 1, [F.SEN_ADMIN_RESV]⟩,
   ⟨0x1218, 0, 1, [F.SEN_OPER_RESV]⟩,
   ⟨0x1400, 0, 1, [F.SEN_SWAPS]⟩,
   ⟨0x1404, 0, 1, [F.SEN_LATE_DROP]⟩,
   ⟨0x1408, 0, 1, [F.SEN_GUARD_DEFER]⟩,
   ⟨0x140c, 0, 1, [F.SEN_OVERRUN]⟩]

def regsPort3 : List RegInfo :=
  [⟨0x1410, 0, 1, [F.SEN_TIME_STEP]⟩,
   ⟨0x1414, 0, 1, [F.SEN_PARITY_CLAUSE]⟩,
   ⟨0x1418, 0, 1, [F.SEN_HOLD_PREEMPT]⟩,
   ⟨0x2000, 0, 1, [F.QSH_CTL.CBS_EN, F.QSH_CTL.ENABLE]⟩,
   ⟨0x2004, 0, 1, [F.QSH_AGE.AGE_TIME]⟩,
   ⟨0x2008, 0, 1, [F.QSH_SAMPLE.DELAY_K]⟩,
   ⟨0x200c, 0, 1, [F.QSH_ING_LIMIT.ING_LIMIT]⟩,
   ⟨0x2010, 0, 1, [F.QSH_STATUS.ING_HELD]⟩,
   ⟨0x2100, 0x10, 8, [F.QSH_IDLE_SLOPE]⟩,
   ⟨0x2104, 0x10, 8, [F.QSH_HI_CREDIT]⟩,
   ⟨0x2108, 0x10, 8, [F.QSH_CLASS_LIMIT]⟩,
   ⟨0x210c, 0x10, 8, [F.QSH_CREDIT]⟩]

def regsPort4 : List RegInfo :=
  [⟨0x2200, 0, 1, [F.QSH_POOL_MIX]⟩,
   ⟨0x2204, 0, 1, [F.QSH_POOL_DMA]⟩,
   ⟨0x2208, 0, 1, [F.QSH_POOL_FREE]⟩,
   ⟨0x220c, 0, 1, [F.QSH_POOL_MIX_USED]⟩,
   ⟨0x2210, 0, 1, [F.QSH_POOL_DMA_USED]⟩,
   ⟨0x2214, 0, 1, [F.QSH_POOL_CTRL_USED]⟩,
   ⟨0x2218, 0, 1, [F.QSH_POOL_LOW]⟩,
   ⟨0x2400, 0, 1, [F.ING_NOCELL_DROP]⟩,
   ⟨0x2404, 0, 1, [F.ING_LIMIT_DROP]⟩,
   ⟨0x2408, 0, 1, [F.QSH_TAIL_DROP]⟩,
   ⟨0x240c, 0, 1, [F.QSH_AGE_DROP]⟩,
   ⟨0x2410, 0, 1, [F.QSH_LINKDOWN_FLUSH]⟩]

def regsPort5 : List RegInfo :=
  [⟨0x2414, 0, 1, [F.QSH_SUBQ_INVALID_DROP]⟩,
   ⟨0x2418, 0, 1, [F.QSH_DISABLED_DROP]⟩,
   ⟨0x241c, 0, 1, [F.QSH_DMA_POOL_WAIT]⟩,
   ⟨0x3000, 0, 1, [F.TSU_CTL.PDELAY_LOG, F.TSU_CTL.DELAY_SRC, F.TSU_CTL.PROBE_EN, F.TSU_CTL.PDELAY_EN,
     F.TSU_CTL.PTP_ROLE]⟩,
   ⟨0x3004, 0, 1, [F.TSU_STATUS.CAL_CONVERGED, F.TSU_STATUS.SOURCE, F.TSU_STATUS.STALE, F.TSU_STATUS.DELAY_VALID]⟩,
   ⟨0x3008, 0, 1, [F.TSU_TX_ADJ]⟩,
   ⟨0x300c, 0, 1, [F.TSU_RX_ADJ]⟩,
   ⟨0x3010, 0, 1, [F.TSU_ASYM]⟩,
   ⟨0x3014, 0, 1, [F.TSU_PROBE.ETYPE, F.TSU_PROBE.INTERVAL]⟩,
   ⟨0x3018, 0, 1, [F.TSU_CABLE.VF, F.TSU_CABLE.LENGTH_DM]⟩,
   ⟨0x301c, 0, 1, [F.TSU_LINK_DELAY]⟩,
   ⟨0x3020, 0, 1, [F.TSU_NRR]⟩]

def regsPort6 : List RegInfo :=
  [⟨0x3024, 0, 1, [F.TSU_TX_CAL]⟩,
   ⟨0x3028, 0, 1, [F.TSU_RX_CAL]⟩,
   ⟨0x3100, 0, 1, [F.SYNC_TX]⟩,
   ⟨0x3104, 0, 1, [F.SYNC_SKIPPED]⟩,
   ⟨0x3108, 0, 1, [F.SYNC_RX]⟩,
   ⟨0x310c, 0, 1, [F.PDELAY_REQ_TX]⟩,
   ⟨0x3110, 0, 1, [F.PDELAY_RESP_TX]⟩,
   ⟨0x3114, 0, 1, [F.PDELAY_LOST]⟩,
   ⟨0x3118, 0, 1, [F.PROBE_TX]⟩,
   ⟨0x311c, 0, 1, [F.PROBE_RX]⟩,
   ⟨0x3120, 0, 1, [F.PROBE_SKIPPED]⟩,
   ⟨0x3124, 0, 1, [F.PROBE_REJECT]⟩]

def regsPort7 : List RegInfo :=
  [⟨0x3128, 0, 1, [F.EXCHANGE_DROP]⟩,
   ⟨0x312c, 0, 1, [F.PTP_TO_HOST]⟩,
   ⟨0x3130, 0, 1, [F.PTP_DISCARD]⟩]

/-- The registers of the port window, wide groups apart. -/
def regsPort : List RegInfo := regsPort0 ++ regsPort1 ++ regsPort2 ++ regsPort3 ++ regsPort4 ++ regsPort5 ++
     regsPort6 ++ regsPort7

def regsPNL0 : List RegInfo :=
  [⟨0x0, 0x100, 8, [F.PNL_CTL.BURST_TIMER, F.PNL_CTL.HIGH_PCP, F.PNL_CTL.WAKE, F.PNL_CTL.PLCA_EN, F.PNL_CTL.ENABLE]⟩,
   ⟨0x4, 0x100, 8, [F.PNL_PLCA.MAX_BURST, F.PNL_PLCA.TO_TIMER, F.PNL_PLCA.NODE_COUNT, F.PNL_PLCA.NODE_ID]⟩,
   ⟨0x8, 0x100, 8, [F.PNL_STATUS.DEFERRING, F.PNL_STATUS.ENERGY, F.PNL_STATUS.PLCA_OK]⟩,
   ⟨0xc, 0x100, 8, [F.PNL_RX_FRAMES]⟩,
   ⟨0x10, 0x100, 8, [F.PNL_TX_FRAMES]⟩,
   ⟨0x14, 0x100, 8, [F.PNL_COLLISIONS]⟩,
   ⟨0x18, 0x100, 8, [F.PNL_EXCESS_COLL]⟩,
   ⟨0x1c, 0x100, 8, [F.PNL_DROPS]⟩]

/-- The registers of window PNL, wide groups apart. -/
def regsPNL : List RegInfo := regsPNL0

def regsSID0 : List RegInfo :=
  [⟨0x0, 0, 1, [F.SID_CTL.ENABLE]⟩,
   ⟨0x4, 0, 1, [F.SID_IPMASK.SRC_PORT_IGN, F.SID_IPMASK.DSCP_IGN, F.SID_IPMASK.SRC_IP_IGN, F.SID_IPMASK.VID_IGN]⟩,
   ⟨0x8, 0, 1, [F.SID_UNBLOCK.TARGET, F.SID_UNBLOCK.INDEX]⟩,
   ⟨0xc, 0, 1, [F.SID_STATUS.FULL_BUCKETS, F.SID_STATUS.ID_USED]⟩,
   ⟨0x100, 4, 64, [F.SID_DEFAULT.DEFAULT_EN, F.SID_DEFAULT.ISH]⟩,
   ⟨0x200, 4, 8, [F.SID_DEFAULT_PNL.DEFAULT_EN, F.SID_DEFAULT_PNL.ISH]⟩,
   ⟨0x300, 0, 1, [F.SID_NOMATCH_DROP]⟩,
   ⟨0x304, 0, 1, [F.SID_DISABLED_DROP]⟩,
   ⟨0x308, 0, 1, [F.SID_DISCARD_DROP]⟩,
   ⟨0x30c, 0, 1, [F.SID_PARITY_DROP]⟩,
   ⟨0x310, 0, 1, [F.SID_RTAG_NO_SEQ]⟩,
   ⟨0x314, 0, 1, [F.SID_COLLECT_ABORT]⟩]

def regsSID1 : List RegInfo :=
  [⟨0x318, 0, 1, [F.SID_FANOUT_DROP]⟩]

/-- The registers of window SID, wide groups apart. -/
def regsSID : List RegInfo := regsSID0 ++ regsSID1

def regsMIX0 : List RegInfo :=
  [⟨0x0, 0, 1, [F.MIX_CTL.REBAL_EN, F.MIX_CTL.ENABLE]⟩,
   ⟨0x4, 0, 1, [F.MIX_STATUS.COMMIT_PENDING, F.MIX_STATUS.OPER_BANK, F.MIX_STATUS.SUMS_OPER]⟩,
   ⟨0x8, 0, 1, [F.MIX_REBAL.MAX_MOVES]⟩,
   ⟨0x100, 0, 1, [F.MIX_PINNED_MAP]⟩,
   ⟨0x104, 0, 1, [F.MIX_GATED_MAP]⟩]

/-- The registers of window MIX, wide groups apart. -/
def regsMIX : List RegInfo := regsMIX0

def regsEng0 : List RegInfo :=
  [⟨0x0, 0, 1, [F.ENG_ALLOW.ALLOW]⟩,
   ⟨0x4, 0, 1, [F.ENG_STATUS.PINNED, F.ENG_STATUS.GATED, F.ENG_STATUS.STORE_USED]⟩,
   ⟨0x8, 0, 1, [F.ENG_PARITY.VALID, F.ENG_PARITY.ADDRESS]⟩,
   ⟨0x100, 4, 32, [F.ENG_LOAD.BATCHES, F.ENG_LOAD.PINNED_ANY, F.ENG_LOAD.MAX_STEPS, F.ENG_LOAD.SUMS]⟩,
   ⟨0x200, 0, 1, [F.ENG_FRAMES_OUT]⟩,
   ⟨0x204, 0, 1, [F.ENG_ABSENT_SAMPLES]⟩,
   ⟨0x208, 0, 1, [F.ENG_LATE_SAMPLES]⟩,
   ⟨0x20c, 0, 1, [F.ENG_TS_REJECT]⟩,
   ⟨0x210, 0, 1, [F.ENG_NO_DEADLINE]⟩,
   ⟨0x214, 0, 1, [F.ENG_LATE_OUTPUT]⟩,
   ⟨0x218, 0, 1, [F.ENG_STORE_PARITY]⟩,
   ⟨0x21c, 0, 1, [F.ENG_TABLE_PARITY]⟩]

def regsEng1 : List RegInfo :=
  [⟨0x220, 0, 1, [F.ENG_VIDEO_HOLD]⟩,
   ⟨0x224, 0, 1, [F.ENG_VIDEO_BLACK]⟩,
   ⟨0x228, 0, 1, [F.ENG_MOVES]⟩,
   ⟨0x22c, 0, 1, [F.ENG_REBAL_CONFLICT]⟩,
   ⟨0x230, 0, 1, [F.ENG_GROUP_WITHHELD]⟩,
   ⟨0x234, 0, 1, [F.ENG_UNSENT_DROP]⟩]

/-- The registers of the eng window, wide groups apart. -/
def regsEng : List RegInfo := regsEng0 ++ regsEng1

def regsCON0 : List RegInfo :=
  [⟨0x0, 0, 1, [F.CON_CTL.CYCLE, F.CON_CTL.RING_ID, F.CON_CTL.ENABLE]⟩,
   ⟨0x4, 0, 1, [F.CON_PORTS.PORT_E, F.CON_PORTS.PORT_W]⟩,
   ⟨0x8, 0, 1, [F.CON_NODE.PRECEDENCE, F.CON_NODE.REMOTE_EN, F.CON_NODE.COLDSTART_EN, F.CON_NODE.SYNC,
     F.CON_NODE.NODE_ID]⟩,
   ⟨0xc, 0, 1, [F.CON_MGR.MGR_TIMEOUT, F.CON_MGR.RANK]⟩,
   ⟨0x10, 0, 1, [F.CON_ETYPE.ETYPE]⟩,
   ⟨0x14, 0, 1, [F.CON_BUS.LAG, F.CON_BUS.CH64]⟩,
   ⟨0x18, 0, 1, [F.CON_PHASE.PHASE]⟩,
   ⟨0x1c, 0, 1, [F.CON_TRAIN.WINDOW]⟩,
   ⟨0x100, 0, 1, [F.CON_SYNC.LISTEN, F.CON_SYNC.OFFSET_LIMIT, F.CON_SYNC.PRECISION]⟩,
   ⟨0x104, 0, 1, [F.CON_RATE_LIMIT.LIMIT]⟩,
   ⟨0x108, 0, 1, [F.CON_STATE.MGR_NODE, F.CON_STATE.LIMIT_RUN, F.CON_STATE.STEER_HOLD, F.CON_STATE.STEER_PINNED,
     F.CON_STATE.SPLIT, F.CON_STATE.WRAP_E, F.CON_STATE.WRAP_W, F.CON_STATE.E_DOWN, F.CON_STATE.W_DOWN,
     F.CON_STATE.MANAGER, F.CON_STATE.JOINED, F.CON_STATE.STATE]⟩,
   ⟨0x10c, 0, 1, [F.CON_CORR.OFFSET]⟩]

def regsCON1 : List RegInfo :=
  [⟨0x110, 0, 1, [F.CON_RATE.RATE]⟩,
   ⟨0x114, 0, 1, [F.CON_STEER.STEER]⟩,
   ⟨0x118, 0, 1, [F.CON_LOOP.FOLDED, F.CON_LOOP.LOOP]⟩,
   ⟨0x11c, 0, 1, [F.CON_ACCEPT.K, F.CON_ACCEPT.USED, F.CON_ACCEPT.REJECTED, F.CON_ACCEPT.ACCEPTED]⟩,
   ⟨0x200, 4, 64, [F.CON_REJECT.REJECTS]⟩,
   ⟨0x300, 0, 1, [F.TRAIN_FCS_ERR]⟩,
   ⟨0x304, 0, 1, [F.TRAIN_POISON_RX]⟩,
   ⟨0x308, 0, 1, [F.TRAIN_FOREIGN]⟩,
   ⟨0x30c, 0, 1, [F.TRAIN_COLLIDE]⟩,
   ⟨0x310, 0, 1, [F.TRAIN_LATE]⟩,
   ⟨0x314, 0, 1, [F.TRAIN_OVERRUN]⟩,
   ⟨0x318, 0, 1, [F.TRAIN_MISSED]⟩]

def regsCON2 : List RegInfo :=
  [⟨0x31c, 0, 1, [F.SYNC_LATE]⟩,
   ⟨0x320, 0, 1, [F.SYNC_FOREIGN]⟩,
   ⟨0x324, 0, 1, [F.SYNC_NO_DELAY]⟩,
   ⟨0x328, 0, 1, [F.CS_ATTEMPTS]⟩,
   ⟨0x32c, 0, 1, [F.CS_YIELD]⟩,
   ⟨0x330, 0, 1, [F.CS_IGNORED]⟩,
   ⟨0x334, 0, 1, [F.CS_FAILED]⟩,
   ⟨0x338, 0, 1, [F.LIMIT_EXCEED]⟩,
   ⟨0x33c, 0, 1, [F.PASSIVE_ENTRIES]⟩,
   ⟨0x340, 0, 1, [F.WRAP_EVENTS]⟩,
   ⟨0x344, 0, 1, [F.MGR_TAKEOVERS]⟩,
   ⟨0x348, 0, 1, [F.CONTRIB_ABSENT]⟩]

def regsCON3 : List RegInfo :=
  [⟨0x34c, 0, 1, [F.STEER_CONFLICT]⟩,
   ⟨0x350, 0, 1, [F.REMOTE_DONE]⟩,
   ⟨0x354, 0, 1, [F.REMOTE_FAILED]⟩,
   ⟨0x800, 4, 256, [F.CON_SECTION]⟩]

/-- The registers of window CON, wide groups apart. -/
def regsCON : List RegInfo := regsCON0 ++ regsCON1 ++ regsCON2 ++ regsCON3

def regsNTM0 : List RegInfo :=
  [⟨0x0, 0, 1, [F.NTM_CTL.GM_SYNCED, F.NTM_CTL.SLAVE_PORT, F.NTM_CTL.ROLE, F.NTM_CTL.PPS_IN_EN, F.NTM_CTL.PPS_OUT_EN,
     F.NTM_CTL.ENABLE]⟩,
   ⟨0x4, 0, 1, [F.NTM_STATUS.IN_LIMIT_RUN, F.NTM_STATUS.STEP_WAIT, F.NTM_STATUS.SLEWING, F.NTM_STATUS.SYNC_TIMEOUT,
     F.NTM_STATUS.SYNCED]⟩,
   ⟨0x8, 0, 1, [F.NTM_INC_FRAC]⟩,
   ⟨0xc, 0, 1, [F.NTM_INC_INT]⟩,
   ⟨0x10, 0, 1, [F.NTM_TEMP_FRAC]⟩,
   ⟨0x14, 0, 1, [F.NTM_TEMP_INT]⟩,
   ⟨0x18, 0, 1, [F.NTM_TEMP_COUNT]⟩,
   ⟨0x1c, 0, 1, [F.NTM_STEP_CTL.MODE, F.NTM_STEP_CTL.GO]⟩,
   ⟨0x100, 0, 1, [F.NTM_STEP_NS]⟩,
   ⟨0x104, 0, 1, [F.NTM_STEP_SL]⟩,
   ⟨0x108, 0, 1, [F.NTM_STEP_SH]⟩,
   ⟨0x10c, 0, 1, [F.NTM_PTP.DOMAIN, F.NTM_PTP.SYNC_LOG, F.NTM_PTP.TRANSPORT]⟩]

def regsNTM1 : List RegInfo :=
  [⟨0x110, 0, 1, [F.NTM_SYNC.LIMIT, F.NTM_SYNC.TIMEOUT]⟩,
   ⟨0x114, 0, 1, [F.NTM_PPS]⟩,
   ⟨0x118, 0, 1, [F.NTM_PPS_OFFSET]⟩,
   ⟨0x200, 0, 1, [F.NTM_RX_BASE_L]⟩,
   ⟨0x204, 0, 1, [F.NTM_RX_BASE_H]⟩,
   ⟨0x208, 0, 1, [F.NTM_RX_SIZE]⟩,
   ⟨0x20c, 0, 1, [F.NTM_RX_HEAD]⟩,
   ⟨0x210, 0, 1, [F.NTM_RX_TAIL]⟩,
   ⟨0x400, 0, 1, [F.NTM_STEP_COUNT]⟩,
   ⟨0x404, 0, 1, [F.NTM_RX_DROP]⟩,
   ⟨0x408, 0, 1, [F.NTM_PPS_IN_EDGES]⟩,
   ⟨0x40c, 0, 1, [F.NTM_PPS_IN_OVERRUN]⟩]

def regsNTM2 : List RegInfo :=
  [⟨0x410, 0, 1, [F.NTM_SYNC_LOST_EVENTS]⟩]

/-- The registers of window NTM, wide groups apart. -/
def regsNTM : List RegInfo := regsNTM0 ++ regsNTM1 ++ regsNTM2

def regsDMA0 : List RegInfo :=
  [⟨0x0, 0, 1, [F.DMA_CTL.CKPT_D63, F.DMA_CTL.ENABLE]⟩,
   ⟨0x4, 0, 1, [F.DMA_STATUS.SAFE_HOLD, F.DMA_STATUS.RUNNING]⟩,
   ⟨0x10, 0, 1, [F.DMA_NOT_OWNED]⟩,
   ⟨0x14, 0, 1, [F.DMA_FRAMES_BUILT]⟩,
   ⟨0x18, 0, 1, [F.DMA_FRAME_STATE_DISCARD]⟩,
   ⟨0x100, 4, 64, [F.DMA_CH_CTL.PAUSE, F.DMA_CH_CTL.ENABLE]⟩,
   ⟨0x200, 4, 64, [F.DMA_CH_STATUS.LAST_STATUS, F.DMA_CH_STATUS.ERR_PAUSED, F.DMA_CH_STATUS.STATE]⟩,
   ⟨0x300, 4, 64, [F.DMA_CH_TAIL]⟩,
   ⟨0x400, 4, 64, [F.DMA_CH_HEAD.CQ_HEAD, F.DMA_CH_HEAD.HEAD]⟩,
   ⟨0x500, 4, 64, [F.DMA_CH_CQ_TAIL]⟩,
   ⟨0x800, 0x10, 64, [F.DMA_CH_DESC_L.ADDR, F.DMA_CH_DESC_L.LOG2]⟩,
   ⟨0x804, 0x10, 64, [F.DMA_CH_DESC_H]⟩]

def regsDMA1 : List RegInfo :=
  [⟨0x808, 0x10, 64, [F.DMA_CH_CQ_L.ADDR, F.DMA_CH_CQ_L.LOG2]⟩,
   ⟨0x80c, 0x10, 64, [F.DMA_CH_CQ_H]⟩,
   ⟨0xc00, 8, 64, [F.DMA_CH_POS_OM.O, F.DMA_CH_POS_OM.M]⟩,
   ⟨0xc04, 8, 64, [F.DMA_CH_POS_IN]⟩,
   ⟨0xe00, 8, 64, [F.DMA_CH_DONE]⟩,
   ⟨0xe04, 8, 64, [F.DMA_CH_ERRORS]⟩]

/-- The registers of window DMA, wide groups apart. -/
def regsDMA : List RegInfo := regsDMA0 ++ regsDMA1

def regsCXM0 : List RegInfo :=
  [⟨0x0, 0, 1, [F.CXM_CTL.ENUM, F.CXM_CTL.ENABLE]⟩,
   ⟨0x4, 0, 1, [F.CXM_CKPT.VALID, F.CXM_CKPT.PORT, F.CXM_CKPT.BASE]⟩,
   ⟨0x8, 0, 1, [F.CXM_ENTRY_REFUSED.REFUSED]⟩,
   ⟨0x100, 0x40, 4, [F.CXM_PORT_STATUS.HEAD, F.CXM_PORT_STATUS.MHD, F.CXM_PORT_STATUS.DEGRADED,
     F.CXM_PORT_STATUS.SPEED, F.CXM_PORT_STATUS.WIDTH, F.CXM_PORT_STATUS.STATE]⟩,
   ⟨0x104, 0x40, 4, [F.CXM_PORT_CAP.REPORTED, F.CXM_PORT_CAP.MAPPED]⟩,
   ⟨0x108, 0x40, 4, [F.CXM_PORT_LAT.MEAN, F.CXM_PORT_LAT.MIN]⟩,
   ⟨0x10c, 0x40, 4, [F.CXM_PORT_LAT_MAX]⟩,
   ⟨0x110, 0x40, 4, [F.CXM_PORT_LOAD.READ, F.CXM_PORT_LOAD.WRITE]⟩,
   ⟨0x114, 0x40, 4, [F.POISON_READS]⟩,
   ⟨0x118, 0x40, 4, [F.READ_TIMEOUTS]⟩,
   ⟨0x11c, 0x40, 4, [F.LINK_DOWN_EVENTS]⟩]

/-- The registers of window CXM, wide groups apart. -/
def regsCXM : List RegInfo := regsCXM0

def regsHIF0 : List RegInfo :=
  [⟨0x0, 4, 16, [F.HIF_MB_REQ]⟩,
   ⟨0x100, 4, 16, [F.HIF_MB_RESP]⟩,
   ⟨0x200, 0, 1, [F.HIF_MB_DOORBELL.RING]⟩,
   ⟨0x204, 0, 1, [F.HIF_MB_STATUS.PARKED, F.HIF_MB_STATUS.EXECUTING, F.HIF_MB_STATUS.DONE, F.HIF_MB_STATUS.BUSY]⟩,
   ⟨0x208, 0, 1, [F.HIF_MB_CTL.IRQ_EN]⟩,
   ⟨0x20c, 0, 1, [F.HIF_STATE.FUNCTION, F.HIF_STATE.WIPING, F.HIF_STATE.LIFECYCLE, F.HIF_STATE.OPSTATE]⟩,
   ⟨0x210, 0, 1, [F.HIF_CTL.HOT_RESET_ACT]⟩,
   ⟨0x214, 0, 1, [F.HIF_DOORBELL_DROP]⟩,
   ⟨0x218, 0, 1, [F.HIF_PARTIAL_WRITE]⟩,
   ⟨0x21c, 0, 1, [F.HIF_CMDS]⟩,
   ⟨0x300, 4, 16, [F.HIF_VF_DMA.COUNT, F.HIF_VF_DMA.BASE]⟩,
   ⟨0x400, 4, 16, [F.HIF_VF_ISH.LIMIT, F.HIF_VF_ISH.BASE]⟩]

/-- The registers of window HIF, wide groups apart. -/
def regsHIF : List RegInfo := regsHIF0

def regsREG0 : List RegInfo :=
  [⟨0x0, 0, 1, [F.REG_LOCK_SYS.LOCK_SYS, F.REG_LOCK_SYS.LOCK_HIF]⟩,
   ⟨0x4, 0, 1, [F.REG_LOCK_ENG.LOCK_ENG]⟩,
   ⟨0x8, 0, 1, [F.REG_LOCK_PORT_L.LOCK_PORT]⟩,
   ⟨0xc, 0, 1, [F.REG_LOCK_PORT_H.LOCK_PORT]⟩,
   ⟨0x100, 0, 1, [F.REG_WI_STATUS.WRITE_IGNORED, F.REG_WI_STATUS.MORE, F.REG_WI_STATUS.SPACE,
     F.REG_WI_STATUS.FUNCTION, F.REG_WI_STATUS.CAUSE, F.REG_WI_STATUS.CHANNEL]⟩,
   ⟨0x104, 0, 1, [F.REG_WI_ADDR.ADDRESS]⟩,
   ⟨0x108, 0, 1, [F.REG_WI_DATA.DATA]⟩,
   ⟨0x10c, 0, 1, [F.REG_WI_COUNT.COUNT]⟩,
   ⟨0x200, 0, 1, [F.REG_TRIP_STATUS.VALID, F.REG_TRIP_STATUS.COPY, F.REG_TRIP_STATUS.ADDRESS]⟩,
   ⟨0x204, 0, 1, [F.REG_TRIP_FATAL.VALID, F.REG_TRIP_FATAL.ADDRESS]⟩,
   ⟨0x208, 0, 1, [F.REG_TRIP_CORRECTED.CORRECTED]⟩,
   ⟨0x20c, 0, 1, [F.REG_TRIP_PASSES.PASSES]⟩]

def regsREG1 : List RegInfo :=
  [⟨0x300, 0, 1, [F.WRW_ADDR.ADDR]⟩,
   ⟨0x304, 0, 1, [F.WRW_CTL.VALID, F.WRW_CTL.BUSY, F.WRW_CTL.BAD, F.WRW_CTL.RELEASE, F.WRW_CTL.WORDS]⟩,
   ⟨0x320, 4, 8, [F.WRW_DATA.DATA]⟩]

/-- The registers of window REG, wide groups apart. -/
def regsREG : List RegInfo := regsREG0 ++ regsREG1

def regsPWR0 : List RegInfo :=
  [⟨0x800, 0, 1, [F.PAIR_CTL.UNIT, F.PAIR_CTL.PAIR_EN]⟩,
   ⟨0x804, 0, 1, [F.PAIR_GEN.CONFIG_GEN]⟩,
   ⟨0x808, 0, 1, [F.PAIR_TIMING.MAX_AGE]⟩,
   ⟨0x80c, 0, 1, [F.PAIR_PHASE.PHASE]⟩,
   ⟨0x810, 0, 1, [F.PAIR_STATUS.LAST_OUTCOME, F.PAIR_STATUS.LAST_SLOT, F.PAIR_STATUS.WRITING, F.PAIR_STATUS.TAKEOVER,
     F.PAIR_STATUS.READY, F.PAIR_STATUS.ALIVE_RUN, F.PAIR_STATUS.ROLE_STATE, F.PAIR_STATUS.ROLE_ACTIVE]⟩,
   ⟨0x814, 0, 1, [F.PAIR_SEQ.SEQ]⟩,
   ⟨0x818, 0, 1, [F.PAIR_TAKEOVER_NS.DURATION]⟩,
   ⟨0x820, 0, 1, [F.CKPT_WRITTEN]⟩,
   ⟨0x824, 0, 1, [F.CKPT_WRITE_FAIL]⟩,
   ⟨0x828, 0, 1, [F.CKPT_SKIPPED]⟩,
   ⟨0x82c, 0, 1, [F.TAKEOVERS]⟩,
   ⟨0x830, 0, 1, [F.TAKEOVER_NO_CKPT]⟩]

def regsPWR1 : List RegInfo :=
  [⟨0x834, 0, 1, [F.STATE_MISMATCH]⟩,
   ⟨0x0, 0, 1, [F.PWR_STATE.TRANSITION, F.PWR_STATE.STATE]⟩,
   ⟨0x4, 0, 1, [F.PWR_RESET_CAUSE]⟩,
   ⟨0x8, 0, 1, [F.PWR_BUDGET]⟩,
   ⟨0xc, 0, 1, [F.PWR_WARM_COUNT]⟩,
   ⟨0x10, 0, 1, [F.PWR_BLOCK_COUNT]⟩,
   ⟨0x100, 0, 1, [F.PWR_WAKE_CTL.HOST_WAKE, F.PWR_WAKE_CTL.AUTO_EXIT, F.PWR_WAKE_CTL.EN]⟩,
   ⟨0x104, 0, 1, [F.PWR_WAKE_CAUSE.PORT, F.PWR_WAKE_CAUSE.CAUSE]⟩,
   ⟨0x108, 0, 1, [F.PWR_WAKE_AT]⟩,
   ⟨0x10c, 0, 1, [F.PWR_WAKE_TIMES.EXIT, F.PWR_WAKE_TIMES.ENTRY]⟩,
   ⟨0x200, 0, 1, [F.PWR_AVS_CTL.RAIL, F.PWR_AVS_CTL.AVS_EN]⟩,
   ⟨0x204, 0, 1, [F.PWR_AVS_BOUNDS.MAX_MV, F.PWR_AVS_BOUNDS.MIN_MV]⟩]

def regsPWR2 : List RegInfo :=
  [⟨0x208, 0, 1, [F.PWR_AVS_STATUS.TARGET_MV, F.PWR_AVS_STATUS.STOPPED, F.PWR_AVS_STATUS.PINNED,
     F.PWR_AVS_STATUS.SET_MV]⟩,
   ⟨0x20c, 0, 1, [F.AVS_CONFLICT]⟩,
   ⟨0x300, 8, 6, [F.PWR_RAIL_VI.I, F.PWR_RAIL_VI.V]⟩,
   ⟨0x304, 8, 6, [F.PWR_RAIL_LIM.FAIL_PM, F.PWR_RAIL_LIM.WARN_PM]⟩,
   ⟨0x400, 0, 1, [F.PWR_THERM_CTL.CRIT_C, F.PWR_THERM_CTL.WARN_C]⟩,
   ⟨0x404, 0, 1, [F.PWR_THERM_MAX.SENSOR, F.PWR_THERM_MAX.TEMP]⟩,
   ⟨0x440, 4, 38, [F.PWR_THERM_SENS]⟩,
   ⟨0x600, 4, 35, [F.PWR_XING_DISCARD.DISCARDS]⟩]

/-- The registers of window PWR, wide groups apart. -/
def regsPWR : List RegInfo := regsPWR0 ++ regsPWR1 ++ regsPWR2

def regsFLT0 : List RegInfo :=
  [⟨0x0, 0, 1, [F.FLT_CTL.HOLDOFF, F.FLT_CTL.FIRST_MIN, F.FLT_CTL.HIST_MIN, F.FLT_CTL.FIRST_REARM]⟩,
   ⟨0x4, 0, 1, [F.FLT_STATUS.HIST_DEPTH, F.FLT_STATUS.FIRST_VALID, F.FLT_STATUS.ANY, F.FLT_STATUS.SAFE,
     F.FLT_STATUS.HIGHEST]⟩,
   ⟨0x8, 0, 1, [F.FLT_FORCE.KEY]⟩,
   ⟨0xc, 0, 1, [F.FLT_COUNT_S0]⟩,
   ⟨0x10, 0, 1, [F.FLT_COUNT_S1]⟩,
   ⟨0x14, 0, 1, [F.FLT_COUNT_S2]⟩,
   ⟨0x18, 0, 1, [F.FLT_COUNT_S3]⟩,
   ⟨0x1c, 0, 1, [F.FLT_HIST_LOST]⟩,
   ⟨0x100, 4, 8, [F.FLT_CAUSE]⟩,
   ⟨0x200, 4, 8, [F.FLT_LIVE]⟩,
   ⟨0x300, 4, 8, [F.FLT_IRQ_EN]⟩]

/-- The registers of window FLT, wide groups apart. -/
def regsFLT : List RegInfo := regsFLT0

def regsBST0 : List RegInfo :=
  [⟨0x0, 0, 1, [F.BST_STATUS.WAVE, F.BST_STATUS.AUTH_FAILS, F.BST_STATUS.SCAN_OPEN, F.BST_STATUS.WIPING,
     F.BST_STATUS.AUTH_LOCKOUT, F.BST_STATUS.RUNNING]⟩,
   ⟨0x4, 0, 1, [F.BST_KEY_STATUS.LAST_CLEAR, F.BST_KEY_STATUS.LOADED]⟩,
   ⟨0x8, 0, 1, [F.BST_FUSE.BURN, F.BST_FUSE.BURN_BUSY, F.BST_FUSE.RECORDS_USED]⟩,
   ⟨0x100, 4, 32, [F.BST_MAP.PRESENT, F.BST_MAP.SOFT, F.BST_MAP.FUSED, F.BST_MAP.PHYSICAL]⟩,
   ⟨0x200, 0, 1, [F.BST_RUNS]⟩,
   ⟨0x204, 0, 1, [F.BST_UNITS_FAILED]⟩,
   ⟨0x208, 0, 1, [F.BST_REPAIRS]⟩,
   ⟨0x20c, 0, 1, [F.BST_SCAN_REFUSED]⟩,
   ⟨0x210, 0, 1, [F.BST_WIPES]⟩]

/-- The registers of window BST, wide groups apart. -/
def regsBST : List RegInfo := regsBST0

/-- The registers of a canonical window (R320). -/
def regsOf (w : Nat) : List RegInfo :=
  if 0x50 ≤ w then regsEng
  else if 0x10 ≤ w then regsPort
  else match w with
  | 0 => regsHIF
  | 1 => regsREG
  | 2 => regsFLT
  | 3 => regsPWR
  | 4 => regsNTM
  | 5 => regsCON
  | 6 => regsDMA
  | 7 => regsCXM
  | 8 => regsMIX
  | 9 => regsBST
  | 10 => regsSID
  | _ => regsPNL

/-- The mask of a group whose table decodes offset bits [h:2] (R323). -/
def maskTo (h : Nat) : Nat := 2 ^ (h + 1) - 4

/-- What the groups of a port window decode. -/
def portMask (g : Nat) : Nat :=
  match g with
  | 0x0000 | 0x3000 | 0x3100 => maskTo 5
  | 0x0100 | 0x0200 => maskTo 3
  | 0x0400 => 0xF8
  | 0x1300 => 0x10
  | 0x2100 => maskTo 6
  | 0x2300 => 0xE0
  | _ => maskTo 4

/-- What the groups of an engine-island window decode. -/
def engMask (g : Nat) : Nat := if g = 0 then maskTo 4 else if g = 0x100 then maskTo 6 else maskTo 5

/-- What the groups of a system window decode. -/
def sysMask (w g : Nat) : Nat :=
  match w with
  | 0 => if g = 0x200 then maskTo 4 else maskTo 5
  | 1 => if g = 0x300 then maskTo 5 else maskTo 3
  | 2 => if g = 0x400 then 0x10 else maskTo 4
  | 3 => if g < 0x300 then maskTo 4 else if g = 0x300 ∨ g = 0x800 then maskTo 5 else maskTo 7
  | 4 => if g = 0x300 then 0x10 else maskTo 4
  | 5 => if g < 0x200 then maskTo 4 else if g = 0x300 then maskTo 6 else maskTo 7
  | 6 => if g = 0 then maskTo 4 else maskTo 7
  | 7 => if g = 0 then maskTo 4 else maskTo 7
  | 8 => if g = 0x100 then maskTo 3 else maskTo 4
  | 9 => if g = 0 then maskTo 3 else if g = 0x100 then maskTo 6 else maskTo 4
  | 10 => if g = 0x100 then maskTo 7 else maskTo 4
  | _ => maskTo 4

/-- What a group of a window decodes. -/
def groupMask (w g : Nat) : Nat :=
  if 0x50 ≤ w then engMask g else if 0x10 ≤ w then portMask g else sysMask w g

/-- The canonical window and offset of a BAR0 offset (R321 to R323). -/
def canonical (a : Nat) : Nat × Nat :=
  let w0 := a / 0x1_0000 % 128
  let w1 := if w0 / 8 = 1 then w0 &&& 0x7B else w0
  let w := if 64 ≤ w1 then w1 &&& 0x5F else w1
  let off := a % 0x1_0000 &&& (if w < 0x10 then 0x0FFC else 0x3FFC)
  let g := off &&& 0xFF00
  (w, g + (off &&& groupMask w g))

/-- The unit of a window: the port, the engine island, or 0. -/
def unitOf (w : Nat) : Nat := if 0x50 ≤ w then w - 0x50 else w - 0x10

/-- A register that an access reaches: its window, its unit (of the HIF window, the function), its index, and its table. -/
structure Target where
  w : Nat
  u : Nat
  i : Nat
  reg : RegInfo
  deriving DecidableEq, Repr

/-- Instance `(off - reg.off) / st` of a register stands at `off`. -/
def RegInfo.indexAt (r : RegInfo) (off : Nat) : Option Nat :=
  if off < r.off then none
  else if r.st = 0 then (if off = r.off then some 0 else none)
  else if (off - r.off) % r.st = 0 ∧ (off - r.off) / r.st < r.n then some ((off - r.off) / r.st)
  else none

/-- The register at a canonical offset of a window, for unit `u`. -/
def lookReg (w u off : Nat) : Option Target :=
  (regsOf w).findSome? (fun r => (r.indexAt off).map (fun i => ⟨w, u, i, r⟩))

/-- The window belongs to a unit that the part lacks (R6, R324). -/
def State.absentWindow (s : State) (w : Nat) : Bool :=
  if 0x50 ≤ w then s.nIslands ≤ w - 0x50 else 0x10 ≤ w && s.nPorts ≤ w - 0x10

/-- The instance belongs to a unit that the part lacks, or is reserved: CXL ports (R294), islands and sensors (R392), and
the registers of a VF 0 (R319). -/
def State.absentIndex (s : State) (t : Target) : Bool :=
  match t.w with
  | 0 => 0x300 ≤ t.reg.off && t.i = 0
  | 3 =>
    if t.reg.off = 0x600 then (t.i < 16 && s.nIslands ≤ t.i) || (16 ≤ t.i && t.i < 32 && s.nIslands ≤ t.i - 16)
    else t.reg.off = 0x440 && !s.sensorPresent t.i
  | 7 => 0x100 ≤ t.reg.off && s.nCxl ≤ t.i
  | _ => false

/-- The register that an offset of the PF's BAR0 reaches; none where nothing is there. -/
def State.target (s : State) (a : Nat) : Option Target :=
  let (w, off) := canonical a
  if s.absentWindow w then none
  else (lookReg w (unitOf w) off).filter (fun t => !s.absentIndex t)

/-- The channel of a function's local index (R303). -/
def State.vfChan (s : State) (v i : Nat) : Option Nat :=
  if i < s.fld F.HIF_VF_DMA.COUNT 0 v then some (s.fld F.HIF_VF_DMA.BASE 0 v + i) else none

/-- The register that an offset of VF `v`'s BAR0 reaches (R303, R325): its mailbox registers, DMA_CTL and DMA_STATUS, and
the registers of its channels. -/
def State.vfTarget (s : State) (v a : Nat) : Option Target :=
  if a < 0x300 then
    let off := a &&& 0xFFC
    let g := off &&& 0xFF00
    lookReg 0 v (g + (off &&& sysMask 0 g))
  else if 0x1_0000 ≤ a ∧ a < 0x1_1000 then
    let off := a - 0x1_0000 &&& 0xFFC
    let g := off &&& 0xFF00
    (lookReg 6 0 (g + (off &&& sysMask 6 g))).bind (fun t =>
      if t.reg.off < 8 then some t
      else if t.reg.off < 0x100 then none
      else (s.vfChan v t.i).map (fun ch => { t with i := ch }))
  else none

/-- The register that a function's access reaches. -/
def State.targetOf (s : State) (fn a : Nat) : Option Target := if fn = 0 then s.target a else s.vfTarget fn a

end Sys2Proof.Machine
end

