-- ==== Sys2Proof/Machine/Steps.lean ====
section
/-! DEFINITION. A step of network time (R113, R243, R249, R444). -/

namespace Sys2Proof.Machine

/-- The counter takes the step's value with its fraction cleared, and a slew ends. -/
def State.stepTime (s : State) (w : StepWait) : State :=
  s.markTime.modTime (fun x => { x with nt := w.target * 2 ^ 32, rest := 0, oldUntil := 0, slewLeft := 0, step := none })

/-- A port's share: its Sentence takes up its new position, in a Clause that `parity` says is found with an error, and stamps taken
before lie across the step. -/
def State.stepPort (s : State) (p : Nat) (parity : Bool) : State :=
  ((s.senStep p parity).newSide p).modTsu p (fun x => { x with stepped := true })

/-- The step at its whole microsecond; `upsets` are the ports whose new Clause is found with a parity error. -/
def State.takeStep (s : State) (w : StepWait) (upsets : List Nat) : State :=
  let s := (s.runToNs w.at').stepTime w
  let s := ((List.range s.nPorts).foldl (fun t p => t.stepPort p (upsets.contains p)) s).abandonBatches
  (s.bump F.NTM_STEP_COUNT).raise 33 0

/-- NETWORK_TIME_STEP. -/
def execNetworkTimeStep (s : State) (upsets : List Nat := []) : Host.Outcome State Fault Refusal :=
  .next (match s.time.step with
    | none => s
    | some w => s.takeStep w upsets)

end Sys2Proof.Machine
end

