-- ==== Sys2Proof/Machine/RegRead.lean ====
section
/-! DEFINITION. Reading a register: the fields that show present conditions, the side effects of a read (R331, R368), and the
wide-read window (R340 to R342). -/

namespace Sys2Proof.Machine

/-! ### Fields that show present conditions -/

/-- A dword with fields replaced by values. -/
def putFields (v : Nat) (l : List (Field × Nat)) : Nat := l.foldl (fun a x => withBits a x.1.hi x.1.lo x.2) v

/-- PRT registers of port `p` (R69). -/
def State.viewPrt (s : State) (p off v : Nat) : Nat :=
  if off = 0x0C then
    putFields v
      [(F.PRT_STATUS.HELD, s.heldMap p), (F.PRT_STATUS.STATE_IDLE, (!s.dataMay p).toNat),
       (F.PRT_STATUS.FEC_DEGRADED, (s.on F.PRT_STATUS.LINK_UP p && Config.fecDegraded p s.lt).toNat)]
  else v

/-- SEN_STATUS of port `p` (R127). -/
def State.senStatus (s : State) (p v : Nat) : Nat :=
  let t := s.portNs p
  let q := s.senPos p t
  putFields v
    [(F.SEN_STATUS.CLAUSE, q.idx), (F.SEN_STATUS.PAST_END, q.pastEnd.toNat),
     (F.SEN_STATUS.IN_EXT, (q.oper && q.cycle.how = .extended : Bool).toNat),
     (F.SEN_STATUS.TRUNCATING, (q.oper && q.cycle.how = .truncated : Bool).toNat), (F.SEN_STATUS.HOLD, (s.holdAt p t).toNat)]

/-- QSH registers of port `p` (R151); the pool registers are the island's. -/
def State.viewQsh (s : State) (p i off v : Nat) : Nat :=
  let d := s.island (p / 4)
  match off with
  | 0x2010 => (s.port p).ingHeld
  | 0x210C => s.creditWord p i
  | 0x2200 => s.fld F.QSH_POOL_MIX (headPort p)
  | 0x2204 => s.fld F.QSH_POOL_DMA (headPort p)
  | 0x2208 => s.poolFree p
  | 0x220C => d.mixUsed
  | 0x2210 => d.dmaUsed
  | 0x2214 => d.ctrlUsed
  | 0x2218 => s.fld F.QSH_POOL_LOW (headPort p)
  | _ => v

/-- A port window. -/
def State.viewPort (s : State) (p i off v : Nat) : Nat :=
  if off < 0x1000 then s.viewPrt p off v
  else if off = 0x1004 then s.senStatus p v
  else s.viewQsh p i off v

/-- The load of engine `e` in the present millisecond: each sum and tile placed on it with its blocks by deadline instant. -/
def State.engineLoad (s : State) (e : Nat) : Loads :=
  let b := s.operBank
  let a := s.ns / 1000000 * 1000000
  let p := SMap.val s.mix.placed b ⟨[], []⟩
  (p.sums.filter (fun x => x.2 = e)).flatMap (fun x => onEngine e (s.famLoad b a [x.1])) ++
    ((s.sumTilesOf b).filter (fun x => p.tiles.any (fun y => y.1 = x.2 && y.2 = e))).flatMap (fun x =>
      onEngine e (s.tileLoad b a x.1 x.2))

/-- ENG_LOAD of engine `e` (R183). -/
def State.engLoad (s : State) (e : Nat) : Nat :=
  let b := s.operBank
  let p := SMap.val s.mix.placed b ⟨[], []⟩
  let sums := p.sums.filter (fun x => x.2 = e)
  let tiles := p.tiles.filter (fun x => x.2 = e)
  let bs := batchesOf (s.engineLoad e) e
  if ¬ s.mix.activated then 0
  else putFields 0
    [(F.ENG_LOAD.BATCHES, min 255 bs.length),
     (F.ENG_LOAD.PINNED_ANY, (sums.any (fun x => smPin (s.sum b x.1))).toNat),
     (F.ENG_LOAD.MAX_STEPS, (bs.map (fun x => ceilDiv x.2 1024)).foldl max 0),
     (F.ENG_LOAD.SUMS, min 4096 (sums.length + tiles.length))]

/-- An engine-island window. -/
def State.viewEng (s : State) (m i off v : Nat) : Nat :=
  if off = 4 then
    putFields v [(F.ENG_STATUS.GATED, (s.islandGated m).toNat), (F.ENG_STATUS.STORE_USED, (s.storeBlocks m).length)]
  else if off = 0x100 then s.engLoad (32 * m + i)
  else v

/-- HIF registers as function `fn` reads them; HIF_CTL is the PF's (R319). -/
def State.viewHif (s : State) (fn off v : Nat) : Nat :=
  if off = 0x20C then s.hifState fn else if off = 0x210 ∧ fn ≠ 0 then 0 else v

/-- FLT registers (R391). -/
def State.viewFlt (s : State) (i off v : Nat) : Nat :=
  if off = 4 then
    let cs := s.causes 0 ++ s.causes 1 ++ s.causes 2
    putFields v
      [(F.FLT_STATUS.HIST_DEPTH, s.flt.history.length), (F.FLT_STATUS.FIRST_VALID, s.flt.first.isSome.toNat),
       (F.FLT_STATUS.ANY, (cs ≠ [] : Bool).toNat), (F.FLT_STATUS.SAFE, (s.op = .safe : Bool).toNat),
       (F.FLT_STATUS.HIGHEST, (cs.map severity).foldl max 0)]
  else if off = 0x200 then s.liveWord i
  else v

/-- The code of PWR_STATE.STATE. -/
def PowerState.code : PowerState → Nat
  | .run => 0
  | .doze => 1
  | .standby => 2

/-- PWR and PAIR registers (R365, R392). -/
def State.viewPwr (s : State) (off v : Nat) : Nat :=
  if off = 0 then s.pwr.state.code + 16 * (s.pwr.entry.isSome || s.pwr.exit.isSome : Bool).toNat
  else if off = 0x810 then
    putFields v
      [(F.PAIR_STATUS.WRITING, s.pair.writing.isSome.toNat), (F.PAIR_STATUS.TAKEOVER, s.pair.takeover.isSome.toNat),
       (F.PAIR_STATUS.READY, s.pairReady.toNat), (F.PAIR_STATUS.ALIVE_RUN, s.aliveOk.toNat),
       (F.PAIR_STATUS.ROLE_STATE, s.roleState.toNat), (F.PAIR_STATUS.ROLE_ACTIVE, s.pair.roleLevel.toNat)]
  else v

/-- NTM registers (R265). -/
def State.viewNtm (s : State) (off v : Nat) : Nat :=
  if off = 4 then
    putFields v [(F.NTM_STATUS.STEP_WAIT, s.time.step.isSome.toNat), (F.NTM_STATUS.SLEWING, (s.time.slewLeft ≠ 0 : Bool).toNat)]
  else if off = 0x18 then s.slewCount
  else v

/-- CON registers: loop time and sections read on the manager only (R239). -/
def State.viewCon (s : State) (off v : Nat) : Nat :=
  if s.on F.CON_STATE.MANAGER then v
  else if off = 0x118 then putFields v [(F.CON_LOOP.LOOP, 0)]
  else if off = 0x800 then 0 else v

/-- DMA_STATUS (R293). -/
def State.viewDma (s : State) (off v : Nat) : Nat :=
  if off = 4 then
    putFields v
      [(F.DMA_STATUS.SAFE_HOLD, (s.op = .safe : Bool).toNat),
       (F.DMA_STATUS.RUNNING,
        ((List.range 64).filter (fun ch => s.chState ch = cRUNNING || s.chState ch = cPAUSING)).length)]
  else v

/-- MIX registers (R183). -/
def State.viewMix (s : State) (off v : Nat) : Nat :=
  match off with
  | 0x004 =>
    putFields v
      [(F.MIX_STATUS.COMMIT_PENDING, s.mix.pending.isSome.toNat),
       (F.MIX_STATUS.SUMS_OPER, if s.mix.activated then (s.validSums s.operBank).length else 0)]
  | 0x100 => bitMap 16 (fun m => s.on F.ENG_STATUS.PINNED m)
  | 0x104 => bitMap 16 s.islandGated
  | _ => v

/-- BST_MAP of island `i` (R411). -/
def State.bstMap (s : State) (i : Nat) : Nat :=
  let eng : Bool := 16 ≤ i
  let u := i % 16
  let on := fun (r : Repair) => r.engine = eng && r.logical = u
  if s.nIslands ≤ u then 0
  else putFields (s.physical eng u)
    [(F.BST_MAP.PRESENT, 1), (F.BST_MAP.SOFT, (s.bst.soft.any on).toNat),
     (F.BST_MAP.FUSED, (!s.bst.soft.any on && s.fuses.repairs.any on).toNat)]

/-- The valid identification entries. -/
def State.identsUsed (s : State) : List Nat := (s.listedIn (identTab 0) 16 131072).filter (fun i => idValid (s.identEntry i))

/-- SID_STATUS (R97). -/
def State.sidStatus (s : State) (v : Nat) : Nat :=
  let is := s.identsUsed
  let full := (is.map (· / 8)).eraseDups.filter (fun b => 8 ≤ (is.filter (fun i => i / 8 = b)).length)
  putFields v [(F.SID_STATUS.FULL_BUCKETS, min 15 full.length), (F.SID_STATUS.ID_USED, is.length)]

/-- The dword that a register shows, given what its fields hold. -/
def State.viewOf (s : State) (t : Target) (v : Nat) : Nat :=
  if 0x50 ≤ t.w then s.viewEng t.u t.i t.reg.off v
  else if 0x10 ≤ t.w then s.viewPort t.u t.i t.reg.off v
  else match t.w with
  | 0 => s.viewHif t.u t.reg.off v
  | 1 => if t.reg.off = 0x320 then (if s.on F.WRW_CTL.VALID then s.wide.words.getD t.i 0 else 0) else v
  | 2 => s.viewFlt t.i t.reg.off v
  | 3 => s.viewPwr t.reg.off v
  | 4 => s.viewNtm t.reg.off v
  | 5 => s.viewCon t.reg.off v
  | 6 => s.viewDma t.reg.off v
  | 8 => s.viewMix t.reg.off v
  | 9 => if t.reg.off = 0x100 then s.bstMap t.i else v
  | 10 => if t.reg.off = 0x0C then s.sidStatus v else v
  | 7 => if t.reg.off = 0x110 then s.cxlLoad t.i else v
  | 11 =>
    if t.reg.off = 8 then
      putFields v
        [(F.PNL_STATUS.DEFERRING, (s.deferring t.i).toNat), (F.PNL_STATUS.ENERGY, (s.panel t.i).energy.toNat)]
    else v
  | _ => v

/-- What a register reads: WO fields read 0 (R331). -/
def State.regValue (s : State) (t : Target) : Nat :=
  s.viewOf t (s.word (t.reg.fields.filter (fun f => f.acc ≠ .wo)) t.u t.i)

/-! ### A read (R323, R328, R331) -/

/-- The held words are gone: VALID, WORDS (R340). -/
def State.dropWide (s : State) : State :=
  ({ s with wide := { s.wide with words := [] } }.setf F.WRW_CTL.VALID 0).setf F.WRW_CTL.WORDS 0

/-- The side effects of a read: RC fields clear, QSH_POOL_LOW reloads, cause bits are seen, and the last word of a capture
ends it. -/
def State.readEffect (s : State) (t : Target) : State :=
  if 0x10 ≤ t.w ∧ t.w < 0x50 ∧ t.reg.off = 0x2218 then s.setf F.QSH_POOL_LOW (s.poolFree t.u) (headPort t.u)
  else if t.w = 2 ∧ t.reg.off = 0x100 then s.seeCauses t.i
  else if t.w = 1 ∧ t.reg.off = 0x320 then
    (if s.on F.WRW_CTL.VALID ∧ t.i + 1 = s.wide.words.length then s.dropWide else s)
  else (t.reg.fields.filter (fun f => f.acc = .rc)).foldl (fun u f => u.setf f 0 t.u t.i) s

/-- A window that reads 0 in STANDBY (R383). -/
def State.readBarred (s : State) (w : Nat) : Bool := s.pwr.state = .standby && 4 < w

/-- An access to a register of window `w` reaches the engine island that holds it (R17). -/
def State.reachWindow (s : State) (w : Nat) : State := if 0x50 ≤ w ∧ w < 0x50 + s.nIslands then s.reachEngine (w - 0x50) else s

/-! ### The three copies of a triplicated field (R337 to R339) -/

/-- The T part of an access code (R11). -/
def Access.hasT : Access → Bool
  | .rwt | .rwdt | .rwlt | .rwdlt => true
  | _ => false

/-- The triplicated field that an upset lies in, with its register: a lock bit is a field of its own. -/
def State.tripField (s : State) (x : TripUpset) : Option (Target × Field) :=
  (s.target x.addr).bind (fun t =>
    (t.reg.fields.find? (fun f => f.acc.hasT &&
      (if t.w = 1 then f.lo ≤ x.lo && x.hi ≤ f.hi && x.hi = x.lo else f.lo = x.lo && f.hi = x.hi))).map (fun f => (t, f)))

/-- One copy differs: it is rewritten from the majority (R338). -/
def State.tripCorrect (s : State) (addr copy : Nat) : State :=
  let t := s.bump F.REG_TRIP_CORRECTED.CORRECTED
  let t :=
    if t.on F.REG_TRIP_STATUS.VALID then t
    else ((t.setf F.REG_TRIP_STATUS.VALID 1).setf F.REG_TRIP_STATUS.COPY copy).setf F.REG_TRIP_STATUS.ADDRESS addr
  t.raise 2 addr

/-- All three copies differ: the field acts as copy 0 (R339). -/
def State.tripFail (s : State) (addr : Nat) : State :=
  ((s.setf F.REG_TRIP_FATAL.VALID 1).setf F.REG_TRIP_FATAL.ADDRESS addr).raise 3 addr

/-- The comparison of one field's copies. -/
def State.tripCompare (s : State) (x : TripUpset) : State :=
  match s.tripField x with
  | none => s
  | some (t, f) =>
    let n := 2 ^ (x.hi + 1 - x.lo)
    let a := x.copy0 % n
    let b := x.copy1 % n
    let c := x.copy2 % n
    let put := fun (u : State) (v : Nat) =>
      u.setf f (withBits (u.fld f t.u t.i) (x.hi - f.lo) (x.lo - f.lo) v) t.u t.i
    let addr := (canonical x.addr).1 * 0x1_0000 + (canonical x.addr).2
    if a = b ∧ b = c then put s a
    else if a = b then (put s a).tripCorrect addr 2
    else if a = c then (put s a).tripCorrect addr 1
    else if b = c then (put s b).tripCorrect addr 0
    else (put s a).tripFail addr

/-- What a field acts as while its copies differ: the bitwise majority, or copy 0 where a field of more bits has three copies that all
differ (R337, R339). -/
def tripActs (x : TripUpset) : Nat :=
  let n := 2 ^ (x.hi + 1 - x.lo)
  let (a, b, c) := (x.copy0 % n, x.copy1 % n, x.copy2 % n)
  if a = b ∨ a = c then a else if b = c then b else a

/-- An upset strikes: the field acts as its copies say, and they differ until they are compared or written. -/
def State.tripStrike (s : State) (x : TripUpset) : State :=
  match s.tripField x with
  | none => s
  | some (t, f) =>
    let s := s.setf f (withBits (s.fld f t.u t.i) (x.hi - f.lo) (x.lo - f.lo) (tripActs x)) t.u t.i
    let others := s.copies.filter (fun y => !((s.tripField y).any (fun z => z.1 = t) && y.lo = x.lo))
    { s with copies := others ++ [x] }

/-- The copies held that `f` picks are compared. A field that reads otherwise by now has been written since, in all its copies. -/
def State.compareHeld (s : State) (f : Target → Bool) : State :=
  let mine := s.copies.filter (fun x => (s.tripField x).any (fun y => f y.1))
  mine.foldl (fun u x =>
    if (u.tripField x).any (fun y => bitsOf (u.fld y.2 y.1.u y.1.i) (x.hi - y.2.lo) (x.lo - y.2.lo) = (tripActs x)) then u.tripCompare x else u)
    { s with copies := s.copies.filter (fun x => !mine.contains x) }

/-- A dword read at an offset of a function's BAR0: what it returns, and the state it leaves. -/
def State.readReg (s : State) (fn a : Nat) : Nat × State :=
  match s.targetOf fn a with
  | none => (0, s)
  | some t =>
    let s := s.reachWindow t.w
    if s.readBarred t.w then (0, s)
    else
      let u := (if t.w = 11 then s.panelSettle t.i else s).compareHeld (· = t)
      (u.regValue t, u.readEffect t)

/-- A dword read by the host. -/
def State.hostRead (s : State) (fn a : Nat) : State :=
  if s.hostUp && s.fnExists fn then
    let r := s.readReg fn a
    r.2.modHost (fun h => { h with readData := r.1 })
  else s

/-- A dword that the host reads in a space of a function: BAR2 is the PF's alone (R300, R301). -/
def State.readIn (s : State) (fn addr : Nat) : ReadSpace → State
  | .bar0 => s.hostRead fn addr
  | .bar2 => if s.hostUp && fn = 0 then (s.reachMix (addr % 2 ^ 30 / 4 * 4)).modHost (fun h => { h with readData := s.hostTableRead addr }) else s
  | .bar4 => if s.hostUp && s.fnExists fn then s.modHost (fun h => { h with readData := s.bar4Read fn addr }) else s
  | .config x => if s.hostUp && s.fnExists fn then s.modHost (fun h => { h with readData := s.cfgItem fn x }) else s

/-- RC_READ (R331), and every other read of a dword by the host (R300). -/
def execRcRead (fn addr : Nat) (s : State) (space : ReadSpace := .bar0) : Host.Outcome State Fault Refusal :=
  .next (s.readIn fn addr space)

/-! ### Wide values (R341) -/

/-- The words of a 64-bit value, of a time in ns and of a time with its fraction in 2^-16 ns. -/
def words64 (v : Nat) : List Nat := [v % 2 ^ 32, v / 2 ^ 32]
def wordsNs (t : Nat) : List Nat := [t % 1000000000, t / 1000000000 % 2 ^ 32, t / 1000000000 / 2 ^ 32 % 2 ^ 16]
def wordsFrac (t : Nat) : List Nat := wordsNs (t / 65536) ++ [t % 65536]

/-- The counters of group 0x0400 of a port, by slot (R70). -/
def prtStats : List Field :=
  [F.RX_FRAMES_OK, F.RX_OCTETS_OK, F.TX_FRAMES, F.TX_OCTETS, F.RX_FCS_ERR, F.RX_UNDERSIZE, F.RX_OVERSIZE,
   F.RX_DISABLED_DROP, F.RX_STATE_DISCARD, F.RX_ASSEMBLY_ERR, F.RX_PAUSE, F.TX_PREEMPTIONS, F.TX_LINK_ABORT,
   F.TX_OVERSIZE_DROP, F.RX_PARITY_DROP, F.TX_PARITY_ABORT, F.PAUSE_WDG_DISCARD, F.FEC_CORRECTED, F.FEC_UNCORRECTED,
   F.SHED_DONE, F.SHED_FAIL, F.SHED_NOACK, F.SHED_CONFLICT, F.SHED_FORCED_WIDEN, F.WAKE_MATCH, F.PARTNER_BAD_TLV,
   F.STATE_IDLE_FRAMES]

/-- A statistics counter captured and cleared, those of the FEC brought up to date first; a reserved slot captures as zero. -/
def State.capturePrt (s : State) (p slot : Nat) : List Nat × State :=
  match prtStats[slot]? with
  | none => ([0, 0], s)
  | some f =>
    let t := if f = F.FEC_CORRECTED ∨ f = F.FEC_UNCORRECTED then s.fecSync p else s
    (words64 (t.fld f p), t.setf f 0 p)

/-- SEN_CHANGE_TIME and SEN_CYCLE_START (R127). -/
def State.captureSen (s : State) (p slot : Nat) : List Nat :=
  if slot = 0 then wordsNs (if s.swapPending p then (s.port p).sen.change else (s.port p).sen.operC)
  else
    let q := s.senPos p (s.portNs p)
    wordsNs (if q.oper then q.cycle.start else (s.port p).sen.cycle)

/-- The depth and delay samples of class `c`, captured and zeroed (R147, R148, R151). -/
def State.captureQsh (s : State) (p c : Nat) : List Nat × State :=
  let d := s.port p
  let v := fun (m : SMap Nat) => SMap.val m c 0
  let sum := v d.delaySum
  ([v d.depthLast, v d.depthMax, v d.delayLast, v d.delayMax, sum % 2 ^ 32, sum / 2 ^ 32, v d.delayCount, 0],
   s.setPort p { d with
     depthMax := SMap.putD d.depthMax c 0 0
     delayMax := SMap.putD d.delayMax c 0 0
     delaySum := SMap.putD d.delaySum c 0 0
     delayCount := SMap.putD d.delayCount c 0 0 })

/-- NTM_TIME and NTM_PPS_IN_TIME (R265). -/
def State.captureNtm (s : State) (slot : Nat) : List Nat × State :=
  if slot = 0 then (wordsFrac (s.time.nt / 65536), s)
  else
    let w := wordsFrac s.time.ppsInTime
    (w.take 3 ++ [w.getD 3 0 + 2 ^ 31 * s.time.ppsInNew.toNat], s.modTime (fun x => { x with ppsInNew := false }))

/-- The words of a history record (R370). -/
def HistRec.words (r : HistRec) : List Nat :=
  let w := wordsNs r.ts
  [w.getD 0 0, w.getD 1 0,
   2 ^ 31 + r.first.toNat * 2 ^ 28 + r.lostBefore.toNat * 2 ^ 27 + r.sameCycle.toNat * 2 ^ 26 + r.sev * 2 ^ 24 +
     r.src * 2 ^ 16 + w.getD 2 0,
   r.info]

/-- FLT_HIST, whose capture removes the record, and FLT_FIRST (R371, R391). -/
def State.captureFlt (s : State) (slot : Nat) : List Nat × State :=
  if slot = 0 then
    match s.flt.history with
    | [] => ([0, 0, 0, 0], s)
    | r :: l => (r.words, { s with flt := { s.flt with history := l } })
  else
    match s.flt.first with
    | none => ([0, 0, 0, 0], s)
    | some r => (({ r with first := true, lostBefore := false, sameCycle := false } : HistRec).words, s)

/-- The words of the wide value at a BAR0 offset and what its capture leaves; none where the address names none. -/
def State.captureWide (s : State) (a : Nat) : Option (List Nat × State) :=
  let (w, off) := canonical a
  let g := off / 0x100
  let x := off % 0x100
  let p := unitOf w
  if s.absentWindow w ∨ 0x50 ≤ w then none
  else if 0x10 ≤ w then
    (match g with
     | 0x04 => some (s.capturePrt p (x / 8))
     | 0x13 => some (s.captureSen p (x / 16), s)
     | 0x23 => some (s.captureQsh p (x / 32))
     | _ => none)
  else if w = 4 ∧ g = 3 then some (s.captureNtm (x / 16))
  else if w = 2 ∧ g = 4 then some (s.captureFlt (x / 16))
  else none

/-- The owning island captures the value (R340 step 2); a window that reads 0 in STANDBY has none (R383). -/
def State.wideCapture (s : State) (a : Nat) : State :=
  let t := ({ s with wide := ⟨none, []⟩ } : State).setf F.WRW_CTL.BUSY 0
  match if t.readBarred (canonical a).1 then none else t.captureWide a with
  | none => t.setf F.WRW_CTL.BAD 1
  | some (ws, u) => (({ u with wide := ⟨none, ws⟩ } : State).setf F.WRW_CTL.VALID 1).setf F.WRW_CTL.WORDS ws.length

/-- WIDE_CAPTURE_DONE. -/
def execWideCaptureDone (s : State) : Host.Outcome State Fault Refusal :=
  .next (match s.wide.busy with
    | none => s
    | some a => s.wideCapture a)

/-- WIDE_READ_LAST_WORD: the read of WRW_DATA word WORDS − 1 (R340 step 3). -/
def execWideReadLastWord (s : State) : Host.Outcome State Fault Refusal :=
  .next (s.hostRead 0 (0x10320 + 4 * (s.wide.words.length - 1)))

end Sys2Proof.Machine
end

