-- ==== Sys2Proof/Machine/Regs.lean ====
section
/-! DEFINITION. Register writes: how each field is judged (R11, R329, R331 to R335), the refusal that a dword records, the
effect of a write of each register, and the REG block's own commands: locks, triplication, the wide-read window (R335 to
R342). -/

namespace Sys2Proof.Machine

/-! ### Access codes -/

/-- The parts of an access code (R11). -/
def Access.hasD : Access → Bool
  | .rwd | .rwdl | .rwdt | .rwdlt => true
  | _ => false
def Access.hasL : Access → Bool
  | .rwl | .rwdl | .rwlt | .rwdlt => true
  | _ => false
def Access.writable : Access → Bool
  | .ro | .rc => false
  | _ => true

/-- The value that a dword gives a field. -/
def Field.of (f : Field) (data : Nat) : Nat := bitsOf data f.hi f.lo

/-! ### Range rules (R331) -/

/-- Fields with a range of permitted values. -/
def ranges : List (Field × Nat × Nat) :=
  [(F.PRT_CTL.IFACE, 0, 2), (F.PRT_MAXLEN.MAXLEN, 64, 16000), (F.PRT_FC.WDG_TIME, 1, 65535), (F.PRT_FC.FC_MODE, 0, 2),
   (F.PRT_SHED_CTL.HIGH_PCT, 1, 100), (F.PRT_SHED_CTL.LOW_PCT, 1, 100), (F.PRT_SHED_CTL.MAX_WIDTH, 0, 2),
   (F.PRT_SHED_CTL.MIN_WIDTH, 0, 2), (F.QSH_AGE.AGE_TIME, 1, 4294967295), (F.QSH_SAMPLE.DELAY_K, 0, 16),
   (F.QSH_ING_LIMIT.ING_LIMIT, 0, 65024), (F.QSH_IDLE_SLOPE, 0, 800000000), (F.QSH_CLASS_LIMIT, 0, 1048576)] ++
  [(F.CON_MGR.MGR_TIMEOUT, 2, 255), (F.CON_BUS.LAG, 6, 48), (F.CON_BUS.CH64, 1, 16), (F.CON_PHASE.PHASE, 0, 124999),
   (F.CON_TRAIN.WINDOW, 1, 984), (F.CON_SYNC.LISTEN, 2, 255), (F.CON_SYNC.OFFSET_LIMIT, 1, 255),
   (F.CON_SYNC.PRECISION, 1, 255), (F.CON_RATE_LIMIT.LIMIT, 1, 1000000), (F.NTM_CTL.ROLE, 0, 2),
   (F.NTM_PTP.TRANSPORT, 0, 2), (F.NTM_SYNC.LIMIT, 1, 65535), (F.NTM_SYNC.TIMEOUT, 1, 65535), (F.NTM_PPS, 1, 999),
   (F.NTM_RX_SIZE, 6, 16), (F.TSU_CTL.PTP_ROLE, 0, 2), (F.TSU_PROBE.INTERVAL, 10, 65535), (F.TSU_CABLE.VF, 1, 1000)] ++
  [(F.DMA_CH_DESC_L.LOG2, 4, 16), (F.DMA_CH_CQ_L.LOG2, 4, 16), (F.PAIR_TIMING.MAX_AGE, 140, 65535),
   (F.PAIR_PHASE.PHASE, 0, 124999), (F.PWR_AVS_BOUNDS.MAX_MV, 680, 820), (F.PWR_AVS_BOUNDS.MIN_MV, 680, 820),
   (F.PWR_RAIL_LIM.FAIL_PM, 10, 150), (F.PWR_RAIL_LIM.WARN_PM, 10, 150), (F.PWR_THERM_CTL.CRIT_C, 60, 125),
   (F.PWR_THERM_CTL.WARN_C, 60, 125)]

/-- A lane map names every lane once (R69). -/
def laneMapOk (v : Nat) : Bool := (List.range 4).all (fun i => (List.range 4).any (fun j => v / 4 ^ j % 4 = i))

/-- A value that a field permits, whatever other fields hold. -/
def State.valueOk (_ : State) (f : Field) (v : Nat) : Bool :=
  match ranges.find? (fun r => r.1 = f) with
  | some r => r.2.1 ≤ v && v ≤ r.2.2
  | none =>
    if f = F.PRT_LANE.LANE_MAP then laneMapOk v
    else if f = F.CON_MGR.RANK then v ≤ 15 || v = 0xFF
    else if f = F.NTM_PTP.SYNC_LOG then -7 ≤ toSigned 4 v && toSigned 4 v ≤ 1
    else if f = F.TSU_CTL.PDELAY_LOG then -3 ≤ toSigned 4 v && toSigned 4 v ≤ 3
    else if f = F.NTM_PPS_OFFSET then -100000 ≤ toSigned 32 v && toSigned 32 v ≤ 100000
    else if f = F.PWR_BUDGET then 1 ≤ v && v ≤ 1000
    else true

/-- The pairs of fields of one register that a rule relates: the first at most (or, strictly, below) the second; `both` when
the rule is as much the second's as the first's. -/
def relations : List (Field × Field × Bool × Bool) :=
  [(F.PRT_SHED_CTL.MIN_WIDTH, F.PRT_SHED_CTL.MAX_WIDTH, false, false),
   (F.PWR_AVS_BOUNDS.MIN_MV, F.PWR_AVS_BOUNDS.MAX_MV, false, false),
   (F.PWR_RAIL_LIM.WARN_PM, F.PWR_RAIL_LIM.FAIL_PM, true, true),
   (F.PWR_THERM_CTL.WARN_C, F.PWR_THERM_CTL.CRIT_C, true, true)]

/-! ### What governs a field (R334, R335) -/

/-- The governing ENABLE of the RWD fields of a register, and of the ring bases of a DMA channel. -/
def State.enabledAt (s : State) (t : Target) : Bool :=
  if 0x50 ≤ t.w then false
  else if 0x10 ≤ t.w then (if t.reg.off < 0x1000 then s.on F.PRT_CTL.ENABLE t.u else s.on F.NTM_CTL.ENABLE)
  else match t.w with
  | 4 => s.on F.NTM_CTL.ENABLE
  | 5 => s.on F.CON_CTL.ENABLE
  | 6 => s.on F.DMA_CH_CTL.ENABLE 0 t.i
  | 10 => s.on F.SID_CTL.ENABLE
  | 11 => s.on F.PNL_CTL.ENABLE 0 t.i
  | _ => false

/-- The LOCK of a register's unit. -/
def State.lockedAt (s : State) (t : Target) : Bool :=
  if 0x50 ≤ t.w then s.lockEng t.u else if 0x10 ≤ t.w then s.lockPort t.u else s.lockSys t.w

/-- A field that only a clear ENABLE lets change. -/
def Target.governed (t : Target) (f : Field) : Bool := f.acc.hasD || (t.w = 6 && 0x800 ≤ t.reg.off)

/-- Some valid identification entry is of the IP-tuple type (R97). -/
def State.ipTuples (s : State) : Bool := s.identsUsed.any (fun i => idType (s.identEntry i) = 3)

/-- The stated rules that refuse a field's write (R204, R365) or, for SID_IPMASK, hold it as an ENABLE does (R97). -/
def State.ruleCause (s : State) (t : Target) (f : Field) (v : Nat) : Option Nat :=
  if f = F.PRT_SHED_CTL.SHED_EN then
    (if v = 1 ∧ s.joined ∧ (s.portW = t.u ∨ s.portE = t.u) then some cRULE else none)
  else if f = F.PAIR_CTL.UNIT then (if s.pairOn then some cRULE else none)
  else if t.w = 10 ∧ t.reg.off = 4 then (if s.ipTuples then some cENABLED else none)
  else none

/-! ### The judgement of a dword (R329) -/

/-- Why a field is refused by itself. -/
def State.ownCause (s : State) (t : Target) (data : Nat) (f : Field) : Option Nat :=
  let v := f.of data
  let new : Bool := v ≠ s.fld f t.u t.i
  if f.acc = .w1c ∨ f.acc = .wo then none
  else if f.acc.hasL && new && s.lockedAt t then some cLOCKED
  else if t.governed f && new && s.enabledAt t then some cENABLED
  else if ¬ s.valueOk f v then some cVALUE
  else s.ruleCause t f v

/-- The value that a write leaves in a field as far as the field's own rules go. -/
def State.leaves (s : State) (t : Target) (data : Nat) (f : Field) : Nat :=
  if (s.ownCause t data f).isSome then s.fld f t.u t.i else f.of data

/-- A rule that relates a field to another is broken by what the write leaves in the other. -/
def State.relationBroken (s : State) (t : Target) (data : Nat) (f : Field) : Bool :=
  relations.any (fun r =>
    let bad := fun (a b : Nat) => if r.2.2.1 then b ≤ a else b < a
    (r.1 = f && bad (f.of data) (s.leaves t data r.2.1)) ||
      (r.2.2.2 && r.2.1 = f && bad (s.leaves t data r.1) (f.of data)))

/-- Why a field is refused. -/
def State.fieldCause (s : State) (t : Target) (data : Nat) (f : Field) : Option Nat :=
  match s.ownCause t data f with
  | some c => some c
  | none => if s.relationBroken t data f then some cVALUE else none

/-- The refused field that lies highest decides the cause. -/
def State.dwordCause (s : State) (t : Target) (data : Nat) : Option Nat :=
  ((t.reg.fields.filterMap (fun f => (s.fieldCause t data f).map (fun c => (f.hi, c)))).foldl
    (fun (a : Option (Nat × Nat)) x => match a with
      | none => some x
      | some y => if y.1 < x.1 then some x else some y) none).map (fun x => x.2)

/-- The dword with refused fields at the values they hold. -/
def State.admitted (s : State) (t : Target) (data : Nat) : Nat :=
  (t.reg.fields.filter (fun f => (s.fieldCause t data f).isSome)).foldl
    (fun d f => withBits d f.hi f.lo (s.fld f t.u t.i)) data

/-! ### The fields take their values -/

/-- A field takes what a dword gives it: W1C bits clear, WO bits hold nothing. -/
def State.putField (s : State) (t : Target) (data : Nat) (f : Field) : State :=
  let v := f.of data
  if f.acc = .w1c then s.setf f (s.fld f t.u t.i &&& (2 ^ f.width - 1 - v)) t.u t.i
  else if f.acc = .wo ∨ ¬ f.acc.writable then s
  else s.setf f v t.u t.i

/-- Every field of a register takes what the dword gives it, in all copies of a triplicated one (R337). -/
def State.putDword (s : State) (t : Target) (data : Nat) : State :=
  t.reg.fields.foldl (fun u f => u.putField t data f)
    { s with copies := s.copies.filter (fun x => !(s.tripField x).any (fun y => y.1 = t)) }

/-! ### The effects of writes, by window -/

/-- What a write of PRT_MM_CTL makes of pre-emption (R41): with PREEMPT_EN 0 verification and pre-emption end; with VERIFY_DIS 1
pre-emption is active as soon as the link is up. -/
def State.mergeWrite (s : State) (p : Nat) : State :=
  let still := s.modPort p (fun d => { d with verifyDue := none })
  if !s.on F.PRT_MM_CTL.PREEMPT_EN p then (still.setf F.PRT_MM_STATUS.VERIFY_STATE 0 p).setf F.PRT_MM_STATUS.ACTIVE 0 p
  else if s.on F.PRT_MM_CTL.VERIFY_DIS p && s.on F.PRT_STATUS.LINK_UP p then still.startMerge p
  else s

/-- PRT_CTL: a port whose link is up runs in a newly written mode at that mode's width (R36, log 37); RETRAIN restarts
training; in DOZE the lanes of a disabled port are powered down (R381). -/
def State.writePrtCtl (s : State) (t : Target) (data : Nat) : State :=
  let u := ((s.syncCredit t.u).fecSync t.u).putDword t data
  let u :=
    if u.fld F.PRT_CTL.MODE t.u ≠ s.fld F.PRT_CTL.MODE t.u ∧ u.on F.PRT_STATUS.LINK_UP t.u then
      ((u.setWidth t.u (u.modeWidth t.u)).newSide t.u).recalibrate t.u
    else u
  let u := if data.testBit 8 then u.linkLost t.u else u
  if u.pwr.state = .doze ∧ ¬ u.on F.PRT_CTL.ENABLE t.u ∧ u.on F.PRT_STATUS.LINK_UP t.u then u.linkDown t.u else u

/-- A credit limit or slope takes a new value: credits are brought up to date first and held to the limit (R134). -/
def State.writeCredit (s : State) (t : Target) (data : Nat) : State :=
  let u := (s.syncCredit t.u).putDword t data
  let hi : Int := u.fld F.QSH_HI_CREDIT t.u t.i * bitUnit
  u.modPort t.u (fun d =>
    { d with credit := d.credit.map (fun x => if x.1 = t.i then (x.1, (min x.2.1 hi, x.2.2)) else x) })

/-- A write of a port window. -/
def State.writePort (s : State) (o : Origin4) (t : Target) (data : Nat) : State :=
  let p := t.u
  let put := s.putDword t data
  if 0x1100 ≤ t.reg.off ∧ t.reg.off < 0x1200 then s.senAdminWrite o p ((t.reg.off - 0x1100) / 4) data
  else match t.reg.off with
  | 0x0000 => s.writePrtCtl t data
  | 0x0010 => put.mergeWrite p
  | 0x0100 => if data.testBit 24 then put.blockClr p else put
  | 0x1000 => if data.testBit 0 then put else s.senDisable p (bitsOf data 15 8)
  | 0x100C => put.regate p
  | 0x2000 =>
    if data.testBit 0 then (s.setCbsEn p (bitsOf data 15 8)).setf F.QSH_CTL.ENABLE 1 p
    else s.queueDisable p (bitsOf data 15 8)
  | 0x2008 => put.modPort p (fun d => { d with sampleCount := [] })
  | 0x2100 => s.writeCredit t data
  | 0x2104 => s.writeCredit t data
  | 0x2200 => s.poolWrite o p false data
  | 0x2204 => s.poolWrite o p true data
  | 0x3000 => put.refreshDelay p
  | 0x3018 => put.refreshDelay p
  | _ => put

/-- Locks (R335): bits of absent units take nothing; a set lock keeps its value, and the copies of
a clear one are written (R337). -/
def State.writeLock (s : State) (t : Target) (data : Nat) : State :=
  let has := fun (b : Nat) => match t.reg.off with
    | 4 => decide (b < s.nIslands)
    | 8 => decide (b < s.nPorts)
    | 12 => decide (b + 32 < s.nPorts)
    | _ => true
  t.reg.fields.foldl (fun u f => (List.range f.width).foldl (fun u b =>
    if data.testBit (f.lo + b) && has (f.lo + b) then u.setBit f b true else u) u)
    { s with copies := s.copies.filter (fun x =>
        !(s.tripField x).any (fun y => y.1 = t && !s.fbit y.2 (x.lo - y.2.lo))) }

/-- Some set lock bit is written 0. -/
def State.lockRefused (s : State) (t : Target) (data : Nat) : Bool :=
  t.reg.fields.any (fun f => (List.range f.width).any (fun b => s.fbit f b && !data.testBit (f.lo + b)))

/-- A capture starts, unless one runs or is held (R340, R342). -/
def State.wideStart (s : State) (o : Origin4) (data : Nat) : State :=
  if s.on F.WRW_CTL.BUSY ∨ s.on F.WRW_CTL.VALID then s.refuse o data cRULE
  else
    let a := data % 2 ^ 23
    let t := (s.setf F.WRW_ADDR.ADDR a).setf F.WRW_CTL.BUSY 1
    { t.setf F.WRW_CTL.BAD 0 with wide := ⟨some a, []⟩ }

/-- The held words are discarded; ignored while a capture runs (R342). -/
def State.wideRelease (s : State) : State := if s.on F.WRW_CTL.BUSY then s else s.dropWide

/-- A write of the REG window. -/
def State.writeReg (s : State) (o : Origin4) (t : Target) (data : Nat) : State :=
  match t.reg.off with
  | 0x300 => s.wideStart o data
  | 0x304 => if data.testBit 8 then s.wideRelease else s
  | 0x100 =>
    let u := s.putDword t data
    if u.on F.REG_WI_STATUS.WRITE_IGNORED then u else u.setf F.REG_WI_STATUS.MORE 0
  | 0x200 => s.putDword t data
  | _ => if s.lockRefused t data then (s.writeLock t data).refuse o data cLOCKED else s.writeLock t data

/-- A write of the HIF window, or of a VF's part of it. -/
def State.writeHif (s : State) (o : Origin4) (t : Target) (data : Nat) : State :=
  match t.reg.off with
  | 0x200 => if data.testBit 0 then s.doorbell t.u else s
  | 0x300 => s.vfDmaWrite t.i o data
  | _ => s.putDword t data

/-- A write of the FLT window. -/
def State.writeFlt (s : State) (o : Origin4) (t : Target) (data : Nat) : State :=
  match t.reg.off with
  | 0x000 => let u := s.putDword t data; if data.testBit 0 then u.firstRearm else u
  | 0x008 => s.fltForce o data
  | 0x100 => s.clearCauses t.i (BitVec.ofNat 32 data)
  | _ => s.putDword t data

/-- A write of the PWR window; with the AVS loop off the set voltage is 750 mV (R390). -/
def State.writePwr (s : State) (t : Target) (data : Nat) : State :=
  let u := s.putDword t data
  let u := if t.reg.off = 0x200 ∧ u.fld F.PWR_AVS_CTL.AVS_EN = 0 then u.setf F.PWR_AVS_STATUS.SET_MV 750 else u
  if t.reg.off = 0x100 ∧ data.testBit 9 then u.wakeIf 3 none else u

/-- A write of the NTM window. -/
def State.writeNtm (s : State) (o : Origin4) (t : Target) (data : Nat) : State :=
  match t.reg.off with
  | 0x000 =>
    let u := (s.putDword t data).resync
    if u.on F.NTM_CTL.PPS_OUT_EN then u else u.modTime (fun x => { x with ppsFall := none })
  | 0x00C => s.incWrite o data
  | 0x014 => s.tempWrite o data
  | 0x018 => s.slewWrite data
  | 0x01C => if data.testBit 0 then s.stepGo o (bitsOf data 1 1) data else s
  | 0x110 => (s.putDword t data).resync
  | _ => s.putDword t data

/-- DMA_CH_CTL: a write of 0 to ENABLE is judged by the state before the write (R290, R291). -/
def State.writeChCtl (s : State) (o : Origin4) (ch data : Nat) : State :=
  let u := if data.testBit 0 then s else s.disableChan o ch data
  let u := if data.testBit 8 then u.pauseChan ch else u.resumeChan ch
  if data.testBit 0 then u.enableChan ch else u

/-- A write of the DMA window, or of a VF's part of it. -/
def State.writeDma (s : State) (o : Origin4) (t : Target) (data : Nat) : State :=
  match t.reg.off with
  | 0x000 => s.putDword t data
  | 0x100 => s.writeChCtl o t.i data
  | 0x300 => s.tailWrite o t.i data
  | 0x500 => s.cqTailWrite t.i data
  | _ => s.putDword t data

/-- CXM_CTL: the ports named enumerate, but for mapped ones, whose bits are refused (R268). -/
def State.writeCxm (s : State) (o : Origin4) (t : Target) (data : Nat) : State :=
  let u := s.putDword t data
  if t.reg.off ≠ 0 then u
  else
    let cs := (List.range s.nCxl).filter (fun c => data.testBit (16 + c))
    let v := (cs.filter (fun c => ¬ s.mapped c)).foldl State.startEnum u
    if cs.any s.mapped then v.refuse o data cRULE else v

/-- A write of the SID window. -/
def State.writeSid (s : State) (t : Target) (data : Nat) : State :=
  if t.reg.off = 8 then s.unblock (data.testBit 31) (data % 65536) else s.putDword t data

/-- A write of the BST window. -/
def State.writeBst (s : State) (o : Origin4) (t : Target) (data : Nat) : State :=
  if t.reg.off = 8 ∧ data.testBit 31 then s.fuseBurn o data else s.putDword t data

/-- The effect of the admitted fields of a write. -/
def State.writeAt (s : State) (o : Origin4) (t : Target) (data : Nat) : State :=
  if 0x50 ≤ t.w then s.putDword t data
  else if 0x10 ≤ t.w then s.writePort o t data
  else match t.w with
  | 0 => s.writeHif o t data
  | 1 => s.writeReg o t data
  | 2 => s.writeFlt o t data
  | 3 => s.writePwr t data
  | 4 => s.writeNtm o t data
  | 6 => s.writeDma o t data
  | 7 => s.writeCxm o t data
  | 9 => s.writeBst o t data
  | 10 => s.writeSid t data
  | _ => s.putDword t data

/-! ### A dword write -/

/-- The registers that TEST, SAFE and a wipe leave writable (R333). -/
def Target.mailbox (t : Target) : Bool :=
  (t.w = 0 && (t.reg.off < 0x100 || (0x200 ≤ t.reg.off && t.reg.off ≤ 0x208))) ||
    (t.w = 1 && [0x100, 0x200, 0x300, 0x304].contains t.reg.off)

/-- The write asks something of a field that is not read-only: a W1C field only by a 1 (R331). -/
def Target.asks (t : Target) (data : Nat) : Bool :=
  t.reg.fields.any (fun f => f.acc.writable && (f.acc ≠ .w1c || f.of data ≠ 0))

/-- The lock bits of absent units apart, the register has a bit that a write can set. -/
def State.anyLock (s : State) (t : Target) : Bool := !(t.w = 1 && t.reg.off = 12 && s.nPorts ≤ 32)

/-- A register of DMA channel D63 while the checkpoint writer owns it (R279). -/
def State.writerOwns (s : State) (t : Target) : Bool := t.w = 6 && 0x100 ≤ t.reg.off && s.ckptOwns t.i

/-- The rules that refuse a whole dword: a VF's write of HIF_CTL, DMA_CTL or DMA_STATUS (R303, R319), the owner of D63, and
the operating state (R28, R333, R383, R408). -/
def State.wholeCause (s : State) (fn : Nat) (t : Target) (data : Nat) : Option Nat :=
  if fn ≠ 0 ∧ ((t.w = 0 ∧ t.reg.off = 0x210) ∨ (t.w = 6 ∧ t.reg.off < 8)) then some cRULE
  else if ¬ t.asks data ∨ ¬ s.anyLock t then none
  else if s.writeBarred t.w t.mailbox then some cSTATE
  else if s.writerOwns t then some cRULE
  else none

/-- A write that reaches a register: one refusal at most, and the admitted fields take effect. -/
def State.regWrite (s : State) (o : Origin4) (t : Target) (data : Nat) : State :=
  match s.wholeCause o.fn t data with
  | some c => s.refuse o data c
  | none =>
    if ¬ t.asks data then s
    else
      let u := match s.dwordCause t data with
        | some c => s.refuse o data c
        | none => s
      if t.w = 1 ∨ t.reg.fields.any (fun f => f.acc.writable && (s.fieldCause t data f).isNone) then
        u.writeAt o t (s.admitted t data)
      else u

/-- A dword with byte enables that are not all set is discarded, counted and recorded, unless it names what takes no write
(R300, R332). -/
def State.partialWrite (s : State) (o : Origin4) (data : Nat) (there : Bool) : State :=
  let t := s.bump F.HIF_PARTIAL_WRITE o.fn
  if there then t.refuse o data cRULE else t

/-- A dword write to a function's BAR0. -/
def State.barWrite (s : State) (o : Origin4) (data be : Nat) : State :=
  match s.targetOf o.fn o.addr with
  | none => if be = 15 then s else s.partialWrite o data false
  | some t => if be = 15 then (s.reachWindow t.w).regWrite o t data else s.partialWrite o data (t.asks 0xFFFFFFFF)

/-- A dword write to the table aperture. -/
def State.tableWrite (s : State) (o : Origin4) (data be : Nat) : State :=
  if be = 15 then s.bar2Write o o.addr data else s.partialWrite o data (s.bar2Takes o.addr)

/-- A dword write by an access path: `fn` is the issuing function, or for DMA region 0x4 the channel. -/
def State.dwordWrite (s : State) (space : Space) (fn addr data be : Nat) : State :=
  match space with
  | .bar0 =>
    let a := addr % 2 ^ 23 / 4 * 4
    if s.hostUp then s.barWrite ⟨.bar0, 0, a, 0⟩ data be else s
  | .vfBar0 =>
    let a := addr % 2 ^ 17 / 4 * 4
    if s.hostUp && 0 < fn && s.fnExists fn then s.barWrite ⟨.vfBar0, fn, a, 0⟩ data be else s
  | .bar2 =>
    let a := addr % 2 ^ 30 / 4 * 4
    if s.hostUp then s.tableWrite ⟨.bar2, 0, a, 0⟩ data be else s
  | .dma4 =>
    let a := addr % 2 ^ 30 / 4 * 4
    if s.phase = .running ∧ fn < 64 then s.bar2Write ⟨.dma4, s.chOwner fn, a, fn⟩ a data else s

/-- REGISTER_WRITE (R329). -/
def execRegisterWrite (space : Space) (fn addr : Nat) (data : Word) (be : Nat) (s : State) :
    Host.Outcome State Fault Refusal := .next (s.dwordWrite space fn addr data.toNat (be % 16))

/-! ### Locks, triplication and the wide-read window -/

/-- LOCK_SET: a write of 1 to a lock bit; the register's other locks are written as they stand (R335). -/
def execLockSet (reg bit : Nat) (s : State) : Host.Outcome State Fault Refusal :=
  let a := 0x10000 + 4 * (reg % 4)
  let old := (s.target a).elim 0 s.regValue
  .next (s.dwordWrite .bar0 0 a (withBits old (bit % 32) (bit % 32) 1) 15)

/-- WIDE_READ_START: a write of WRW_ADDR (R340). -/
def execWideReadStart (addr : Nat) (s : State) : Host.Outcome State Fault Refusal :=
  .next (s.dwordWrite .bar0 0 0x10300 (addr % 2 ^ 32) 15)

/-- WIDE_READ_RELEASE: a write of 1 to WRW_CTL.RELEASE (R342). -/
def execWideReadRelease (s : State) : Host.Outcome State Fault Refusal :=
  .next (s.dwordWrite .bar0 0 0x10304 0x100 15)

/-- TRIPLICATE_SCRUB: a pass over every triplicated field, with the copies that it finds upset (R337); `later` strikes after it. -/
def execTriplicateScrub (upsets : List TripUpset) (s : State) (later : List TripUpset := []) : Host.Outcome State Fault Refusal :=
  .next (if s.phase = .running then
      let t := (s.runPeriod (10 * ltUs)).compareHeld (fun _ => true)
      later.foldl State.tripStrike ((upsets.foldl State.tripCompare t).bump F.REG_TRIP_PASSES.PASSES)
    else s)

end Sys2Proof.Machine
end

