-- ==== Sys2Proof/Machine/Ties.lean ====
section
/-! DEFINITION. STATE_SET, and the automatic transitions of the operating state that may meet it in one control-island cycle (R31,
R33). -/

namespace Sys2Proof.Machine

/-- How R33 ranks what can bring about an automatic transition: an S3 fault, a reset, ROLE_ACTIVE. A register write counts for the
S3 that FLT_FORCE raises, a read for that of copies that all differ, the end of a reset for the S3 that waited for it (R378). -/
def autoRank : Instr → Option Nat
  | .fltForce _ | .registerWrite .. | .rcRead .. | .triplicateScrub .. | .supplySample _ | .thermalSample _ | .checkpointCapture
  | .checkpointWriteDone _ | .bistRunDone | .scanOpen | .warmResetDone | .blockResetDone => some 0
  | .pcieHotReset | .warmReset => some 1
  | .roleActiveRise _ | .roleActiveFall _ => some 2
  | _ => none

/-- Commands of the host, the pins and the TAP that take no time: what stands behind them may fall in the same cycle (log 63). -/
def timeless : Instr → Bool
  | .mailboxDoorbell .. | .dmaDoorbell .. | .lockSet .. | .wideReadStart .. | .wideReadLastWord | .wideReadRelease
  | .faultCauseClear .. | .fltCauseRead .. | .firstRearm | .msixVectorUnmask .. | .pcieConfigurationWrite _ | .pcieUncorrectableError _
  | .pcieLinkDown | .tapInstruction _ | .scanUnlock _ | .checkpointConfig | .roleReport | .identify | .mixStatus | .keyClear
  | .sidEntryWrite .. | .clauseWrite .. | .subqEntryWrite .. | .mixBankWrite .. | .mixLiveEntryWrite .. | .cxmEntryWrite ..
  | .contributionEntryWrite .. | .wakeFilterEntryWrite .. => true
  | _ => false

/-- The state that an outcome leaves. -/
def stateOr (s : State) : Host.Outcome State Fault Refusal → State
  | .next t => t
  | _ => s

/-- What an event that can bring about an automatic transition does. -/
def State.automatic (s : State) : Instr → State
  | .fltForce d => stateOr s (execFltForce d s)
  | .registerWrite sp fn a d be => stateOr s (execRegisterWrite sp fn a d be s)
  | .warmResetDone => stateOr s (execWarmResetDone s)
  | .blockResetDone => stateOr s (execBlockResetDone s)
  | .triplicateScrub us later => stateOr s (execTriplicateScrub us s later)
  | .rcRead fn a sp => stateOr s (execRcRead fn a s sp)
  | .supplySample r => stateOr s (execSupplySample r s)
  | .thermalSample r => stateOr s (execThermalSample r s)
  | .checkpointCapture => stateOr s (execCheckpointCapture s)
  | .checkpointWriteDone ok => stateOr s (execCheckpointWriteDone ok s)
  | .bistRunDone => stateOr s (execBistRunDone s)
  | .scanOpen => stateOr s (execScanOpen s)
  | .pcieHotReset => s.hotReset false
  | .warmReset => s.warmReset
  | .roleActiveRise n => if n < 100 then s else s.roleRise
  | .roleActiveFall n => if n < 100 then s else s.roleFall
  | _ => s

/-- An event that brings about an automatic transition in the control-island cycle of `s`: the operating state, the level of
ROLE_ACTIVE or the warm reset that is due differs after it. -/
def State.ties (s t : State) : Bool :=
  s.lt / ctlCycle = t.lt / ctlCycle &&
    (s.op ≠ t.op || s.pair.roleLevel ≠ t.pair.roleLevel || s.pwr.warmAt ≠ t.pwr.warmAt)

/-- The events ahead in the queue that can bring about an automatic transition: those that no command which takes time parts from
the front. -/
def State.autosAhead (s : State) : List Instr :=
  (s.pending.takeWhile (fun c => (autoRank c).isSome || timeless c)).filter (fun c => (autoRank c).isSome)

/-- The state after the automatic transitions ahead whose rank lies below `k` and which fall in this control-island cycle, in the
order of R33 (log 63). -/
def State.afterRanks (s : State) (k : Nat) : State :=
  ((List.range k).flatMap (fun r => s.autosAhead.filter (fun c => autoRank c = some r))).foldl (fun t c =>
    let u := t.automatic c
    if t.ties u then u else t) s

/-- The state after every automatic transition of this cycle that is still to come. -/
def State.afterAutomatic (s : State) : State := s.afterRanks 3

/-- An S3 of this cycle is still to come and leaves SAFE: a reset and ROLE_ACTIVE find the device in SAFE (R33). -/
def State.s3Ahead (s : State) : Bool := s.op ≠ .safe && (s.afterRanks 1).op = .safe

/-- An S3 or a reset of this cycle is still to come and ends service: ROLE_ACTIVE finds the device in SAFE or in the reset (R33). -/
def State.resetAhead (s : State) : Bool :=
  let t := s.afterRanks 2
  s.s3Ahead || (t.pwr.warmRun.isSome && s.pwr.warmRun.isNone) ||
    (t.pwr.warmAt.any (fun w => w.2 / ctlCycle = s.lt / ctlCycle) && t.op ≠ .safe)

/-- Some automatic transition of this cycle is still to come. -/
def State.tied (s : State) : Bool := s.ties s.afterAutomatic

/-- What `v`, the state to be judged by, answers to a STATE_SET for `new`: nothing when it is accepted. -/
def State.stateRefused (v : State) (new : OpState) : Bool :=
  ¬ setAllowed v.op new ∨ (v.op = .recovery ∧ new = .operational ∧ v.pairOn ∧ ¬ v.pair.roleLevel)

/-- STATE_SET, judged against the state that the automatic transitions of its cycle leave (R33). One that is accepted takes effect
after them. -/
def State.stateSet (s : State) (c : Cmd) : State :=
  let new := opOf (bitsOf (c.word 1) 2 0)
  let v := s.afterAutomatic
  if s.bst.run.isSome then s.finish xBUSY 7 [s.op.code]
  else if v.stateRefused new then s.finish xWRONGSTATE 7 [v.op.code]
  else if s.ties v then (s.finishOk [new.code]).modPwr (fun p => { p with setAfter := some new })
  else (s.finishOk [new.code]).goto new

/-- STATE_SET. -/
def execStateSet (s : State) : Host.Outcome State Fault Refusal := .next (s.xci 0x02 (fun c t => t.stateSet c))

/-- After the last automatic transition of its cycle, a STATE_SET that was accepted takes effect. -/
def State.settleSet (s : State) : State :=
  match s.pwr.setAfter with
  | none => s
  | some new =>
    if s.tied then s
    else
      let t := s.modPwr (fun p => { p with setAfter := none })
      if t.stateRefused new then t else t.goto new

/-- PCIE_HOT_RESET. -/
def execPcieHotReset (s : State) : Host.Outcome State Fault Refusal := .next (s.hotReset s.s3Ahead)

/-- WARM_RESET; an S3 of the same cycle comes first, and no warm reset begins in SAFE (R32, R33). -/
def execWarmReset (s : State) : Host.Outcome State Fault Refusal :=
  let t := s.runToLt ((s.pwr.warmAt.map (fun w => w.2)).getD 0)
  .next ((if s.pwr.warmAt.isSome && t.s3Ahead then t.modPwr (fun p => { p with warmAt := none }) else s.warmReset).settleSet)

/-- The level of ROLE_ACTIVE that the filter takes; where an S3 or a reset of the same cycle comes first, the unit is in SAFE or in
the reset, and the level alone is left (R33). -/
def State.roleTake (s : State) (high : Bool) : State :=
  if s.resetAhead then s.modPair (fun p => { p with roleLevel := high })
  else if high then s.roleRise else s.roleFall

/-- ROLE_ACTIVE_RISE: the filter takes the level once it has been stable for 100 ns; a shorter pulse is ignored (R347). -/
def execRoleActiveRise (s : State) (stableNs : Nat := 100) : Host.Outcome State Fault Refusal :=
  .next (if stableNs < 100 then s else (s.roleTake true).settleSet)

/-- ROLE_ACTIVE_FALL. -/
def execRoleActiveFall (s : State) (stableNs : Nat := 100) : Host.Outcome State Fault Refusal :=
  .next (if stableNs < 100 then s else (s.roleTake false).settleSet)

end Sys2Proof.Machine
end

