-- ==== Sys2Proof/Machine/Dispatch.lean ====
section
/-! DEFINITION. The one dispatch from a command to its meaning. -/

namespace Sys2Proof.Machine

def exec (i : Instr) (s : State) : Host.Outcome State Fault Refusal :=
  match i with
  | .powerOnReset lowNs => Sys2Proof.Machine.execPowerOnReset s lowNs
  | .coldReset cycles => Sys2Proof.Machine.execColdReset s cycles
  | .resetRelease => Sys2Proof.Machine.execResetRelease s
  | .startupEntry => Sys2Proof.Machine.execStartupEntry s
  | .refclkLoss => Sys2Proof.Machine.execRefclkLoss s
  | .crossingDelivery src dst => Sys2Proof.Machine.execCrossingDelivery src dst s
  | .replicaCorrection => Sys2Proof.Machine.execReplicaCorrection s
  | .frameReceived p octets fcsOk => Sys2Proof.Machine.execFrameReceived p octets fcsOk s
  | .classify upsets => Sys2Proof.Machine.execClassify upsets s
  | .unpackFrame upsets => Sys2Proof.Machine.execUnpackFrame upsets s
  | .videoPacketStore => Sys2Proof.Machine.execVideoPacketStore s
  | .frameEnqueue p => Sys2Proof.Machine.execFrameEnqueue p s
  | .stageCellReadDone fid cell parityError => Sys2Proof.Machine.execStageCellReadDone fid cell parityError s
  | .transmissionSelection p upsets => Sys2Proof.Machine.execTransmissionSelection p s upsets
  | .txFrameDone p => Sys2Proof.Machine.execTxFrameDone p s
  | .ageExpiry p => Sys2Proof.Machine.execAgeExpiry p s
  | .depthSample => Sys2Proof.Machine.execDepthSample s
  | .dmaPoolCellsAvailable ch => Sys2Proof.Machine.execDmaPoolCellsAvailable ch s
  | .linkUp p => Sys2Proof.Machine.execLinkUp p s
  | .linkDown p => Sys2Proof.Machine.execLinkDown p s
  | .retrain p => Sys2Proof.Machine.execRetrain p s
  | .verifyMpacketRx p => Sys2Proof.Machine.execVerifyMpacketRx p s
  | .respondMpacketRx p => Sys2Proof.Machine.execRespondMpacketRx p s
  | .verifyTimeout p => Sys2Proof.Machine.execVerifyTimeout p s
  | .continuationFragmentRx p start frameNo count octets last crcOk => Sys2Proof.Machine.execContinuationFragmentRx p start frameNo count octets last crcOk s
  | .pauseFrameRx p octets => Sys2Proof.Machine.execPauseFrameRx p octets s
  | .pauseQuantaExpiry p c => Sys2Proof.Machine.execPauseQuantaExpiry p c s
  | .pauseWatchdog p c => Sys2Proof.Machine.execPauseWatchdog p c s
  | .lldpduTx p => Sys2Proof.Machine.execLldpduTx p s
  | .lldpduRx p octets => Sys2Proof.Machine.execLldpduRx p octets s
  | .partnerTtlExpiry p => Sys2Proof.Machine.execPartnerTtlExpiry p s
  | .utilisationWindow p txRate rxRate partnerSynced => Sys2Proof.Machine.execUtilisationWindow p txRate rxRate partnerSynced s
  | .shedRequestRx p sa octets => Sys2Proof.Machine.execShedRequestRx p sa octets s
  | .shedAcceptRx p octets => Sys2Proof.Machine.execShedAcceptRx p octets s
  | .shedRefuseRx p octets => Sys2Proof.Machine.execShedRefuseRx p octets s
  | .shedNoack p => Sys2Proof.Machine.execShedNoack p s
  | .shedInstant p => Sys2Proof.Machine.execShedInstant p s
  | .shedLockCheck p locked => Sys2Proof.Machine.execShedLockCheck p locked s
  | .shedFailRetrain p up => Sys2Proof.Machine.execShedFailRetrain p up s
  | .shedForcedWiden p => Sys2Proof.Machine.execShedForcedWiden p s
  | .standbyWidenRetry p => Sys2Proof.Machine.execStandbyWidenRetry p s
  | .blockClr p => Sys2Proof.Machine.execBlockClr p s
  | .panelFrameRx t octets fcsOk more => Sys2Proof.Machine.execPanelFrameRx t octets fcsOk s more
  | .panelFrameTx t carrier echoNs => Sys2Proof.Machine.execPanelFrameTx t s carrier echoNs
  | .panelCollision t => Sys2Proof.Machine.execPanelCollision t s
  | .panelBackoffExpiry t carrier echoNs => Sys2Proof.Machine.execPanelBackoffExpiry t s carrier echoNs
  | .plcaBeaconRx t => Sys2Proof.Machine.execPlcaBeaconRx t s
  | .plcaToTimer t => Sys2Proof.Machine.execPlcaToTimer t s
  | .sidEntryWrite off data => Sys2Proof.Machine.execSidEntryWrite off data s
  | .streamBind => Sys2Proof.Machine.execStreamBind s
  | .streamUnbind => Sys2Proof.Machine.execStreamUnbind s
  | .unblockFilter index => Sys2Proof.Machine.execUnblockFilter index s
  | .clearMarkRed index => Sys2Proof.Machine.execClearMarkRed index s
  | .recoveryResetTimer f => Sys2Proof.Machine.execRecoveryResetTimer f s
  | .latentTest f => Sys2Proof.Machine.execLatentTest f s
  | .latentResetPeriod f => Sys2Proof.Machine.execLatentResetPeriod f s
  | .clauseWrite off data => Sys2Proof.Machine.execClauseWrite off data s
  | .senAdminWrite p reg data => Sys2Proof.Machine.execSenAdminWrite p reg data s
  | .sentenceStage upsets => Sys2Proof.Machine.execSentenceStage upsets s
  | .sentenceArm => Sys2Proof.Machine.execSentenceArm s
  | .sentenceAbort => Sys2Proof.Machine.execSentenceAbort s
  | .sentenceSwap p parityError => Sys2Proof.Machine.execSentenceSwap p s parityError
  | .cycleStart p => Sys2Proof.Machine.execCycleStart p s
  | .clauseBoundary p parityError => Sys2Proof.Machine.execClauseBoundary p parityError s
  | .holdInForce p => Sys2Proof.Machine.execHoldInForce p s
  | .senEnableClear p dropLate => Sys2Proof.Machine.execSenEnableClear p dropLate s
  | .subqEntryWrite off data => Sys2Proof.Machine.execSubqEntryWrite off data s
  | .qshPoolWrite p dma value => Sys2Proof.Machine.execQshPoolWrite p dma value s
  | .queueDisableFlush p cbsEn => Sys2Proof.Machine.execQueueDisableFlush p cbsEn s
  | .windowFix sum k upsets => Sys2Proof.Machine.execWindowFix sum k s upsets
  | .batchCutoff e d => Sys2Proof.Machine.execBatchCutoff e d s
  | .allotmentStart e d upsets => Sys2Proof.Machine.execAllotmentStart e d upsets s
  | .allotmentDone e d => Sys2Proof.Machine.execAllotmentDone e d s
  | .mixDeadlineEnqueue e d => Sys2Proof.Machine.execMixDeadlineEnqueue e d s
  | .rowFetchDone tile d ok => Sys2Proof.Machine.execRowFetchDone tile d ok s
  | .rebalance m => Sys2Proof.Machine.execRebalance m s
  | .mixBankWrite off data => Sys2Proof.Machine.execMixBankWrite off data s
  | .mixLiveEntryWrite off data => Sys2Proof.Machine.execMixLiveEntryWrite off data s
  | .mixCommit => Sys2Proof.Machine.execMixCommit s
  | .mixWithdraw => Sys2Proof.Machine.execMixWithdraw s
  | .mixStatus => Sys2Proof.Machine.execMixStatus s
  | .placementLoad => Sys2Proof.Machine.execPlacementLoad s
  | .mixActivation => Sys2Proof.Machine.execMixActivation s
  | .mixDrainEnd => Sys2Proof.Machine.execMixDrainEnd s
  | .mixPoolReturn group => Sys2Proof.Machine.execMixPoolReturn group s
  | .ringJoin => Sys2Proof.Machine.execRingJoin s
  | .ringLeave => Sys2Proof.Machine.execRingLeave s
  | .ringLeaveDone => Sys2Proof.Machine.execRingLeaveDone s
  | .ringCycleStart => Sys2Proof.Machine.execRingCycleStart s
  | .ringRoundStart => Sys2Proof.Machine.execRingRoundStart s
  | .syncFrameTx => Sys2Proof.Machine.execSyncFrameTx s
  | .syncFrameRx fromE octets => Sys2Proof.Machine.execSyncFrameRx fromE octets s
  | .syncCollectionEnd => Sys2Proof.Machine.execSyncCollectionEnd s
  | .coldstartEntry => Sys2Proof.Machine.execColdstartEntry s
  | .coldstartFail => Sys2Proof.Machine.execColdstartFail s
  | .syncMeasurementClose => Sys2Proof.Machine.execSyncMeasurementClose s
  | .syncSilenceTimeout => Sys2Proof.Machine.execSyncSilenceTimeout s
  | .contributionCutoff => Sys2Proof.Machine.execContributionCutoff s
  | .trainLaunch => Sys2Proof.Machine.execTrainLaunch s
  | .trainFrameRx fromE octets fcsOk stomped busy => Sys2Proof.Machine.execTrainFrameRx fromE octets fcsOk stomped busy s
  | .trainWindowEnd => Sys2Proof.Machine.execTrainWindowEnd s
  | .beaconTx => Sys2Proof.Machine.execBeaconTx s
  | .ringPortDown portE => Sys2Proof.Machine.execRingPortDown portE s
  | .ringWrapEnd portE => Sys2Proof.Machine.execRingWrapEnd portE s
  | .managerTakeover => Sys2Proof.Machine.execManagerTakeover s
  | .contributionEntryWrite off data => Sys2Proof.Machine.execContributionEntryWrite off data s
  | .ringRemote => Sys2Proof.Machine.execRingRemote s
  | .ringRemoteDone slot => Sys2Proof.Machine.execRingRemoteDone slot s
  | .incrementWrite data => Sys2Proof.Machine.execIncrementWrite data s
  | .slewStart count => Sys2Proof.Machine.execSlewStart count s
  | .slewEnd => Sys2Proof.Machine.execSlewEnd s
  | .stepGo mode => Sys2Proof.Machine.execStepGo mode s
  | .networkTimeStep upsets => Sys2Proof.Machine.execNetworkTimeStep s upsets
  | .ppsOutEdge => Sys2Proof.Machine.execPpsOutEdge s
  | .ppsOutFall => Sys2Proof.Machine.execPpsOutFall s
  | .ppsInEdge highNs => Sys2Proof.Machine.execPpsInEdge highNs s
  | .syncTx p => Sys2Proof.Machine.execSyncTx p s
  | .syncRx p octets => Sys2Proof.Machine.execSyncRx p octets s
  | .ptpMessageRx p octets => Sys2Proof.Machine.execPtpMessageRx p octets s
  | .syncTimeout => Sys2Proof.Machine.execSyncTimeout s
  | .pdelayReqTx p => Sys2Proof.Machine.execPdelayReqTx p s
  | .pdelayReqRx p octets => Sys2Proof.Machine.execPdelayReqRx p octets s
  | .pdelayRespRx p octets => Sys2Proof.Machine.execPdelayRespRx p octets s
  | .pdelayTimeout p => Sys2Proof.Machine.execPdelayTimeout p s
  | .delayStale p => Sys2Proof.Machine.execDelayStale p s
  | .probeTx p residual => Sys2Proof.Machine.execProbeTx p residual s
  | .probeRx p octets residual => Sys2Proof.Machine.execProbeRx p octets residual s
  | .calStart => Sys2Proof.Machine.execCalStart s
  | .calResult => Sys2Proof.Machine.execCalResult s
  | .cxmEnum c => Sys2Proof.Machine.execCxmEnum c s
  | .enumerationDone c dev => Sys2Proof.Machine.execEnumerationDone c dev s
  | .cxlReadFail c off poison => Sys2Proof.Machine.execCxlReadFail c off poison s
  | .cxlLinkDown c => Sys2Proof.Machine.execCxlLinkDown c s
  | .cxmEntryWrite off data => Sys2Proof.Machine.execCxmEntryWrite off data s
  | .delayRecordWritten line ok => Sys2Proof.Machine.execDelayRecordWritten line ok s
  | .delayRecordFetch line => Sys2Proof.Machine.execDelayRecordFetch line s
  | .delayRecordDue line => Sys2Proof.Machine.execDelayRecordDue line s
  | .dmaDoorbell ch tail => Sys2Proof.Machine.execDmaDoorbell ch tail s
  | .descriptorFetch ch => Sys2Proof.Machine.execDescriptorFetch ch s
  | .cqSlotFree ch tail => Sys2Proof.Machine.execCqSlotFree ch tail s
  | .dmaBurst => Sys2Proof.Machine.execDmaBurst s
  | .beatError ch => Sys2Proof.Machine.execBeatError ch s
  | .descriptorComplete ch readBackOk => Sys2Proof.Machine.execDescriptorComplete ch readBackOk s
  | .dmaPause ch => Sys2Proof.Machine.execDmaPause ch s
  | .dmaPaused ch => Sys2Proof.Machine.execDmaPaused ch s
  | .dmaResume ch => Sys2Proof.Machine.execDmaResume ch s
  | .dmaChannelDisable ch => Sys2Proof.Machine.execDmaChannelDisable ch s
  | .perstnAssert => Sys2Proof.Machine.execPerstnAssert s
  | .pcieHotReset => Sys2Proof.Machine.execPcieHotReset s
  | .flr fn => Sys2Proof.Machine.execFlr fn s
  | .hifVfDmaWrite v data => Sys2Proof.Machine.execHifVfDmaWrite v data s
  | .mailboxDoorbell fn => Sys2Proof.Machine.execMailboxDoorbell fn s
  | .commandDispatch => Sys2Proof.Machine.execCommandDispatch s
  | .identify => Sys2Proof.Machine.execIdentify s
  | .stateSet => Sys2Proof.Machine.execStateSet s
  | .checkpointConfig => Sys2Proof.Machine.execCheckpointConfig s
  | .roleReport => Sys2Proof.Machine.execRoleReport s
  | .resetWarm => Sys2Proof.Machine.execResetWarm s
  | .warmReset => Sys2Proof.Machine.execWarmReset s
  | .warmResetDone => Sys2Proof.Machine.execWarmResetDone s
  | .blockReset => Sys2Proof.Machine.execBlockReset s
  | .blockResetDone => Sys2Proof.Machine.execBlockResetDone s
  | .powerState => Sys2Proof.Machine.execPowerState s
  | .standbyEntryPhase => Sys2Proof.Machine.execStandbyEntryPhase s
  | .hostWake => Sys2Proof.Machine.execHostWake s
  | .wakeTimer => Sys2Proof.Machine.execWakeTimer s
  | .standbyExitDone => Sys2Proof.Machine.execStandbyExitDone s
  | .measure => Sys2Proof.Machine.execMeasure s
  | .registerWrite space fn addr data be => Sys2Proof.Machine.execRegisterWrite space fn addr data be s
  | .rcRead fn addr space => Sys2Proof.Machine.execRcRead fn addr s space
  | .lockSet reg bit => Sys2Proof.Machine.execLockSet reg bit s
  | .triplicateScrub upsets later => Sys2Proof.Machine.execTriplicateScrub upsets s later
  | .wideReadStart addr => Sys2Proof.Machine.execWideReadStart addr s
  | .wideCaptureDone => Sys2Proof.Machine.execWideCaptureDone s
  | .wideReadLastWord => Sys2Proof.Machine.execWideReadLastWord s
  | .wideReadRelease => Sys2Proof.Machine.execWideReadRelease s
  | .aliveToggle => Sys2Proof.Machine.execAliveToggle s
  | .aliveStopIdle => Sys2Proof.Machine.execAliveStopIdle s
  | .roleActiveRise stableNs => Sys2Proof.Machine.execRoleActiveRise s stableNs
  | .roleActiveFall stableNs => Sys2Proof.Machine.execRoleActiveFall s stableNs
  | .checkpointCapture => Sys2Proof.Machine.execCheckpointCapture s
  | .checkpointWriteDone ok => Sys2Proof.Machine.execCheckpointWriteDone ok s
  | .takeoverHeadersRead => Sys2Proof.Machine.execTakeoverHeadersRead s
  | .takeoverBodyLoaded => Sys2Proof.Machine.execTakeoverBodyLoaded s
  | .takeoverTimeout => Sys2Proof.Machine.execTakeoverTimeout s
  | .takeoverPlacementDone => Sys2Proof.Machine.execTakeoverPlacementDone s
  | .faultCauseClear j data => Sys2Proof.Machine.execFaultCauseClear j data s
  | .fltForce data => Sys2Proof.Machine.execFltForce data s
  | .firstRearm => Sys2Proof.Machine.execFirstRearm s
  | .irqHoldoffEnd => Sys2Proof.Machine.execIrqHoldoffEnd s
  | .supplySample readings => Sys2Proof.Machine.execSupplySample readings s
  | .thermalSample readings => Sys2Proof.Machine.execThermalSample readings s
  | .powerSample watts rails => Sys2Proof.Machine.execPowerSample watts s rails
  | .avsIteration move low answered failures => Sys2Proof.Machine.execAvsIteration move low answered s failures
  | .avsRetry answered => Sys2Proof.Machine.execAvsRetry answered s
  | .bistRun => Sys2Proof.Machine.execBistRun s
  | .bistWaveStart baseline => Sys2Proof.Machine.execBistWaveStart baseline s
  | .bistWaveDone ends => Sys2Proof.Machine.execBistWaveDone ends s
  | .bistRunDone => Sys2Proof.Machine.execBistRunDone s
  | .bistResult => Sys2Proof.Machine.execBistResult s
  | .fuseBurn => Sys2Proof.Machine.execFuseBurn s
  | .fuseBurnDone readBacks => Sys2Proof.Machine.execFuseBurnDone readBacks s
  | .keyLoad => Sys2Proof.Machine.execKeyLoad s
  | .keyClear => Sys2Proof.Machine.execKeyClear s
  | .tapInstruction j => Sys2Proof.Machine.execTapInstruction j s
  | .scanUnlock value => Sys2Proof.Machine.execScanUnlock value s
  | .scanOpen => Sys2Proof.Machine.execScanOpen s
  | .scanChainsConnect => Sys2Proof.Machine.execScanChainsConnect s
  | .lifecycleAdvance => Sys2Proof.Machine.execLifecycleAdvance s
  | .lifecycleWipeDone failed => Sys2Proof.Machine.execLifecycleWipeDone failed s
  | .wakeFilterEntryWrite off data => Sys2Proof.Machine.execWakeFilterEntryWrite off data s
  | .plcaBeaconLoss t => Sys2Proof.Machine.execPlcaBeaconLoss t s
  | .beaconRx fromE octets => Sys2Proof.Machine.execBeaconRx fromE octets s
  | .perstnRelease => Sys2Proof.Machine.execPerstnRelease s
  | .pcieLinkDown => Sys2Proof.Machine.execPcieLinkDown s
  | .pcieLinkUp gen width => Sys2Proof.Machine.execPcieLinkUp s gen width
  | .pcieUncorrectableError bit fn => Sys2Proof.Machine.execPcieUncorrectableError bit s fn
  | .pcieConfigurationWrite w => Sys2Proof.Machine.execPcieConfigurationWrite w s
  | .msixVectorUnmask fn vec => Sys2Proof.Machine.execMsixVectorUnmask fn vec s
  | .fltCauseRead j => Sys2Proof.Machine.execFltCauseRead j s
  | .wakeOutFall => Sys2Proof.Machine.execWakeOutFall s

end Sys2Proof.Machine
end

