-- ==== Sys2Proof/WellFormed.lean ====
section
/-! DEFINITION. Which operand values a command can carry on the largest part of the family (R3, R6): port, channel, engine,
line and function numbers in range, offsets inside the region the row names and on a dword, lists of whole octets. Whether
the part at hand has the unit is the state's matter: `exec` stops by name on an absent unit. -/

namespace Sys2Proof

/-- A dword's offset inside a region of `n` bytes. -/
def dwordIn (n off : Nat) : Bool := decide (off < n) && decide (off % 4 = 0)

/-- What the enumeration of a CXL port can report (R267): coded width and speed, a capacity in whole bytes. -/
def CxlDevice.wf (d : CxlDevice) : Bool := decide (d.width < 4) && decide (d.speed < 16) && decide (d.head < 16)

/-- Bits of one 32-bit register, and copies that fit in them (R337). -/
def TripUpset.wf (t : TripUpset) : Bool :=
  decide (t.lo ≤ t.hi) && decide (t.hi < 32) && decide (t.addr % 4 = 0) &&
    [t.copy0, t.copy1, t.copy2].all (fun c => decide (c < 2 ^ (t.hi + 1 - t.lo)))

/-- A BIST group of R393. -/
def UnitEnd.wf (e : UnitEnd) : Bool := decide (e.group < 9)

/-- The functions of R295: physical function 0 and virtual functions 1 to 15. -/
def CfgWrite.wf : CfgWrite → Bool
  | .sriov _ n => decide (n ≤ 15)
  | .msixEnable f _ => decide (f < 16)
  | .msixMask f v => decide (f < 16) && decide (v < if f = 0 then 72 else 9)
  | .power f d => decide (f < 16) && (d = 0 || d = 3)
  | .deviceControl f p r => decide (f < 16) && [128, 256, 512].contains p && [128, 256, 512, 1024, 2048, 4096].contains r
  | .aerStatus f c => decide (f < 16) && decide (c < 2 ^ 32)
  | .bar vf n a => (if vf then [0, 4] else [0, 2, 4]).contains n && decide (a < 2 ^ 64)
  | .msixEntry f v a d => decide (f < 16) && decide (v < if f = 0 then 72 else 9) && decide (a < 2 ^ 64) && decide (d < 2 ^ 32)

/-- The operands are ones that the row's event or command can carry. -/
def Instr.wf : Instr → Bool
  | .powerOnReset _ | .coldReset _ | .resetRelease | .startupEntry | .refclkLoss => true
  | .crossingDelivery src dst => decide (src < 37) && decide (dst < 37)
  | .replicaCorrection => true
  | .frameReceived p _ _ => decide (p < 64)
  | .classify _ | .unpackFrame _ | .videoPacketStore => true
  | .frameEnqueue p => decide (p < 64)
  | .stageCellReadDone _ _ _ => true
  | .transmissionSelection p _ | .txFrameDone p | .ageExpiry p => decide (p < 64)
  | .depthSample => true
  | .dmaPoolCellsAvailable ch => decide (ch < 64)
  | .linkUp p | .linkDown p | .retrain p | .verifyMpacketRx p | .respondMpacketRx p | .verifyTimeout p => decide (p < 64)
  | .continuationFragmentRx p _ frameNo count _ _ _ => decide (p < 64) && decide (frameNo < 4) && decide (count < 4)
  | .pauseFrameRx p _ => decide (p < 64)
  | .pauseQuantaExpiry p c | .pauseWatchdog p c => decide (p < 64) && decide (c < 8)
  | .lldpduTx p | .lldpduRx p _ | .partnerTtlExpiry p => decide (p < 64)
  | .utilisationWindow p _ _ _ => decide (p < 64)
  | .shedRequestRx p _ _ | .shedAcceptRx p _ | .shedRefuseRx p _ => decide (p < 64)
  | .shedNoack p | .shedInstant p | .shedLockCheck p _ | .shedFailRetrain p _ | .shedForcedWiden p
  | .standbyWidenRetry p | .blockClr p => decide (p < 64)
  | .panelFrameRx t _ _ _ | .panelFrameTx t _ _ | .panelCollision t | .panelBackoffExpiry t _ _ | .plcaBeaconRx t | .plcaToTimer t => decide (t < 8)
  | .sidEntryWrite off _ => dwordIn 0x0200_0000 off
  | .streamBind | .streamUnbind => true
  | .unblockFilter i => decide (i < 65536)
  | .clearMarkRed i => decide (i < 16384)
  | .recoveryResetTimer f | .latentTest f | .latentResetPeriod f => decide (f < 32768)
  | .clauseWrite off _ => dwordIn 0x0040_0000 off
  | .senAdminWrite p reg _ => decide (p < 64) && decide (reg < 7)
  | .sentenceStage _ | .sentenceArm | .sentenceAbort => true
  | .sentenceSwap p _ | .cycleStart p | .clauseBoundary p _ | .holdInForce p => decide (p < 64)
  | .senEnableClear p x => decide (p < 64) && decide (x < 256)
  | .subqEntryWrite off _ => dwordIn 0x0100_0000 off
  | .qshPoolWrite p _ v => decide (p < 64) && decide (v < 65536)
  | .queueDisableFlush p cbsEn => decide (p < 64) && decide (cbsEn < 256)
  | .windowFix _ _ _ => true
  | .batchCutoff e _ | .allotmentStart e _ _ | .allotmentDone e _ | .mixDeadlineEnqueue e _ => decide (e < 512)
  | .rowFetchDone _ _ _ => true
  | .rebalance _ => true
  | .mixBankWrite off _ | .mixLiveEntryWrite off _ => dwordIn 0x1000_0000 off
  | .mixCommit | .mixWithdraw | .mixStatus | .placementLoad | .mixActivation | .mixDrainEnd => true
  | .mixPoolReturn _ => true
  | .ringJoin | .ringLeave | .ringLeaveDone | .ringCycleStart | .ringRoundStart | .syncFrameTx => true
  | .syncFrameRx _ _ | .syncCollectionEnd | .coldstartEntry | .coldstartFail | .syncMeasurementClose
  | .syncSilenceTimeout | .contributionCutoff | .trainLaunch => true
  | .trainFrameRx _ _ _ _ _ | .trainWindowEnd | .beaconTx | .ringPortDown _ | .ringWrapEnd _ | .managerTakeover => true
  | .contributionEntryWrite off _ => dwordIn 0x2000 off
  | .ringRemote => true
  | .ringRemoteDone k => decide (k < 8)
  | .incrementWrite _ | .slewStart _ | .slewEnd => true
  | .stepGo mode => decide (mode < 2)
  | .networkTimeStep _ | .ppsOutEdge | .ppsOutFall | .ppsInEdge _ => true
  | .syncTx p | .syncRx p _ | .ptpMessageRx p _ => decide (p < 64)
  | .syncTimeout => true
  | .pdelayReqTx p | .pdelayReqRx p _ | .pdelayRespRx p _ | .pdelayTimeout p | .delayStale p | .probeTx p _
  | .probeRx p _ _ => decide (p < 64)
  | .calStart | .calResult => true
  | .cxmEnum c => decide (c < 4)
  | .enumerationDone c dev => decide (c < 4) && dev.wf
  | .cxlReadFail c _ _ => decide (c < 4)
  | .cxlLinkDown c => decide (c < 4)
  | .cxmEntryWrite off _ => dwordIn 0x1_8000 off
  | .delayRecordWritten l _ | .delayRecordFetch l | .delayRecordDue l => decide (l < 1024)
  | .dmaDoorbell ch tail => decide (ch < 64) && decide (tail < 65536)
  | .descriptorFetch ch => decide (ch < 64)
  | .cqSlotFree ch tail => decide (ch < 64) && decide (tail < 65536)
  | .dmaBurst => true
  | .beatError ch | .descriptorComplete ch _ | .dmaPause ch | .dmaPaused ch | .dmaResume ch
  | .dmaChannelDisable ch => decide (ch < 64)
  | .perstnAssert | .pcieHotReset => true
  | .flr fn => decide (fn < 16)
  | .hifVfDmaWrite v _ => decide (1 ≤ v) && decide (v < 16)
  | .mailboxDoorbell fn => decide (fn < 16)
  | .commandDispatch | .identify | .stateSet | .checkpointConfig | .roleReport | .resetWarm | .warmReset
  | .warmResetDone | .blockReset | .blockResetDone | .powerState | .standbyEntryPhase | .hostWake | .wakeTimer
  | .standbyExitDone | .measure => true
  | .registerWrite sp fn addr _ be => decide (be < 16) && decide (addr % 4 = 0) &&
      (match sp with
       | .bar0 => decide (fn = 0) && decide (addr < 0x80_0000)
       | .vfBar0 => decide (1 ≤ fn) && decide (fn < 16) && decide (addr < 0x2_0000)
       | .bar2 => decide (fn = 0) && decide (addr < 0x4000_0000)
       | .dma4 => decide (fn < 64) && decide (addr < 0x4000_0000))
  | .rcRead fn addr space => decide (fn < 16) &&
      (match space with
       | .bar0 => dwordIn 0x80_0000 addr
       | .bar2 => decide (fn = 0) && dwordIn 0x4000_0000 addr
       | .bar4 => dwordIn (if fn = 0 then 0x4000 else 0x1000) addr
       | .config _ => addr = 0)
  | .lockSet reg bit => decide (reg < 4) && decide (bit < 32)
  | .triplicateScrub us later => us.all TripUpset.wf && later.all TripUpset.wf
  | .wideReadStart addr => decide (addr < 0x80_0000)
  | .wideCaptureDone | .wideReadLastWord | .wideReadRelease => true
  | .aliveToggle | .aliveStopIdle | .roleActiveRise _ | .roleActiveFall _ | .checkpointCapture
  | .checkpointWriteDone _ | .takeoverHeadersRead | .takeoverBodyLoaded | .takeoverTimeout
  | .takeoverPlacementDone => true
  | .faultCauseClear i _ => decide (i < 8)
  | .fltForce _ | .firstRearm | .irqHoldoffEnd => true
  | .supplySample _ | .thermalSample _ | .powerSample _ _ => true
  | .avsIteration move _ _ _ => decide (-1 ≤ move) && decide (move ≤ 1)
  | .avsRetry _ => true
  | .bistRun | .bistWaveStart _ => true
  | .bistWaveDone ends => ends.all UnitEnd.wf
  | .bistRunDone | .bistResult | .fuseBurn | .fuseBurnDone _ | .keyLoad | .keyClear | .tapInstruction _ => true
  | .scanUnlock value => decide (value < 2 ^ 256)
  | .scanOpen | .scanChainsConnect | .lifecycleAdvance => true
  | .lifecycleWipeDone failed => failed.all (fun c => decide (c < 4))
  | .wakeFilterEntryWrite off _ => dwordIn 0x4000 off
  | .plcaBeaconLoss t => decide (t < 8)
  | .beaconRx _ _ | .perstnRelease | .pcieLinkDown => true
  | .pcieLinkUp gen width => decide (1 ≤ gen) && decide (gen ≤ 6) && [4, 8, 16].contains width
  | .pcieUncorrectableError bit fn => decide (bit < 32) && decide (fn < 16)
  | .pcieConfigurationWrite w => w.wf
  | .msixVectorUnmask fn vec => decide (fn < 16) && decide (vec < if fn = 0 then 72 else 9)
  | .fltCauseRead i => decide (i < 8)
  | .wakeOutFall => true

end Sys2Proof
end

