-- ==== Sys2Proof/Safety.lean ====
section
/-! DEFINITION. What counts as a safe run of the block, in the terms claims use: a command that goes on, maps in their one
canonical form, the invariant that a step keeps, and the frames and conditions that statements share. -/

namespace Sys2Proof

open Machine

/-- The command goes on to a next state of which `P` holds. -/
def Safety.Next (c : Instr) (s : State) (P : State → Prop) : Prop := ∃ t, exec c s = .next t ∧ P t

/-! ### Canonical forms -/

/-- No unlisted default in a map: no entry equals what an unlisted key reads as. -/
def Safety.lean {α : Type} [DecidableEq α] (d : α) (m : SMap α) : Bool := m.all (fun e => decide (e.2 ≠ d))

/-- The one canonical form of a map whose unlisted keys read `d`: keys strictly rising, no entry equal to `d`. -/
def Safety.canon {α : Type} [DecidableEq α] (d : α) (m : SMap α) : Bool := SMap.wf m && Safety.lean d m

/-- The canonical form of the register fields' map: keys rising. -/
def Safety.regsWf (s : State) : Bool := SMap.wf s.regs

/-- The canonical form of the table dwords: keys rising, no dword of zero listed (R374). -/
def Safety.tabsWf (s : State) : Bool := Safety.canon 0#32 s.tabs

/-- The canonical form of host memory and of every CXL device's contents (log 8). -/
def Safety.memsWf (s : State) : Bool :=
  Safety.canon 0#8 s.host.mem && s.cxl.all (fun e => Safety.canon 0#8 e.2.mem)

/-- Every map that models an addressed memory is in its canonical form. -/
def Safety.mapsWf (s : State) : Bool := Safety.regsWf s && Safety.tabsWf s && Safety.memsWf s

/-! ### The invariant -/

/-- A device in SAFE has left its reset and runs no takeover (R31, R358). -/
def Safety.safeQuiet (s : State) : Prop := s.op = .safe → s.phase = .running ∧ s.pair.takeover = none

/-- The invariant of the block. -/
def Safety.Inv (s : State) : Prop := Safety.mapsWf s = true ∧ Safety.safeQuiet s

/-- Every command in execution or parked comes from one of the 17 sources of R310: 16 mailboxes and the ring. -/
def Safety.sources (s : State) : Bool := s.host.cur.all (fun c => c.src ≤ 16) && s.host.parked.all (fun c => c.src ≤ 16)

/-- The resets that start the device afresh (R374): power-on, cold reset and the loss of REFCLK (R432). -/
def Safety.fresh : Instr → Bool
  | .powerOnReset _ | .coldReset _ | .refclkLoss => true
  | _ => false

/-- Such a reset that is ignored: its level is too short, or PORn is low (R434; log 59 for REFCLK_LOSS). -/
def Safety.ignored (s : State) : Instr → Bool
  | .powerOnReset ns => decide (ns < 1000)
  | .coldReset cycles => decide (cycles < 25) || s.porLow
  | .refclkLoss => s.porLow
  | _ => false

/-- The lock fields of the REG block (R335). -/
def Safety.lockFields : List Field :=
  [F.REG_LOCK_SYS.LOCK_SYS, F.REG_LOCK_SYS.LOCK_HIF, F.REG_LOCK_ENG.LOCK_ENG, F.REG_LOCK_PORT_L.LOCK_PORT, F.REG_LOCK_PORT_H.LOCK_PORT]

/-- The opcodes of the command catalogue (R313), and those of them that every function may issue. -/
def Safety.catalogue : List Nat :=
  [0x01, 0x02, 0x10, 0x11, 0x12, 0x20, 0x21, 0x30, 0x31, 0x40, 0x41, 0x42, 0x50, 0x51, 0x60, 0x61, 0x70, 0x71, 0x80, 0x90, 0x91, 0xA0,
    0xA1, 0xB0, 0xC0]
def Safety.forAll : List Nat := [0x01, 0x21, 0x30, 0x31, 0x51, 0x71, 0xA1, 0xC0]

/-- The catalogue accepts an opcode in an operating state (R313). -/
abbrev Safety.acceptedBy (op : Nat) (st : OpState) : Prop :=
  (op ∈ [0x01, 0x21, 0x51, 0x71, 0x91, 0xA1, 0xC0]) ∨ (op ∈ [0x02, 0x60] ∧ st ≠ .safe) ∨
    (op ∈ [0x10, 0x11, 0x12, 0x20, 0x30, 0x31, 0x40, 0x41, 0x42, 0x61, 0xA0, 0xB0] ∧ (st = .startup ∨ st = .operational ∨ st = .recovery)) ∨
    (op = 0x50 ∧ (st = .startup ∨ st = .recovery)) ∨ (op = 0x70 ∧ st = .test) ∨ (op = 0x80 ∧ (st = .startup ∨ st = .test)) ∨
    (op = 0x90 ∧ st = .startup)

/-- `s` with everything that stages 4 to 6 of the drain order hold taken from `v`: the mix engines, the memory island with its DMA
channels, delay lines and CXL ports, ingress and its crossings, and the accounts of the pools (R34). -/
def Safety.behind (s v : State) : State :=
  { s with xing := v.xing, inbox := v.inbox, arrived := v.arrived, captures := v.captures, lines := v.lines, mix := v.mix,
           cxl := v.cxl, raw := v.raw, chans := v.chans, lastCh := v.lastCh, islands := v.islands }

/-- The command names a port, an engine island, a CXL port, a DMA channel or a panel port that the part does not have (R3, R6). -/
def Safety.absent (s : State) (c : Instr) : Bool :=
  match c with
  | .transmissionSelection u _ | .txFrameDone u | .frameEnqueue u | .ageExpiry u | .qshPoolWrite u _ _
  | .queueDisableFlush u _ | .senAdminWrite u _ _ | .sentenceSwap u _ | .cycleStart u | .clauseBoundary u _
  | .holdInForce u | .senEnableClear u _ | .linkUp u | .linkDown u | .retrain u | .verifyMpacketRx u
  | .respondMpacketRx u | .verifyTimeout u | .pauseFrameRx u _ | .pauseQuantaExpiry u _ | .pauseWatchdog u _
  | .lldpduTx u | .utilisationWindow u _ _ _ | .shedRequestRx u _ _ | .shedAcceptRx u _ | .shedRefuseRx u _
  | .shedNoack u | .shedInstant u | .shedLockCheck u _ | .shedFailRetrain u _ | .shedForcedWiden u
  | .standbyWidenRetry u | .blockClr u | .lldpduRx u _ | .partnerTtlExpiry u | .frameReceived u _ _
  | .continuationFragmentRx u _ _ _ _ _ _ | .ptpMessageRx u _ | .syncRx u _ | .pdelayReqRx u _
  | .pdelayRespRx u _ | .syncTx u | .pdelayReqTx u | .pdelayTimeout u | .delayStale u | .probeTx u _
  | .probeRx u _ _ => s.nPorts ≤ u
  | .rebalance u => s.nIslands ≤ u
  | .descriptorFetch u | .dmaDoorbell u _ | .cqSlotFree u _ | .dmaPoolCellsAvailable u | .beatError u
  | .descriptorComplete u _ | .dmaPause u | .dmaPaused u | .dmaResume u | .dmaChannelDisable u => 64 ≤ u
  | .panelFrameTx u _ _ | .panelCollision u | .panelBackoffExpiry u _ _ | .plcaBeaconRx u | .plcaToTimer u
  | .plcaBeaconLoss u | .panelFrameRx u _ _ _ => 8 ≤ u
  | .cxmEnum u | .enumerationDone u _ | .cxlReadFail u _ _ | .cxlLinkDown u => s.nCxl ≤ u
  | _ => false

/-! ### Frames and conditions -/

/-- Every register field whose key is not among `ks` holds what it held. -/
def Safety.RegsBut (ks : List Nat) (s t : State) : Prop := ∀ k, k ∉ ks → SMap.look t.regs k = SMap.look s.regs k

/-- Every table dword whose number is not among `ks` holds what it held. -/
def Safety.TabsBut (ks : List Nat) (s t : State) : Prop := ∀ k, k ∉ ks → SMap.look t.tabs k = SMap.look s.tabs k

/-- A write of the physical function to window `w` of BAR0 is admitted: the host reaches the device, and neither the
operating state nor STANDBY nor a wipe refuses it (R28, R297, R383, R408). -/
abbrev Safety.Admits (s : State) (w : Nat) : Prop := s.hostUp = true ∧ s.writeBarred w false = false

/-- A write to a table of BAR2 is admitted. -/
abbrev Safety.AdmitsTab (s : State) : Prop := s.hostUp = true ∧ s.tableBarred = false

/-- The sequencer executes the command `c` of opcode `op` for a mailbox that takes its response (R310). -/
abbrev Safety.Executes (s : State) (op : Nat) (c : Cmd) : Prop :=
  s.host.cur = some c ∧ c.opcode = op ∧ c.src < 16 ∧ c.discard = false

/-- The mailbox of `c` shows the command complete with a status, a detail and response words, and the sequencer is free
(R305 step 5, R307). -/
def Safety.Answers (t : State) (c : Cmd) (st det : Nat) (ws : List Nat) : Prop :=
  t.host.cur = none ∧ t.fld F.HIF_MB_STATUS.DONE c.src = 1 ∧ t.fld F.HIF_MB_STATUS.BUSY c.src = 0 ∧
    t.fld F.HIF_MB_STATUS.EXECUTING c.src = 0 ∧
    ∀ w, w < 16 → t.fld F.HIF_MB_RESP c.src w = (respWords c st det ws).getD w 0 % 2 ^ 32

/-- The fields of a mailbox that the completion of its command writes. -/
def Safety.mailKeys (src : Nat) : List Nat :=
  [F.HIF_MB_STATUS.DONE.key src 0, F.HIF_MB_STATUS.BUSY.key src 0, F.HIF_MB_STATUS.EXECUTING.key src 0,
    F.HIF_MB_STATUS.PARKED.key src 0, F.HIF_CMDS.key src 0] ++ (List.range 16).map (fun w => F.HIF_MB_RESP.key src w)

/-- A command completes with its answer and has no other effect than the answer and its vector. -/
def Safety.AnswersOnly (s t : State) (c : Cmd) (st det : Nat) (ws : List Nat) : Prop :=
  Safety.Answers t c st det ws ∧ Safety.RegsBut (Safety.mailKeys c.src) s t ∧
    t = { s with regs := t.regs
                 host := { s.host with cur := none, pendingVec := t.host.pendingVec, sent := t.host.sent } }

/-- The command leaves the sequencer and its mailbox shows it parked (R311). -/
def Safety.Parks (s t : State) (c : Cmd) : Prop :=
  t.host.cur = none ∧ t.host.parked = s.host.parked ++ [c] ∧ t.fld F.HIF_MB_STATUS.PARKED c.src = 1 ∧
    t.fld F.HIF_MB_STATUS.EXECUTING c.src = 0

/-- The mailbox of a parked command that keeps its response shows it complete (R305 step 5, R311). -/
def Safety.Replies (t : State) (c : Cmd) (st det : Nat) (ws : List Nat) : Prop :=
  c.src < 16 → c.discard = false → t.fld F.HIF_MB_STATUS.DONE c.src = 1 ∧ t.fld F.HIF_MB_STATUS.BUSY c.src = 0 ∧
    t.fld F.HIF_MB_STATUS.PARKED c.src = 0 ∧
    ∀ w, w < 16 → t.fld F.HIF_MB_RESP c.src w = (respWords c st det ws).getD w 0 % 2 ^ 32

/-- A 32-bit counter of a table entry has counted once and saturates (R83). -/
abbrev Safety.Counted (s t : State) (k : Nat) : Prop := t.tab k = min (s.tab k + 1) 0xFFFFFFFF

/-- The oldest descriptor `x` at the classifier, before the rest `r`, is of frame `f`, whose identification gives the valid handle `h`
that discards nothing (R77, R78, R81); no table entry has a parity error, and no latch waits to be cleared. -/
abbrev Safety.Meets (s : State) (x : Arrived) (r : List Arrived) (f : Frame) (h : Nat) : Prop :=
  s.phase = .running ∧ s.inbox = x :: r ∧ s.bad = [] ∧ s.bst.tested = [] ∧ s.unblocks = [] ∧ s.frame x.fid = some f ∧
    s.on F.SID_CTL.ENABLE = true ∧ (s.matchIsh f).or (s.defaultIsh f.port) = some h ∧ h < 65536 ∧
    s.ishBit h 31 = true ∧ s.ishBit h 30 = false

/-- Of the functions that a handle can name (its filter at bit 29 of its dword 0, its generation function at 28, its two recovery
functions at 27 and 26), handle `h` names those of `bs`; it has no sum binding and no delay line, and no reset holds an island. -/
abbrev Safety.Only (s : State) (h : Nat) (bs : List Nat) : Prop :=
  (∀ b ∈ [26, 27, 28, 29], s.ishBit h b = bs.contains b) ∧ s.tabBits (ishTab h) 5 15 0 = 0 ∧ s.linesOf h = [] ∧
    s.pwr.blockRun = none ∧ s.pwr.warmRun = none

/-- The copies of frame `f` under the number `seq` leave for the islands of the egress ports of handle `h`'s fan-out (R14, R23, R81). -/
abbrev Safety.Presented (s t : State) (f : Frame) (h : Nat) (seq : Option Nat) (dei : Bool) : Prop :=
  t.xing = s.xing ++ (s.eshCopies f seq dei .forwarded (s.fanHandles (s.fanOut h))).1.map (fun (c : Copy) =>
    let d := if 64 ≤ c.port then islPanel else c.port / 4
    (⟨islClassifier, d, s.lt + 4 * coreCycle + 3 * clkOf d, .copy c⟩ : Transfer))

/-- A fault source is recorded: its cause bit is set (R368). -/
abbrev Safety.Caused (t : State) (src : Nat) : Prop := t.fbit F.FLT_CAUSE (src % 32) 0 (src / 32) = true

end Sys2Proof
end

