-- ==== Sys2Proof/Certificates/Slice0/Obligations.lean ====
section
/-! DEFINITION. The statements for the provers. Each is a proposition about the model, with the rule of the spec that it rests
on in OBLIGATIONS.json. -/

open Sys2Proof Sys2Proof.Machine

/-- A step runs the command at the front of the queue, or is one tick of the 1 GHz tick. For every command c, queue q
and state s, a step of s with c in front of q is exec of c on s with the queue q. With an empty queue, no slew and
the increment in force, a step advances local time by one nominal nanosecond, network time by the increment, modulo
2^48 seconds, and ring time by 1 + RATE + STEER, and changes nothing but the clocks (log 9 for the step being a
tick). (R207, R240, R241, 98_reader.md, State.pending) -/
def Obligations.StepFront : Prop :=
  (∀ (c : Instr) (q : List Instr) (s : State),
      step { s with pending := c :: q } = exec c { s with pending := q }) ∧
    (∀ s : State, s.pending = [] → s.time.slewLeft = 0 → s.time.oldUntil ≤ s.lt → s.time.rest < 1600 →
      0 ≤ s.con.rest → s.con.rest < 1600 →
      ∃ t, step s = .next t ∧ t.lt = s.lt + 1600 ∧ t.time.nt = (s.time.nt + s.time.inc) % ntMod ∧
        t.con.rt = s.con.rt + s.ringRate ∧
        t = { s with lt := t.lt, time := { s.time with nt := t.time.nt }, con := { s.con with rt := t.con.rt } })

/-- What reset leaves. State.reset holds no command, is held in reset in STARTUP, shows every register field at its
reset value and every table dword as zero, has network time at zero with the nominal increment, an empty fault
history and no key (R240, R374; the levels of pins and the other values without a reset value are the model's, log
39). (R240, R374, 12_register_conventions_and_map.md) -/
def Obligations.ResetValues : Prop :=
  State.reset.pending = [] ∧ State.reset.phase = .held ∧ State.reset.op = .startup ∧
    (∀ (f : Field) (u i : Nat), State.reset.fld f u i = f.rst) ∧ (∀ k : Nat, State.reset.tab k = 0) ∧
    State.reset.time.nt = 0 ∧ State.reset.time.inc = 0x1_0000_0000 ∧ State.reset.flt.history = [] ∧
    State.reset.flt.first = none ∧ State.reset.bst.keys = [] ∧ State.reset.frames = [] ∧ State.reset.mix.pending = none

/-- The invariant holds at reset. Every map of State.reset is in its canonical form, and the device is not in SAFE.
(R374, 01_architecture.md) -/
def Obligations.InvReset : Prop :=
  Safety.Inv State.reset ∧ State.reset.op ≠ .safe

/-- Every step keeps the invariant. From every state whose memories are in their canonical form and which runs no
takeover in SAFE, every step that goes on leads to such a state. (R31, R358, R374) -/
def Obligations.InvStep : Prop :=
  ∀ s t : State, Safety.Inv s → step s = .next t → Safety.Inv t

/-- Commands run first in, first out, and nothing but the sender queues them. No command adds to, takes from or reorders
the queue, and none changes which part the device is: a step that goes on from a queue leaves exactly the commands
behind its front. (R3, State.pending, 98_reader.md) -/
def Obligations.QueueInOrder : Prop :=
  ∀ s t : State, step s = .next t → t.pending = s.pending.drop 1 ∧ t.fuses.variant = s.fuses.variant

/-- Only a reset that starts the device afresh leads out of SAFE. In a state that meets the invariant, every command but
power-on reset, cold reset and the loss of REFCLK leaves a device in SAFE in SAFE, and those three take it to
STARTUP unless they are ignored: a level that is too short, or PORn low (log 59 for the loss of REFCLK with PORn
low). (R31, R32, R373, R434) -/
def Obligations.SafeIsLeftByResetOnly : Prop :=
  ∀ (c : Instr) (s t : State), Safety.Inv s → s.op = .safe → exec c s = .next t →
    t.op = if Safety.fresh c && !Safety.ignored s c then .startup else .safe

/-- A key slot is loaded only by KEY_LOAD. Every command but KEY_LOAD leaves the key store with no key that it did not
hold before. (R403, 15_self_test_and_lifecycle.md) -/
def Obligations.KeysComeFromKeyLoadOnly : Prop :=
  ∀ (c : Instr) (s t : State), c ≠ .keyLoad → exec c s = .next t → ∀ e, e ∈ t.bst.keys → e ∈ s.bst.keys

/-- The life-cycle state and the owner value change at a fuse read and at the end of a life-cycle wipe only. Every
command but POWER_ON_RESET, RESET_RELEASE and LIFECYCLE_WIPE_DONE leaves the life-cycle shadow, the owner value and
their fuses as they are; LIFECYCLE_WIPE_DONE does so too while no transition is in progress. (R405, R407, R408) -/
def Obligations.LifeCycleStands : Prop :=
  ∀ (c : Instr) (s t : State), (∀ n, c ≠ .powerOnReset n) → c ≠ .resetRelease → exec c s = .next t →
    (∀ failed, c = .lifecycleWipeDone failed → s.bst.advance = none) →
    t.lifecycle = s.lifecycle ∧ t.owner = s.owner ∧ t.fuses.lifecycle = s.fuses.lifecycle ∧
      t.fuses.owner = s.fuses.owner

/-- Local device time never runs back. No step moves local device time backwards: the clock survives every reset (the
model's clock, logs 10 and 39). (R14, R19, 01_architecture.md) -/
def Obligations.ClockNeverRunsBack : Prop :=
  ∀ s t : State, step s = .next t → s.lt ≤ t.lt

/-- Every command in the sequencer comes from a mailbox or from the ring. State.reset has no command in execution or
parked; and from every state in which the commands in execution and parked come from the 17 sources of R310, the 16
mailboxes and the ring, every step that goes on leads to such a state. (R305, R310, R311, R316) -/
def Obligations.CommandSources : Prop :=
  Safety.sources State.reset = true ∧
    ∀ s t : State, Safety.sources s = true → step s = .next t → Safety.sources t = true

/-- Only power-on and cold reset clear a lock. Every command but power-on reset, cold reset and the loss of REFCLK,
which is a cold reset, leaves a set lock of the REG block set. A pass of the scrubber is left out: upsets of two
copies of a lock change its majority, and R335 speaks of no upset. (R335, R337, R432) -/
def Obligations.LocksStand : Prop :=
  ∀ (c : Instr) (s t : State) (f : Field) (b : Nat), f ∈ Safety.lockFields → b < f.width → Safety.fresh c = false →
    (∀ us later, c ≠ .triplicateScrub us later) → exec c s = .next t → s.fbit f b = true → t.fbit f b = true

/-- Power-on reset, cold reset and the loss of REFCLK. POWER_ON_RESET with PORn low for 1 us or more returns every
register, table, clock, history and key to its reset value and holds the device, its lanes to be calibrated;
COLD_RESET with RSTn low for 25 cycles or more, and REFCLK_LOSS, do so but for the life-cycle shadow, the owner
value, PWR_RESET_CAUSE and the TAP's instruction, and after REFCLK_LOSS the hold lasts 1 ms. Shorter levels have no
effect, and neither has a cold reset or a loss of REFCLK while PORn is low, but that RSTn is low. The queue, the
fuses and local time stand (logs 39 and 59 for what stands outside and for the loss of REFCLK while PORn is low, log
35 for the TAP's instruction). (R374, R379, R410, R432, R434) -/
def Obligations.FreshResets : Prop :=
  (∀ (s : State) (n : Nat), 1000 ≤ n → Safety.Next (.powerOnReset n) s (fun t =>
      t.phase = .held ∧ t.porLow = true ∧ t.op = .startup ∧ t.regs = [] ∧ t.tabs = [] ∧ t.time = { TimeS.reset with syncFrom := s.lt } ∧
      t.flt = FltS.reset ∧ t.mix = MixS.reset ∧ t.con = ConS.reset ∧ t.ports = [] ∧ t.chans = [] ∧ t.frames = [] ∧
      t.bst = BstS.reset ∧ t.pwr = PwrS.reset ∧ t.lifecycle = 0 ∧ t.owner = 0 ∧ t.fuses = s.fuses ∧
      t.board = { s.board with calibrated := false } ∧ t.pending = s.pending ∧ t.lt = s.lt)) ∧
    (∀ (c : Instr) (s : State), (∃ n, 25 ≤ n ∧ c = .coldReset n) ∨ c = .refclkLoss → s.porLow = false → Safety.Next c s (fun t =>
      t.phase = .held ∧ t.porLow = false ∧ t.op = .startup ∧ t.regs = [(F.PWR_RESET_CAUSE.key 0 0, 1)] ∧ t.tabs = [] ∧
      t.time = { TimeS.reset with syncFrom := s.lt } ∧ t.flt = FltS.reset ∧ t.mix = MixS.reset ∧ t.con = ConS.reset ∧ t.ports = [] ∧
      t.chans = [] ∧ t.frames = [] ∧ t.bst = { BstS.reset with tap := s.bst.tap } ∧ t.pwr = PwrS.reset ∧
      t.lifecycle = s.lifecycle ∧ t.owner = s.owner ∧ t.fuses = s.fuses ∧ t.pending = s.pending ∧ t.lt = s.lt ∧
      (c = .refclkLoss → t.board = { s.board with holdUntil := s.lt + ltMs }) ∧
      (c ≠ .refclkLoss → t.board = { s.board with rstLow := true }))) ∧
    (∀ (s : State) (n : Nat), n < 1000 → Safety.Next (.powerOnReset n) s (fun t => t = s)) ∧
    (∀ (s : State) (n : Nat), n < 25 → Safety.Next (.coldReset n) s (fun t => t = s)) ∧
    (∀ (s : State) (n : Nat), 25 ≤ n → s.porLow = true → Safety.Next (.coldReset n) s (fun t =>
      t = { s with board := { s.board with rstLow := true } })) ∧
    (∀ s : State, s.porLow = true → Safety.Next .refclkLoss s (fun t => t = s))

/-- The release of a reset and the entry to STARTUP. A held device whose reset is released, with TESTMODE low, reads its
fuses and wipes, once REFCLK has run for 1 ms where it was lost; after PORn it takes the life-cycle state and the
owner value from the fuses, after RSTn it keeps the shadows; 43 ms after the release (log 25) it runs in STARTUP,
its lanes calibrated. With TESTMODE high it stays held. (R27, R374, R392, R421, R432, R434) -/
def Obligations.ReleaseAndStartup : Prop :=
  (∀ s : State, s.phase = .held → s.board.testmode = false → Safety.Next .resetRelease s (fun t =>
      t.phase = .wiping ∧ t.porLow = false ∧ t.fld F.PWR_BUDGET = s.fuses.variant.budget ∧
      t.lifecycle = (if s.porLow then s.fuses.lifecycle else s.lifecycle) ∧
      t.owner = (if s.porLow then s.fuses.owner else s.owner) ∧ t.fuses = s.fuses ∧ t.tabs = s.tabs ∧
      t.lt = max s.lt s.board.holdUntil ∧ t.board = { s.board with rstLow := false, released := t.lt })) ∧
    (∀ s : State, s.phase = .held → s.board.testmode = true → Safety.Next .resetRelease s (fun t => t = s)) ∧
    (∀ s : State, s.phase = .wiping → Safety.Next .startupEntry s (fun t =>
      t.phase = .running ∧ t.op = .startup ∧ t.board.calibrated = true ∧ t.lt = max s.lt (s.board.released + 43 * ltMs)))

/-- STATE_SET makes the transitions of R31 and no other. With no BIST run, the pair disabled and no automatic transition
waiting in its cycle, a STATE_SET that R31 lists changes the operating state to the one it names; any other
completes with WRONG_STATE and changes nothing but the mailbox and the sequencer. One that meets a forced S3 in its
cycle is judged against SAFE and completes with WRONG_STATE (log 63 for what waits in a cycle). (R31,
01_architecture.md) -/
def Obligations.StateSetMoves : Prop :=
  ∀ (s : State) (c : Cmd), Safety.Executes s 0x02 c → s.bst.run = none →
    (setAllowed s.op (opOf (bitsOf (c.word 1) 2 0)) = true → s.pairOn = false → s.autosAhead = [] →
      Safety.Next .stateSet s (fun t => t.op = opOf (bitsOf (c.word 1) 2 0))) ∧
    (setAllowed s.op (opOf (bitsOf (c.word 1) 2 0)) = false → s.autosAhead = [] →
      Safety.Next .stateSet s (fun t => Safety.AnswersOnly s t c xWRONGSTATE 7 [s.op.code])) ∧
    (∀ q, s.pending = .fltForce 0x5333 :: q → ({ s with pending := q } : State).autosAhead = [] → Safety.Admits s 2 → s.s3MustWait = false →
      s.op ≠ .safe → Safety.Next .stateSet s (fun t => Safety.AnswersOnly s t c xWRONGSTATE 7 [4]))

/-- Warm resets and hot resets. RESET_WARM with the right key answers OK and asks for a warm reset 1 us later, and with
a wrong key answers BAD_ARG with detail 0x06 (log 33) and asks for none; a hot reset takes the host link down (log
58) and asks for a warm reset at once where HOT_RESET_ACT is 0, and not in SAFE; the warm reset runs from its
instant, shows its cause in PWR_RESET_CAUSE, and ends 1 ms later (log 25). No S3 of the same cycle stands ahead
(R33, log 63). (R298, R314, R376, R379) -/
def Obligations.WarmAndHotReset : Prop :=
  (∀ (s : State) (c : Cmd), Safety.Executes s 0x60 c → c.word 1 = 0x5741 → Safety.Next .resetWarm s (fun t =>
      Safety.Answers t c xOK 0 [] ∧ t.pwr.warmAt = some (false, s.lt + ltUs) ∧ t.op = s.op)) ∧
    (∀ (s : State) (c : Cmd), Safety.Executes s 0x60 c → c.word 1 ≠ 0x5741 → Safety.Next .resetWarm s (fun t =>
      Safety.Answers t c xBADARG 6 [] ∧ t.pwr = s.pwr ∧ t.op = s.op)) ∧
    (∀ s : State, s.phase = .running → Safety.Next .pcieHotReset s (fun t => t.host.linkUp = false ∧
      (s.on F.HIF_CTL.HOT_RESET_ACT = false → s.op ≠ .safe → s.s3Ahead = false → t.pwr.warmAt = some (true, s.lt)))) ∧
    (∀ (s : State) (hot : Bool) (a : Nat), s.pwr.warmAt = some (hot, a) → s.phase = .running → s.pwr.warmRun = none →
      s.op ≠ .safe → s.pwr.state = .run → s.pwr.entry = none → s.pwr.setAfter = none → (s.runToLt a).s3Ahead = false → Safety.Next .warmReset s (fun t =>
        t.pwr.warmRun = some (hot, max s.lt a) ∧ t.pwr.warmAt = none ∧
        t.fld F.PWR_RESET_CAUSE = (if hot then 3 else 2))) ∧
    (∀ (s : State) (hot : Bool) (a : Nat), s.pwr.warmRun = some (hot, a) → Safety.Next .warmResetDone s (fun t =>
      t.pwr.warmRun = none ∧ t.lt = max s.lt (a + ltMs)))

/-- Block resets. BLOCK_RESET with no block reset and no warm reset in progress holds its target, and its command stays
in execution; 100 us after the begin (log 25) the command completes with OK. One that comes during a warm reset
stays in execution and begins when the warm reset ends. (R314, R377, R378) -/
def Obligations.BlockResets : Prop :=
  (∀ (s : State) (c : Cmd), Safety.Executes s 0x61 c → s.pwr.blockRun = none → s.pwr.warmRun = none → Safety.Next .blockReset s (fun t =>
      t.pwr.blockRun = some (bitsOf (c.word 1) 7 0, bitsOf (c.word 1) 9 8, t.lt) ∧ t.host.cur = some c ∧ t.op = s.op)) ∧
    (∀ (s : State) (c : Cmd) (w sub a : Nat), Safety.Executes s 0x61 c → s.pwr.blockRun = some (w, sub, a) →
      s.pwr.s3Wait = false → Safety.Next .blockResetDone s (fun t =>
        t.pwr.blockRun = none ∧ t.lt = max s.lt (a + 100 * ltUs) ∧ Safety.Answers t c xOK 0 [])) ∧
    (∀ (s : State) (c : Cmd), Safety.Executes s 0x61 c → s.pwr.blockRun = none → s.pwr.warmRun ≠ none → Safety.Next .blockReset s (fun t =>
      t = { s with pwr := { s.pwr with blockWait := true } })) ∧
    (∀ (s : State) (c : Cmd) (hot : Bool) (a : Nat), s.pwr.warmRun = some (hot, a) → s.pwr.blockWait = true → s.host.cur = some c →
      Safety.Next .warmResetDone s (fun t =>
        t.pwr.blockRun = some (bitsOf (c.word 1) 7 0, bitsOf (c.word 1) 9 8, t.lt) ∧ t.pwr.blockWait = false ∧ t.host.cur = some c))

/-- The transitions of the power state. With no transition in progress and the pair disabled POWER_STATE takes RUN to
DOZE, begins the entry to STANDBY from RUN and DOZE, takes DOZE to RUN and begins the exit from STANDBY; every other
request answers BAD_ARG and changes no power state; a request during a transition answers BUSY. The entry reaches
STANDBY after 500 us, and the exit reaches RUN 2.0 ms after the wake request. The model's readings in it: log 36
(when a request is judged, STANDBY beside an enabled pair). (R380, R382, R385) -/
def Obligations.PowerTransitions : Prop :=
  (∀ (s : State) (c : Cmd), Safety.Executes s 0xB0 c → s.pwr.entry = none → s.pwr.exit = none → s.pairOn = false →
      Safety.Next .powerState s (fun t =>
        match s.pwr.state, bitsOf (c.word 1) 1 0 with
        | .run, 1 => t.pwr.state = .doze
        | .run, 2 => t.pwr.state = .run ∧ t.pwr.entry = some (0, s.lt)
        | .doze, 0 => t.pwr.state = .run
        | .doze, 2 => t.pwr.state = .doze ∧ t.pwr.entry = some (0, s.lt)
        | .standby, 0 => t.pwr.state = .standby ∧ t.pwr.exit = some s.lt
        | _, n => Safety.Answers t c xBADARG 7 [n] ∧ t.pwr = s.pwr)) ∧
    (∀ (s : State) (c : Cmd), Safety.Executes s 0xB0 c → (s.pwr.entry ≠ none ∨ s.pwr.exit ≠ none) →
      Safety.Next .powerState s (fun t => Safety.Answers t c xBUSY 7 [bitsOf (c.word 1) 1 0] ∧ t.pwr = s.pwr)) ∧
    (∀ (s : State) (k a : Nat), s.pwr.entry = some (k, a) → Safety.Next .standbyEntryPhase s (fun t =>
      if k = 0 then t.pwr.entry = some (1, a) ∧ t.lt = max s.lt (a + 20 * ltUs)
      else if k = 1 then t.pwr.entry = some (2, a) ∧ t.lt = max s.lt (a + 100 * ltUs)
      else t.pwr.state = .standby ∧ t.pwr.entry = none ∧ t.lt = max s.lt (a + 500 * ltUs))) ∧
    (∀ (s : State) (a : Nat), s.pwr.state = .standby → s.pwr.exit = some a → Safety.Next .standbyExitDone s (fun t =>
      t.pwr.state = .run ∧ t.pwr.exit = none ∧ t.lt = max s.lt (a + 2 * ltMs)))

/-- Wake requests of the host and of the timer, and the fall of WAKE_OUT. A write of 1 to HOST_WAKE while its enable bit
is 1 sets cause bit 3 and drives WAKE_OUT; the timer sets cause bit 2 at the network time of PWR_WAKE_AT, the start
of the next second whose low 32 bits equal it; with its enable bit at 0 neither has an effect. WAKE_OUT falls once
the cause bits are zero, at least 10 us after its rise (log 22), and not before. (R384,
14_faults_resets_power_states.md) -/
def Obligations.WakeRequests : Prop :=
  (∀ s : State, Safety.Admits s 3 → s.fbit F.PWR_WAKE_CTL.EN 3 = true → Safety.Next .hostWake s (fun t =>
      t.fbit F.PWR_WAKE_CAUSE.CAUSE 3 = true ∧ t.pwr.wakeOut = some s.lt ∧ Safety.Caused t 15)) ∧
    (∀ s : State, Safety.Admits s 3 → s.fbit F.PWR_WAKE_CTL.EN 3 = false → Safety.Next .hostWake s (fun t => t = s)) ∧
    (∀ s : State, s.phase = .running → s.fbit F.PWR_WAKE_CTL.EN 2 = true → Safety.Next .wakeTimer s (fun t =>
      t.fbit F.PWR_WAKE_CAUSE.CAUSE 2 = true ∧ t.pwr.wakeOut = some t.lt ∧ Safety.Caused t 15 ∧
      t.time.nt = s.wakeSecond * 1000000000 * 2 ^ 32 % ntMod ∧ s.wakeSecond % 2 ^ 32 = s.fld F.PWR_WAKE_AT % 2 ^ 32 ∧
      s.ns / 1000000000 < s.wakeSecond ∧ s.wakeSecond ≤ s.ns / 1000000000 + 2 ^ 32)) ∧
    (∀ s : State, s.fbit F.PWR_WAKE_CTL.EN 2 = false → Safety.Next .wakeTimer s (fun t => t = s)) ∧
    (∀ (s : State) (a : Nat), s.pwr.wakeOut = some a → s.fld F.PWR_WAKE_CAUSE.CAUSE = 0 →
      Safety.Next .wakeOutFall s (fun t => t.pwr = { s.pwr with wakeOut := none } ∧ t.lt = max s.lt (a + 10 * ltUs) ∧
        t.regs = s.regs ∧ t.tabs = s.tabs)) ∧
    (∀ s : State, s.fld F.PWR_WAKE_CAUSE.CAUSE ≠ 0 → Safety.Next .wakeOutFall s (fun t => t = s))

/-- The samples of the supply, thermal and power monitors and the AVS loop. A supply sample with PORn high stores each
rail's reading, and with PORn low nothing; a thermal sample stores a present sensor's reading; a power sample over
PWR_BUDGET sets the cause bit of PWR_OVER_BUDGET and one within it raises nothing; an AVS iteration with AVS_EN 0
sets 750 mV, one with the loop running moves the target by at most 5 mV and sets the target held within its bounds;
failed transactions hold the target, and the third in a row stops the loop and raises PWR_AVS_FAIL; a retry that is
answered ends STOPPED, and one that is not leaves it. Each runs the clock on to the next multiple of its period (log
10). (R24, R386, R387, R388, R389, R390, R427) -/
def Obligations.MonitorSamples : Prop :=
  (∀ (s : State) (l : List (Nat × Nat)), Safety.sources s = true → Safety.Next (.supplySample l) s (fun t =>
      (s.porLow = false → ∀ r v i, r < 6 → l[r]? = some (v, i) → t.fld F.PWR_RAIL_VI.V 0 r = v % 2 ^ 16 ∧
        t.fld F.PWR_RAIL_VI.I 0 r = i % 2 ^ 16) ∧
      (s.porLow = true → t.regs = s.regs ∧ t.flt = s.flt ∧ t.pwr = s.pwr) ∧
      t.lt = (s.lt / (10 * ltUs) + 1) * (10 * ltUs))) ∧
    (∀ (s : State) (l : List (Nat × Int)), Safety.sources s = true → (l.map (fun x => x.1)).Nodup → Safety.Next (.thermalSample l) s (fun t =>
      (∀ n x, (n, x) ∈ l → s.sensorPresent n = true → t.fld F.PWR_THERM_SENS 0 n = ofSigned 8 x % 2 ^ 8) ∧
      t.lt = (s.lt / (100 * ltUs) + 1) * (100 * ltUs))) ∧
    (∀ (s : State) (w : Nat) (rs : List (Nat × Nat)), s.fld F.PWR_BUDGET < w + railWatts rs → Safety.Next (.powerSample w rs) s (fun t =>
      t.pwr.watts = w + railWatts rs ∧ Safety.Caused t 14 ∧ t.lt = (s.lt / ltMs + 1) * ltMs)) ∧
    (∀ (s : State) (w : Nat) (rs : List (Nat × Nat)), w + railWatts rs ≤ s.fld F.PWR_BUDGET → Safety.Next (.powerSample w rs) s (fun t =>
      t.pwr = { s.pwr with watts := w + railWatts rs } ∧ t.regs = s.regs ∧ t.flt = s.flt ∧ t.lt = (s.lt / ltMs + 1) * ltMs)) ∧
    (∀ (s : State) (m : Int) (low ok : Bool) (n : Nat), s.fld F.PWR_AVS_CTL.AVS_EN = 0 → Safety.Next (.avsIteration m low ok n) s
      (fun t => t.fld F.PWR_AVS_STATUS.SET_MV = 750 ∧ t.pwr = s.pwr ∧ t.lt = (s.lt / (100 * ltUs) + 1) * (100 * ltUs))) ∧
    (∀ (s : State) (m : Int) (low : Bool) (n : Nat), s.fld F.PWR_AVS_CTL.AVS_EN ≠ 0 → s.on F.PWR_AVS_STATUS.STOPPED = false →
      Safety.Next (.avsIteration m low true n) s (fun t =>
        t.pwr.avsTarget = clampInt 0 1023 (s.pwr.avsTarget + 5 * clampInt (-1) 1 m) ∧
        t.fld F.PWR_AVS_STATUS.SET_MV =
          (clampInt (s.fld F.PWR_AVS_BOUNDS.MIN_MV) (s.fld F.PWR_AVS_BOUNDS.MAX_MV) t.pwr.avsTarget).toNat % 2 ^ 10 ∧
        t.lt = (s.lt / (100 * ltUs) + 1) * (100 * ltUs))) ∧
    (∀ (s : State) (m : Int) (low : Bool) (n : Nat), s.fld F.PWR_AVS_CTL.AVS_EN ≠ 0 → s.on F.PWR_AVS_STATUS.STOPPED = false →
      Safety.Next (.avsIteration m low false n) s (fun t =>
        t.pwr.avsTarget = s.pwr.avsTarget ∧ t.lt = (s.lt / (100 * ltUs) + 1) * (100 * ltUs) ∧
        (s.pwr.avsRow + n < 3 → t.on F.PWR_AVS_STATUS.STOPPED = false ∧ t.pwr.avsRow = s.pwr.avsRow + n) ∧
        (3 ≤ s.pwr.avsRow + n → t.fld F.PWR_AVS_STATUS.STOPPED = 1 ∧ Safety.Caused t 12))) ∧
    (∀ s : State, s.on F.PWR_AVS_STATUS.STOPPED = true → Safety.Next (.avsRetry true) s (fun t =>
      t.fld F.PWR_AVS_STATUS.STOPPED = 0 ∧ t.lt = (s.lt / (10 * ltMs) + 1) * (10 * ltMs))) ∧
    (∀ s : State, s.on F.PWR_AVS_STATUS.STOPPED = true → Safety.Next (.avsRetry false) s (fun t =>
      t.regs = s.regs ∧ t.lt = (s.lt / (10 * ltMs) + 1) * (10 * ltMs)))

/-- A doorbell written while BUSY is 1. A doorbell written while BUSY is 1 counts in HIF_DOORBELL_DROP and changes
nothing else, so that the command in progress and its response are unaffected. (R306) -/
def Obligations.DoorbellWhileBusy : Prop :=
  ∀ (s : State) (fn : Nat), s.hostUp = true → s.fnExists fn = true → s.on F.HIF_MB_STATUS.BUSY fn = true →
    Safety.Next (.mailboxDoorbell fn) s (fun t =>
      t.fld F.HIF_DOORBELL_DROP fn = min (s.fld F.HIF_DOORBELL_DROP fn + 1) (2 ^ 32 - 1) ∧
      Safety.RegsBut [F.HIF_DOORBELL_DROP.key fn 0] s t ∧ t = { s with regs := t.regs })

/-- A command from its doorbell to its judgement. A doorbell of an idle mailbox hands its 16 request words to the
sequencer, sets BUSY and clears DONE; the free sequencer takes the command of the next source in rotation, shows it
EXECUTING, and completes it at once with the status and detail of the first failed check of R309, changing nothing
but the mailbox and its place in the rotation, or executes it; a command of the ring's remote source answers back to
its slot instead of a mailbox. The checks of R309 in their order: an opcode outside the catalogue is BAD_OPCODE; one
that its function may not issue is LOCKED; outside STANDBY and a life-cycle wipe, one that the operating state does
not accept is WRONG_STATE; a bit of a reserved request word is BAD_ARG with detail 1, an argument outside its range
with detail 2, an absent port or BIST group with detail 3; a command that passes them all is executed. (R237, R305,
R309, R310, R313, R314) -/
def Obligations.CommandRuns : Prop :=
  (∀ (s : State) (fn : Nat), s.hostUp = true → s.fnExists fn = true → s.on F.HIF_MB_STATUS.BUSY fn = false →
      Safety.Next (.mailboxDoorbell fn) s (fun t =>
        SMap.look t.host.waiting fn = some (s.reqWords fn) ∧ t.fld F.HIF_MB_STATUS.BUSY fn = 1 ∧
        t.fld F.HIF_MB_STATUS.DONE fn = 0 ∧
        Safety.RegsBut [F.HIF_MB_STATUS.BUSY.key fn 0, F.HIF_MB_STATUS.DONE.key fn 0] s t ∧
        t = { s with regs := t.regs, host := { s.host with waiting := t.host.waiting } })) ∧
    (∀ (s : State) (src : Nat), s.phase = .running → s.host.cur = none → s.pwr.warmAt = none → s.pwr.warmRun = none →
      s.nextSource = some src → src < 16 → Safety.Next .commandDispatch s (fun t =>
        let c : Cmd := ⟨src, SMap.val s.host.waiting src [], false⟩
        SMap.look t.host.waiting src = none ∧ t.host.last = src ∧ t.tabs = s.tabs ∧ t.op = s.op ∧ t.lt = s.lt ∧
        match s.judge c with
        | none => t.fld F.HIF_MB_STATUS.EXECUTING src = 1 ∧ Safety.RegsBut [F.HIF_MB_STATUS.EXECUTING.key src 0] s t ∧
            t = { s with regs := t.regs
                         host := { s.host with waiting := SMap.del s.host.waiting src, last := src, cur := some c } }
        | some (st, det) => Safety.AnswersOnly
            { s with host := { s.host with waiting := SMap.del s.host.waiting src, last := src } } t c st det [])) ∧
    (∀ s : State, s.phase = .running → s.host.cur = none → s.pwr.warmAt = none → s.pwr.warmRun = none →
      s.nextSource = some 16 → Safety.Next .commandDispatch s (fun t =>
        let c : Cmd := ⟨16, SMap.val s.host.waiting 16 [], false⟩
        t.host.last = 16 ∧ t.regs = s.regs ∧ t.tabs = s.tabs ∧ t.op = s.op ∧ t.lt = s.lt ∧
        match s.judge c with
        | none => t.host.cur = some c ∧ t.con = s.con
        | some (st, det) => t.host.cur = none ∧ t.con = { s.con with
            remote := s.con.remote.drop 1
            answers := s.con.answers ++ (s.con.remote.take 1).map (fun x => (x.1, respWords c st det [])) })) ∧
    (∀ (s : State) (c : Cmd), c.opcode ∉ Safety.catalogue → s.judge c = some (xBADOP, 0)) ∧
    (∀ (s : State) (c : Cmd), c.opcode ∈ Safety.catalogue → 0 < c.src → c.src < 16 → c.opcode ∉ Safety.forAll →
      s.judge c = some (xLOCKED, 0)) ∧
    (∀ (s : State) (c : Cmd), c.opcode ∈ Safety.catalogue → (c.src = 0 ∨ c.src = 16 ∨ c.opcode ∈ Safety.forAll) →
      s.pwr.state ≠ .standby → s.wiping = false →
      (¬ Safety.acceptedBy c.opcode s.op → s.judge c = some (xWRONGSTATE, 0)) ∧
      (Safety.acceptedBy c.opcode s.op →
        (∀ w b, (w = 14 ∨ w = 15) → b < 32 → (c.word w).testBit b = true → c.opcode ≠ 0x42 → s.judge c = some (xBADARG, 1)) ∧
        (reservedSet c = false →
          (c.opcode = 0x02 → 3 < bitsOf (c.word 1) 2 0 → s.judge c = some (xBADARG, 2)) ∧
          (c.opcode = 0x70 → c.word 1 = 0 → s.judge c = some (xBADARG, 2)) ∧
          (c.opcode = 0x80 → bitsOf (c.word 1) 1 0 = 0 → s.judge c = some (xBADARG, 2)) ∧
          (c.opcode ∈ [0x10, 0x11, 0x12, 0xA0, 0xA1] → s.nPorts ≤ bitsOf (c.word 1) 5 0 → s.judge c = some (xBADARG, 3)) ∧
          (c.opcode = 0x71 → 9 ≤ bitsOf (c.word 1) 4 0 → s.judge c = some (xBADARG, 3)) ∧
          (outOfRange c = false → s.namesAbsent c = false → s.judge c = none))))

/-- IDENTIFY, ROLE_REPORT and MEASURE answer and change nothing else. IDENTIFY answers with the part, the interface
version, HIF_STATE, the unit counts and the serial number, ROLE_REPORT with the pair's levels and counts, MEASURE
with the reading that its kind and index name and with BAD_ARG for a kind above 3; none has another effect than its
answer. (R8, R313, R314) -/
def Obligations.Reports : Prop :=
  ∀ (s : State) (c : Cmd),
    (Safety.Executes s 0x01 c → Safety.Next .identify s (fun t => Safety.AnswersOnly s t c xOK 0
      [s.fuses.variant.part * 2 ^ 16 + 0x21, s.hifState c.src, s.nPorts + s.nIslands * 2 ^ 8 + s.nCxl * 2 ^ 16,
        s.fuses.serial % 2 ^ 32, s.fuses.serial / 2 ^ 32 % 2 ^ 32, 1])) ∧
    (Safety.Executes s 0x51 c → Safety.Next .roleReport s (fun t => Safety.AnswersOnly s t c xOK 0
      [s.pairOn.toNat + s.pair.roleLevel.toNat * 2 + s.roleState.toNat * 4 + s.aliveOk.toNat * 8,
        min s.pair.written 0xFFFFFFFF, min s.pair.takeovers 0xFFFFFFFF])) ∧
    (Safety.Executes s 0xC0 c → bitsOf (c.word 1) 3 0 ≤ 3 → Safety.Next .measure s (fun t => Safety.AnswersOnly s t c xOK 0
      (s.measure (bitsOf (c.word 1) 3 0) (bitsOf (c.word 1) 15 8)))) ∧
    (Safety.Executes s 0xC0 c → 3 < bitsOf (c.word 1) 3 0 → Safety.Next .measure s (fun t =>
      Safety.AnswersOnly s t c xBADARG 7 []))

/-- PERSTn, the PCIe link, configuration space and the BARs. PERSTn ends every function's state and takes the link down;
its release lets a running device answer; the link comes up no earlier than 3 ms after the release of the resets,
with its generation and width, and not while PERSTn or a reset holds it; link loss raises HIF_LINK_DOWN, and an
uncorrectable error is logged for its function and raises HIF_PCIE_ERR; a configuration write sets VF Enable with
NumVFs held to 15, ending what a VF that vanishes holds, or MSI-X Enable, a mask, the power state, the payload and
request sizes, the AER status, a base address or an MSI-X entry of an existing function; unmasking a vector sends
the message that its pending bit holds while MSI-X Enable is 1; a read returns the identity of R295, a dword of BAR2
or one of BAR4 (log 74 for what the model takes from PCIe). (R295, R297, R299, R300, R301, R304, R317, R366, R433) -/
def Obligations.HostLinkEvents : Prop :=
  (∀ s : State, Safety.Next .perstnAssert s (fun t =>
      t.host.perst = true ∧ t.host.answering = false ∧ t.host.linkUp = false ∧ t.host.vfEnable = false ∧
      t.host.numVfs = 0 ∧ t.host.pcie.aer = [] ∧ t.wide = ⟨none, []⟩ ∧ t.tabs = s.tabs ∧ t.lt = s.lt)) ∧
    (∀ s : State, Safety.Next .perstnRelease s (fun t =>
      t = { s with host := { s.host with perst := false, answering := decide (s.phase = .running) } })) ∧
    (∀ s : State, s.host.linkUp = true → Safety.Next .pcieLinkDown s (fun t =>
      t.host.linkUp = false ∧ t.host.pcie.gen = 0 ∧ t.host.pcie.width = 0 ∧ Safety.Caused t 73 ∧ t.tabs = s.tabs ∧ t.op = s.op)) ∧
    (∀ (s : State) (g w : Nat), s.host.perst = false → s.phase ≠ .held → Safety.Next (.pcieLinkUp g w) s (fun t =>
      t.host = { s.host with linkUp := true, pcie := { s.host.pcie with gen := g, width := w } } ∧
      t.lt = max s.lt (s.board.released + 3 * ltMs) ∧ t.regs = s.regs ∧ t.tabs = s.tabs)) ∧
    (∀ (s : State) (g w : Nat), s.host.perst = true ∨ s.phase = .held → Safety.Next (.pcieLinkUp g w) s (fun t => t = s)) ∧
    (∀ (s : State) (bit fn : Nat), s.hostUp = true → Safety.Next (.pcieUncorrectableError bit fn) s (fun t =>
      Safety.Caused t 72 ∧ (fn, bit % 32) ∈ t.host.pcie.aer ∧ t.tabs = s.tabs ∧ t.op = s.op)) ∧
    (∀ (s : State) (en : Bool) (n : Nat), s.hostUp = true → Safety.Next (.pcieConfigurationWrite (.sriov en n)) s (fun t =>
      t.host.vfEnable = en ∧ t.host.numVfs = min n 15 ∧ t.tabs = s.tabs ∧ t.lt = s.lt ∧ t.op = s.op ∧
      ∀ v, 0 < v → s.fnExists v = true → t.fnExists v = false →
        SMap.look t.host.waiting v = none ∧ t.host.msixEnable.contains v = false)) ∧
    (∀ (s : State) (w : CfgWrite), s.hostUp = true → (∀ en n, w ≠ .sriov en n) → Safety.Next (.pcieConfigurationWrite w) s (fun t =>
      t = { s with host := t.host } ∧
      match w with
      | .sriov _ _ => True
      | .msixEnable fn en => s.fnExists fn = true →
          t.host.msixEnable.contains fn = en ∧ t.host.unmasked = s.host.unmasked ∧ t.host.d3 = s.host.d3
      | .msixMask fn v => s.fnExists fn = true → t.host.unmasked.contains (fn, v) = false ∧ t.host.sent = s.host.sent
      | .power fn d => s.fnExists fn = true → t.host.d3.contains fn = decide (d = 3)
      | .deviceControl fn p r => s.fnExists fn = true → t.sizesOf fn = (p, r)
      | .aerStatus fn c => s.fnExists fn = true →
          ∀ b, t.host.pcie.aer.contains (fn, b) = (s.host.pcie.aer.contains (fn, b) && !c.testBit b)
      | .bar vf n a => barSize vf n ≠ 0 →
          SMap.val t.host.pcie.bars (barKey vf n) 0 = a / barSize vf n * barSize vf n
      | .msixEntry fn v a d => s.fnExists fn = true → v < vecCount fn →
          SMap.val t.host.pcie.msix (vecKey fn v) (0, 0) = (a, d))) ∧
    (∀ (s : State) (fn v : Nat), s.hostUp = true → s.fnExists fn = true → v < vecCount fn →
      Safety.Next (.msixVectorUnmask fn v) s (fun t =>
        t.host.unmasked.contains (fn, v) = true ∧ t = { s with host := t.host } ∧
        (s.host.pendingVec.contains (fn, v) = true → s.host.msixEnable.contains fn = true →
          (fn, v) ∈ t.host.sent ∧ t.host.pendingVec.contains (fn, v) = false))) ∧
    (∀ (s : State) (fn a : Nat) (x : CfgItem), s.hostUp = true → s.fnExists fn = true →
      Safety.Next (.rcRead fn a (.config x)) s (fun t => t = { s with host := { s.host with readData := s.cfgItem fn x } })) ∧
    (∀ (s : State) (fn : Nat), s.cfgItem fn .vendorId = 0x1E5D ∧ s.cfgItem fn .subsystemVendorId = 0x1E5D ∧
      s.cfgItem fn .subsystemId = s.cfgItem fn .deviceId ∧ s.cfgItem 0 .deviceId = s.fuses.variant.part ∧
      (0 < fn → s.cfgItem fn .deviceId = s.fuses.variant.part + 1) ∧ s.cfgItem fn .revisionId = 0x21 ∧
      s.cfgItem fn .classCode = 0x0B4000 ∧ s.cfgItem 0 .totalVfs = 15 ∧ s.cfgItem 0 .firstVfOffset = 1 ∧ s.cfgItem 0 .vfStride = 1 ∧
      s.cfgItem fn .tags = 768) ∧
    (∀ (s : State) (a : Nat), s.hostUp = true → Safety.Next (.rcRead 0 a .bar2) s (fun t =>
      t.host.readData = s.hostTableRead a ∧ t.tabs = s.tabs ∧ t.regs = s.regs)) ∧
    (∀ (s : State) (fn a : Nat), s.hostUp = true → s.fnExists fn = true → Safety.Next (.rcRead fn a .bar4) s (fun t =>
      t = { s with host := { s.host with readData := s.bar4Read fn a } }))

/-- The assignment of DMA channels and function-level resets. A write of HIF_VF_DMA takes its range for a VF, and is
refused whole where R302 refuses it; an FLR of a VF drops its waiting command, makes its mailbox read idle and turns
its vectors off; an FLR of the PF ends every VF and abandons the wide-read window. (R302, R317, R343) -/
def Obligations.FunctionChannels : Prop :=
  (∀ (s : State) (v : Nat) (d : Word), Safety.Admits s 0 → 0 < v → v ≤ 15 →
      (s.vfDmaBad v (bitsOf d.toNat 5 0) (bitsOf d.toNat 11 8) = false → Safety.Next (.hifVfDmaWrite v d) s (fun t =>
        t.fld F.HIF_VF_DMA.BASE 0 v = bitsOf d.toNat 5 0 ∧ t.fld F.HIF_VF_DMA.COUNT 0 v = bitsOf d.toNat 11 8 ∧
        Safety.RegsBut [F.HIF_VF_DMA.BASE.key 0 v, F.HIF_VF_DMA.COUNT.key 0 v] s t ∧ t = { s with regs := t.regs })) ∧
      (s.vfDmaBad v (bitsOf d.toNat 5 0) (bitsOf d.toNat 11 8) = true → Safety.Next (.hifVfDmaWrite v d) s (fun t =>
        t.fld F.HIF_VF_DMA.BASE 0 v = s.fld F.HIF_VF_DMA.BASE 0 v ∧
        t.fld F.HIF_VF_DMA.COUNT 0 v = s.fld F.HIF_VF_DMA.COUNT 0 v ∧
        t.fld F.REG_WI_COUNT.COUNT = min (s.fld F.REG_WI_COUNT.COUNT + 1) (2 ^ 32 - 1)))) ∧
    (∀ (s : State) (fn : Nat), s.hostUp = true → s.fnExists fn = true → 0 < fn → Safety.Next (.flr fn) s (fun t =>
      SMap.look t.host.waiting fn = none ∧ t.host.msixEnable.contains fn = false ∧
      t.fld F.HIF_MB_STATUS.BUSY fn = 0 ∧ t.fld F.HIF_MB_STATUS.DONE fn = 0 ∧ t.host.vfEnable = s.host.vfEnable ∧
      t.wide = s.wide ∧ t.tabs = s.tabs)) ∧
    (∀ s : State, s.hostUp = true → Safety.Next (.flr 0) s (fun t =>
      t.host.vfEnable = false ∧ t.host.numVfs = 0 ∧ t.host.msixEnable.contains 0 = false ∧ t.wide = ⟨none, []⟩ ∧
      t.tabs = s.tabs))

/-- Cause bits are cleared after a read, and the first-fault record rearms. A read of an FLT_CAUSE register returns its
dword and marks each bit that it returns as 1 as seen; a write of 1 clears a bit that has been seen since it was set
and leaves one that has not, and a bit whose event falls in the write's own cycle stays set; FIRST_REARM empties the
first-fault record; the end of a holdoff sends vector 1 once more where a cause was set during it. (R368, R371,
R372) -/
def Obligations.CauseBits : Prop :=
  (∀ (s : State) (i : Nat), s.hostUp = true → i < 3 → Safety.Next (.fltCauseRead i) s (fun t =>
      t.host.readData = s.fld F.FLT_CAUSE 0 i ∧
      (∀ b, b < 32 → s.fbit F.FLT_CAUSE b 0 i = true → t.flt.seen.contains (32 * i + b) = true) ∧
      t = { s with flt := { s.flt with seen := t.flt.seen }, host := { s.host with readData := t.host.readData } })) ∧
    (∀ (s : State) (i : Nat) (d : Word), Safety.Admits s 2 → i < 3 →
      (∀ b, b < 32 → SMap.val s.flt.last (32 * i + b) 0 ≠ s.lt / ctlCycle + 1) → Safety.Next (.faultCauseClear i d) s (fun t =>
      (∀ b, b < 32 → t.fbit F.FLT_CAUSE b 0 i =
        (s.fbit F.FLT_CAUSE b 0 i && !(d.toNat.testBit b && s.flt.seen.contains (32 * i + b)))) ∧
      Safety.RegsBut [F.FLT_CAUSE.key 0 i] s t ∧ t.flt.history = s.flt.history ∧ t.tabs = s.tabs ∧ t.host = s.host)) ∧
    (∀ (s : State) (i b : Nat) (d : Word), Safety.Admits s 2 → i < 3 → b < 32 → s.fbit F.FLT_CAUSE b 0 i = true →
      SMap.val s.flt.last (32 * i + b) 0 = s.lt / ctlCycle + 1 → Safety.Next (.faultCauseClear i d) s (fun t =>
        t.fbit F.FLT_CAUSE b 0 i = true)) ∧
    (∀ s : State, Safety.Admits s 2 → Safety.Next .firstRearm s (fun t =>
      t = { s with flt := { s.flt with first := none } })) ∧
    (∀ (s : State) (e : Nat), s.flt.holdEnd = some e → s.host.msixEnable.contains 0 = true →
      s.host.unmasked.contains (0, 1) = true → Safety.Next .irqHoldoffEnd s (fun t =>
        t.host.sent = s.host.sent ++ (if s.flt.during then [(0, 1)] else []) ∧ t.lt = max s.lt e ∧
        t.flt.during = false ∧ (s.flt.during = false → t.flt.holdEnd = none) ∧ t.regs = s.regs))

/-- FLT_FORCE. A write of 0x0000_5333 to FLT_FORCE raises FLT_FORCED, source 0 of severity S3: its cause bit is set and,
with no reset in progress, the device enters SAFE; any other value is refused with cause VALUE. (R373) -/
def Obligations.ForcedFault : Prop :=
  severity 0 = 3 ∧
    (∀ s : State, Safety.sources s = true → Safety.Admits s 2 → Safety.Next (.fltForce 0x5333) s (fun t =>
      t = s.raise 0 0 ∧ Safety.Caused t 0 ∧ (s.s3MustWait = false → t.op = .safe))) ∧
    (∀ (s : State) (d : Word), Safety.Admits s 2 → d ≠ 0x5333 → Safety.Next (.fltForce d) s (fun t =>
      t = s.refuse (atBar0 0x20008) d.toNat cVALUE))

/-- What a refused write records. A refused write counts in REG_WI_COUNT; while no refusal is held it captures its
access path, function, cause, address and data and raises REG_WRITE_IGNORED; while one is held it sets MORE and
keeps the capture; it changes no table, clock or operating state. (R332, R344) -/
def Obligations.RefusalRecord : Prop :=
  ∀ (s : State) (o : Origin4) (d cause : Nat),
    (s.refuse o d cause).fld F.REG_WI_COUNT.COUNT = min (s.fld F.REG_WI_COUNT.COUNT + 1) (2 ^ 32 - 1) ∧
    (s.refuse o d cause).tabs = s.tabs ∧ (s.refuse o d cause).op = s.op ∧ (s.refuse o d cause).lt = s.lt ∧
    (s.refuse o d cause).time = s.time ∧ (s.refuse o d cause).pwr = s.pwr ∧
    (s.on F.REG_WI_STATUS.WRITE_IGNORED = false →
      (s.refuse o d cause).fld F.REG_WI_STATUS.WRITE_IGNORED = 1 ∧
      (s.refuse o d cause).fld F.REG_WI_STATUS.CAUSE = cause % 8 ∧
      (s.refuse o d cause).fld F.REG_WI_STATUS.SPACE = spaceCode o.space ∧
      (s.refuse o d cause).fld F.REG_WI_STATUS.FUNCTION = o.fn % 16 ∧
      (s.refuse o d cause).fld F.REG_WI_ADDR.ADDRESS = o.addr % 2 ^ 30 ∧
      (s.refuse o d cause).fld F.REG_WI_DATA.DATA = d % 2 ^ 32 ∧ Safety.Caused (s.refuse o d cause) 1) ∧
    (s.on F.REG_WI_STATUS.WRITE_IGNORED = true →
      (s.refuse o d cause).fld F.REG_WI_STATUS.MORE = 1 ∧
      Safety.RegsBut [F.REG_WI_COUNT.COUNT.key 0 0, F.REG_WI_STATUS.MORE.key 0 0] s (s.refuse o d cause) ∧
      (s.refuse o d cause).flt = s.flt)

/-- A dword write of a register. A dword write with byte enables that are not all set is counted in HIF_PARTIAL_WRITE
and changes neither a table nor the operating state; a write of FLT_IRQ_EN sets its dword; a write of PRT_MAXLEN of
a present port takes a value from 64 to 16000 while the port's ENABLE is 0, and keeps its value while ENABLE is 1 or
for a value outside that range. (R300, R329, R331, R334) -/
def Obligations.RegisterWrites : Prop :=
  (∀ (s : State) (sp : Space) (a be : Nat) (d : Word), sp = .bar0 ∨ sp = .bar2 → s.hostUp = true → be % 16 ≠ 15 →
      Safety.Next (.registerWrite sp 0 a d be) s (fun t =>
        t.fld F.HIF_PARTIAL_WRITE = min (s.fld F.HIF_PARTIAL_WRITE + 1) (2 ^ 32 - 1) ∧ t.tabs = s.tabs ∧ t.op = s.op)) ∧
    (∀ (s : State) (i : Nat) (d : Word), Safety.Admits s 2 → i < 8 →
      Safety.Next (.registerWrite .bar0 0 (0x20300 + 4 * i) d 15) s (fun t =>
        t.fld F.FLT_IRQ_EN 0 i = d.toNat ∧ Safety.RegsBut [F.FLT_IRQ_EN.key 0 i] s t ∧
        t = { s with regs := t.regs, copies := t.copies })) ∧
    (∀ (s : State) (p : Nat) (d : Word), Safety.Admits s (0x10 + p) → p < s.nPorts →
      (s.on F.PRT_CTL.ENABLE p = false → 64 ≤ bitsOf d.toNat 13 0 → bitsOf d.toNat 13 0 ≤ 16000 →
        Safety.Next (.registerWrite .bar0 0 (0x100008 + 0x10000 * p) d 15) s (fun t =>
          t.fld F.PRT_MAXLEN.MAXLEN p = bitsOf d.toNat 13 0 ∧ Safety.RegsBut [F.PRT_MAXLEN.MAXLEN.key p 0] s t ∧
          t = { s with regs := t.regs, copies := t.copies })) ∧
      (s.on F.PRT_CTL.ENABLE p = true → bitsOf d.toNat 13 0 ≠ s.fld F.PRT_MAXLEN.MAXLEN p →
        Safety.Next (.registerWrite .bar0 0 (0x100008 + 0x10000 * p) d 15) s (fun t =>
          t = s.refuse (atBar0 (0x100008 + 0x10000 * p)) d.toNat cENABLED)) ∧
      (s.on F.PRT_CTL.ENABLE p = false → (bitsOf d.toNat 13 0 < 64 ∨ 16000 < bitsOf d.toNat 13 0) →
        Safety.Next (.registerWrite .bar0 0 (0x100008 + 0x10000 * p) d 15) s (fun t =>
          t = s.refuse (atBar0 (0x100008 + 0x10000 * p)) d.toNat cVALUE)))

/-- Locks, the clear on read, the wide-read window and the scrubber. A write of 1 sets a lock of a present unit in
REG_LOCK_SYS, REG_LOCK_ENG and REG_LOCK_PORT, and no other lock of the register; a read of SID_NOMATCH_DROP returns
the count and clears it; a write of WRW_ADDR to an idle window starts a capture, and one to a busy or valid window
is refused; the capture of a port's counter takes and clears it and sets VALID, the read of the last word and
RELEASE end it; a scrub pass counts and runs the clock on by at most 10 us; of PRT_CTL.MODE, which is triplicated,
one copy that differs is rewritten from the other two, counted and captured by a pass and by a read alike, and three
copies that all differ leave copy 0, are captured as fatal and take the device to SAFE (log 44 for the rows that
carry upsets). (R331, R335, R337, R338, R339, R340, R341, R342) -/
def Obligations.RegisterBlockCommands : Prop :=
  (∀ (s : State) (b : Nat), Safety.Admits s 1 → b ≤ 9 → Safety.Next (.lockSet 0 (b + 2)) s (fun t =>
      t.fbit F.REG_LOCK_SYS.LOCK_SYS b = true ∧
      (∀ b', b' ≤ 9 → s.fbit F.REG_LOCK_SYS.LOCK_SYS b' = true → t.fbit F.REG_LOCK_SYS.LOCK_SYS b' = true) ∧ t.tabs = s.tabs)) ∧
    (∀ (s : State) (m : Nat), Safety.Admits s 1 → m < s.nIslands → Safety.Next (.lockSet 1 m) s (fun t =>
      ∀ b, b < 16 → t.fbit F.REG_LOCK_ENG.LOCK_ENG b = (s.fbit F.REG_LOCK_ENG.LOCK_ENG b || decide (b = m)))) ∧
    (∀ (s : State) (p : Nat), Safety.Admits s 1 → p < 32 → p < s.nPorts → Safety.Next (.lockSet 2 p) s (fun t =>
      ∀ b, b < 32 → t.fbit F.REG_LOCK_PORT_L.LOCK_PORT b = (s.fbit F.REG_LOCK_PORT_L.LOCK_PORT b || decide (b = p)))) ∧
    (∀ (s : State) (p : Nat), Safety.Admits s 1 → p < 32 → p + 32 < s.nPorts → Safety.Next (.lockSet 3 p) s (fun t =>
      ∀ b, b < 32 → t.fbit F.REG_LOCK_PORT_H.LOCK_PORT b = (s.fbit F.REG_LOCK_PORT_H.LOCK_PORT b || decide (b = p)))) ∧
    (∀ s : State, s.hostUp = true → s.pwr.state ≠ .standby → Safety.Next (.rcRead 0 0xA0300) s (fun t =>
      t.host.readData = s.fld F.SID_NOMATCH_DROP ∧ t.fld F.SID_NOMATCH_DROP = 0 ∧
      Safety.RegsBut [F.SID_NOMATCH_DROP.key 0 0] s t)) ∧
    (∀ (s : State) (a : Nat), s.hostUp = true → s.on F.WRW_CTL.BUSY = false →
      s.on F.WRW_CTL.VALID = false → Safety.Next (.wideReadStart a) s (fun t =>
        t.fld F.WRW_CTL.BUSY = 1 ∧ t.wide = ⟨some (a % 2 ^ 23), []⟩ ∧ t.tabs = s.tabs)) ∧
    (∀ (s : State) (a : Nat), s.hostUp = true → (s.on F.WRW_CTL.BUSY = true ∨ s.on F.WRW_CTL.VALID = true) →
      Safety.Next (.wideReadStart a) s (fun t => t = s.refuse (atBar0 0x10300) (a % 2 ^ 32) cRULE)) ∧
    (∀ (s : State) (p : Nat), p < s.nPorts → s.pwr.state ≠ .standby → s.wide.busy = some (0x100400 + 0x10000 * p) →
      Safety.Next .wideCaptureDone s (fun t =>
        t.wide = ⟨none, words64 (s.fld F.RX_FRAMES_OK p)⟩ ∧ t.fld F.WRW_CTL.VALID = 1 ∧ t.fld F.WRW_CTL.BUSY = 0 ∧
        t.fld F.WRW_CTL.WORDS = 2 ∧ t.fld F.RX_FRAMES_OK p = 0)) ∧
    (∀ s : State, s.hostUp = true → s.on F.WRW_CTL.VALID = true → s.wide.words ≠ [] → s.wide.words.length ≤ 8 →
      Safety.Next .wideReadLastWord s (fun t =>
        t.host.readData = s.wide.words.getD (s.wide.words.length - 1) 0 ∧ t.fld F.WRW_CTL.VALID = 0 ∧ t.wide.words = [])) ∧
    (∀ s : State, s.hostUp = true → s.on F.WRW_CTL.BUSY = false → Safety.Next .wideReadRelease s (fun t =>
      t.fld F.WRW_CTL.VALID = 0 ∧ t.wide.words = [] ∧ t.tabs = s.tabs)) ∧
    (∀ s : State, s.phase = .running → s.copies = [] → Safety.Next (.triplicateScrub []) s (fun t =>
      t.fld F.REG_TRIP_PASSES.PASSES = min (s.fld F.REG_TRIP_PASSES.PASSES + 1) (2 ^ 32 - 1) ∧
      t.lt = (s.lt / (10 * ltUs) + 1) * (10 * ltUs) ∧ Safety.RegsBut [F.REG_TRIP_PASSES.PASSES.key 0 0] s t)) ∧
    (∀ (s : State) (a b : Nat), s.phase = .running → s.copies = [] → a < 4 → b < 4 → a ≠ b →
      s.on F.REG_TRIP_STATUS.VALID = false → Safety.Next (.triplicateScrub [⟨0x100000, 3, 2, a, a, b⟩]) s (fun t =>
        t.fld F.PRT_CTL.MODE = a ∧ Safety.Caused t 2 ∧ t.fld F.REG_TRIP_STATUS.VALID = 1 ∧
        t.fld F.REG_TRIP_STATUS.COPY = 2 ∧ t.fld F.REG_TRIP_STATUS.ADDRESS = 0x100000 ∧
        t.fld F.REG_TRIP_CORRECTED.CORRECTED = min (s.fld F.REG_TRIP_CORRECTED.CORRECTED + 1) (2 ^ 32 - 1))) ∧
    (∀ (s : State) (a b : Nat), s.phase = .running → s.copies = [] → a < 4 → b < 4 → a ≠ b →
      Safety.Next (.triplicateScrub [⟨0x100000, 3, 2, b, a, a⟩]) s (fun t => t.fld F.PRT_CTL.MODE = a ∧ Safety.Caused t 2 ∧
        (s.on F.REG_TRIP_STATUS.VALID = false → t.fld F.REG_TRIP_STATUS.COPY = 0))) ∧
    (∀ (s : State) (a b c : Nat), s.phase = .running → s.copies = [] → a < 4 → b < 4 → c < 4 → a ≠ b → a ≠ c → b ≠ c →
      Safety.sources s = true → Safety.Next (.triplicateScrub [⟨0x100000, 3, 2, a, b, c⟩]) s (fun t =>
        t.fld F.PRT_CTL.MODE = a ∧ Safety.Caused t 3 ∧ t.fld F.REG_TRIP_FATAL.VALID = 1 ∧ t.fld F.REG_TRIP_FATAL.ADDRESS = 0x100000 ∧
        (s.s3MustWait = false → t.op = .safe))) ∧
    (∀ (s : State) (a b : Nat), s.hostUp = true → a < 4 → b < 4 → a ≠ b → s.copies = [⟨0x100000, 3, 2, a, b, a⟩] →
      s.pwr.state ≠ .standby → s.fld F.PRT_CTL.MODE = a → Safety.Next (.rcRead 0 0x100000) s (fun t =>
        t.fld F.PRT_CTL.MODE = a ∧ t.copies = [] ∧ Safety.Caused t 2 ∧
        t.fld F.REG_TRIP_CORRECTED.CORRECTED = min (s.fld F.REG_TRIP_CORRECTED.CORRECTED + 1) (2 ^ 32 - 1)))

/-- Link up, link loss, retraining and the verification of pre-emption. A link that trains comes up at the width of its
mode, with pre-emption off, active or first verified as PRT_MM_CTL says; a link loss clears LINK_UP, ACTIVE and the
partner, ends transmission, reassembly and a width change, and for an enabled port raises PORT_LINK_LOST, and so
does RETRAIN; a verify mPacket is answered, a respond mPacket makes pre-emption active, and the third unanswered
attempt fails. (R36, R41, R42, R45, R55, R69) -/
def Obligations.LinksComeAndGo : Prop :=
  (∀ (s : State) (p : Nat), p < s.nPorts → s.lanesOn p = true → s.on F.PRT_STATUS.LINK_UP p = false →
      Safety.Next (.linkUp p) s (fun t =>
        t.fld F.PRT_STATUS.LINK_UP p = 1 ∧ t.fld F.PRT_STATUS.WIDTH p = s.modeWidth p ∧
        t.fld F.PRT_SHED_STATUS.WIDTH p = s.modeWidth p ∧ t.lt = s.lt ∧ t.tabs = s.tabs ∧
        (s.on F.PRT_MM_CTL.PREEMPT_EN p = false → t.fld F.PRT_MM_STATUS.ACTIVE p = 0) ∧
        (s.on F.PRT_MM_CTL.PREEMPT_EN p = true → s.on F.PRT_MM_CTL.VERIFY_DIS p = true →
          t.fld F.PRT_MM_STATUS.ACTIVE p = 1) ∧
        (s.on F.PRT_MM_CTL.PREEMPT_EN p = true → s.on F.PRT_MM_CTL.VERIFY_DIS p = false →
          t.fld F.PRT_MM_STATUS.VERIFY_STATE p = 2 ∧ (t.port p).verifyTries = 1))) ∧
    (∀ (c : Instr) (s : State) (p : Nat), p < s.nPorts → s.on F.PRT_STATUS.LINK_UP p = true →
      (c = .linkDown p ∧ s.phase = .running) ∨ (c = .retrain p ∧ Safety.Admits s (0x10 + p)) → Safety.Next c s (fun t =>
        t.fld F.PRT_STATUS.LINK_UP p = 0 ∧ t.fld F.PRT_MM_STATUS.ACTIVE p = 0 ∧ t.fld F.PRT_PARTNER.VALID p = 0 ∧
        (t.port p).tx = none ∧ (t.port p).ellipsis = none ∧ (t.port p).rxPart = none ∧ (t.port p).shed = none ∧
        t.lt = s.lt ∧ (s.on F.PRT_CTL.ENABLE p = true → Safety.Caused t 16))) ∧
    (∀ (s : State) (p : Nat), p < s.nPorts → s.phase = .running → s.on F.PRT_MM_CTL.PREEMPT_EN p = true →
      s.controlMay = true → s.on F.PRT_STATUS.LINK_UP p = true → (s.island (p / 4)).ctrlUsed + 1 ≤ 512 →
      Safety.Next (.verifyMpacketRx p) s (fun t => t.regs = s.regs ∧ t.tabs = s.tabs ∧
        ∃ c : Copy, c.origin = .control kRESPOND ∧ (t.port p).due = (s.port p).due ++ [c])) ∧
    (∀ (s : State) (p : Nat), p < s.nPorts → s.phase = .running → s.fld F.PRT_MM_STATUS.VERIFY_STATE p = 2 →
      Safety.Next (.respondMpacketRx p) s (fun t =>
        t.fld F.PRT_MM_STATUS.VERIFY_STATE p = 3 ∧ t.fld F.PRT_MM_STATUS.ACTIVE p = 1 ∧ (t.port p).verifyDue = none ∧
        Safety.RegsBut [F.PRT_MM_STATUS.VERIFY_STATE.key p 0, F.PRT_MM_STATUS.ACTIVE.key p 0] s t ∧
        t = { s with regs := t.regs, ports := t.ports })) ∧
    (∀ (s : State) (p d : Nat), p < s.nPorts → (s.port p).verifyDue = some d → Safety.Next (.verifyTimeout p) s (fun t =>
      t.lt = max s.lt d ∧
      if (s.port p).verifyTries < 3 then
        t.fld F.PRT_MM_STATUS.VERIFY_STATE p = 2 ∧ (t.port p).verifyTries = (s.port p).verifyTries + 1
      else t.fld F.PRT_MM_STATUS.VERIFY_STATE p = 4 ∧ (t.port p).verifyDue = none ∧
        Safety.RegsBut [F.PRT_MM_STATUS.VERIFY_STATE.key p 0] s t))

/-- PAUSE, the end of a hold and the pause watchdog. A PAUSE frame that passes the checks counts and, in PAUSE mode,
holds every pre-emptable class that its watchdog has not released for its quanta of 512 bit times at the port's
rate, and quanta of zero release the class; a hold ends at its instant; a class held for WDG_TIME without a break is
released, ignores flow control and raises PORT_PAUSE_WDG. (R48, R49, R50, R366) -/
def Obligations.FlowControlHolds : Prop :=
  (∀ (s : State) (p : Nat) (l : List Byte), p < s.nPorts → isPause l = true → oct2 l 14 = 1 →
      (s.macRx p l true s.rxControl).1 = true → s.fld F.PRT_FC.FC_MODE p = 1 →
      Safety.Next (.pauseFrameRx p l) s (fun t =>
        t.fld F.RX_PAUSE p = min (s.fld F.RX_PAUSE p + 1) (2 ^ 32 - 1) ∧ t.lt = s.lt ∧
        ∀ c, c < 8 →
          (oct2 l 16 = 0 → SMap.look (t.port p).pauseEnd c = none) ∧
          (oct2 l 16 ≠ 0 → s.express p c = false → (s.port p).ignoreFc.contains c = false →
            SMap.look (t.port p).pauseEnd c = some (s.lt + oct2 l 16 * 64 * s.octetLt p)))) ∧
    (∀ (s : State) (p c d : Nat), p < s.nPorts → SMap.look (s.port p).pauseEnd c = some d →
      Safety.Next (.pauseQuantaExpiry p c) s (fun t =>
        SMap.look (t.port p).pauseEnd c = none ∧ t.lt = max s.lt d ∧ t.regs = s.regs ∧ t.tabs = s.tabs)) ∧
    (∀ (s : State) (p c a e : Nat), p < s.nPorts → SMap.look (s.port p).pauseFrom c = some a →
      SMap.look (s.port p).pauseEnd c = some e → a + s.fld F.PRT_FC.WDG_TIME p * 100 * ltUs ≤ e → s.express p c = false →
      Safety.Next (.pauseWatchdog p c) s (fun t =>
        SMap.look (t.port p).pauseEnd c = none ∧ (t.port p).ignoreFc.contains c = true ∧ Safety.Caused t 17 ∧
        t.lt = max s.lt (a + s.fld F.PRT_FC.WDG_TIME p * 100 * ltUs)))

/-- LLDPDUs and the partner record. LLDPDU_TX queues the port's LLDPDU as a control frame; a received LLDPDU that
carries a well-formed capability TLV, whatever other TLVs stand in it, makes the partner valid for its TTL as the
last of them says, and one with a TTL of zero drops it; each malformed one is counted in PARTNER_BAD_TLV and
otherwise ignored; the record ends when the TTL runs out. The model's readings in it: logs 18 and 20 (the LLDPDU
that is sent). (R54, R55, R130) -/
def Obligations.PartnerDiscovery : Prop :=
  (∀ (s : State) (p : Nat), p < s.nPorts → s.controlMay = true → s.on F.QSH_CTL.ENABLE p = true →
      s.on F.PRT_STATUS.LINK_UP p = true → s.overlong p (s.lldpdu p []) = false →
      (s.controlFrame p kLLDP (s.lldpdu p [])).isSome = true →
      Safety.Next (.lldpduTx p) s (fun t => t.regs = s.regs ∧ t.tabs = s.tabs ∧ t.lt = s.lt ∧
        ∃ c : Copy, c.origin = .control kLLDP ∧ (t.port p).ctrl = (s.port p).ctrl ++ [c] ∧
          t.octetsOf c = padded (s.lldpdu p []))) ∧
    (∀ (s : State) (p : Nat) (l : List Byte) (b : Nat × Nat × Nat) (us vs : List (Nat × Nat × Nat)), p < s.nPorts →
      oct2 l 12 = 0x88CC → (s.macRx p l true (s.rxLldp l)).1 = true → tlvs l 64 14 = us ++ b :: vs →
      isOrg l 0x9A3C51 1 b = true → capOk l b.1 b.2.2 = true →
      (∀ c ∈ vs, isOrg l 0x9A3C51 1 c = true → capOk l c.1 c.2.2 = false) → Safety.Next (.lldpduRx p l) s (fun t =>
        if ttlOf l = 0 then t.fld F.PRT_PARTNER.VALID p = 0 ∧ (t.port p).partnerTtl = none
        else t.fld F.PRT_PARTNER.VALID p = 1 ∧ t.fld F.PRT_PARTNER.PART_CODE p = oct2 l (b.1 + 7) ∧
          (t.port p).partnerTtl = some (s.lt + ttlOf l * 1000 * ltMs))) ∧
    (∀ (s : State) (p : Nat) (l : List Byte), p < s.nPorts → oct2 l 12 = 0x88CC →
      (s.macRx p l true (s.rxLldp l)).1 = true → Safety.Next (.lldpduRx p l) s (fun t =>
        let n := (tlvs l 64 14).countP (fun c => isOrg l 0x9A3C51 1 c && !capOk l c.1 c.2.2)
        t.fld F.PARTNER_BAD_TLV p =
          if n = 0 then s.fld F.PARTNER_BAD_TLV p else min (s.fld F.PARTNER_BAD_TLV p + n) (2 ^ 32 - 1))) ∧
    (∀ (s : State) (p d : Nat), p < s.nPorts → (s.port p).partnerTtl = some d →
      Safety.Next (.partnerTtlExpiry p) s (fun t =>
        t.fld F.PRT_PARTNER.VALID p = 0 ∧ (t.port p).partnerTtl = none ∧ t.lt = max s.lt d ∧ t.tabs = s.tabs))

/-- The exchange that agrees a change of width. The end of a utilisation window counts consecutive low windows and, with
a partner that does not shed, pins nothing and asks for nothing; a REQUEST of a partner that sheds is agreed when no
ground of R59 refuses it, leaves no change when one does, and is answered in the control queue either way; one that
names the instant and width of the port's own REQUEST agrees it, and one that differs from a higher source address
leaves the port's own standing; an ACCEPT in time agrees the change requested, a late one does not, and a REFUSE
abandons it (that it then counts no SHED_NOACK is the model's choice, log 73); without an ACCEPT the change is
abandoned and counted 5 us before the instant; a pending Sentence that reserves more than the width carries asks for
the forced widening, and a port narrow after STANDBY repeats its REQUEST of Reason 6. The model's readings in it:
logs 40 and 48 (the bounds of the loop, requests during a change). (R53, R56, R57, R59, R60, R62) -/
def Obligations.ShedExchange : Prop :=
  (∀ (s : State) (p tx rx : Nat) (ps : Bool), p < s.nPorts → s.phase = .running → s.on F.PRT_STATUS.LINK_UP p = true →
      s.fld F.PRT_CTL.MODE p < 2 → Safety.Next (.utilisationWindow p tx rx ps) s (fun t =>
        t.lt = (s.lt / ltMs + 1) * ltMs ∧
        (t.port p).lowRun = (if 1 < s.lanes p ∧ max tx rx * 100 < s.fld F.PRT_SHED_CTL.LOW_PCT p * s.rateOf p (s.lanes p / 2)
          then min 3 ((s.port p).lowRun + 1) else 0) ∧
        (s.partnerSheds p = false → t.fld F.PRT_SHED_STATUS.PINNED p = 0 ∧ (t.port p).shed = (s.port p).shed))) ∧
    (∀ (s : State) (p sa : Nat) (m : List Byte) (a : Nat × Nat × Nat) (us vs : List (Nat × Nat × Nat)), p < s.nPorts →
      let l := withSource sa m
      oct2 l 12 = 0x88CC → tlvs l 64 14 = us ++ a :: vs → isOrg l 0x9A3C51 2 a = true →
      (∀ c ∈ vs, isOrg l 0x9A3C51 2 c = false) → (s.macRx p l true (s.rxLldp l)).1 = true →
      let u := (s.macRx p l true (s.rxLldp l)).2.takeTlvs p l us
      let v := slice l a.1 (a.2.2 + 2)
      isShed v = true → shedMsg v = 1 → u.partnerSheds p = true →
      ((u.port p).shed = none → shedReason v ≠ 6 →
        u.controlMay = true → u.on F.QSH_CTL.ENABLE p = true → u.on F.PRT_STATUS.LINK_UP p = true →
        u.overlong p (u.lldpdu p (List.replicate 20 0)) = false →
        (u.controlFrame p kSHED (u.lldpdu p (List.replicate 20 0))).isSome = true →
        Safety.Next (.shedRequestRx p sa m) s (fun t => t.tabs = u.tabs ∧
          (∃ c : Copy, c.origin = .control kSHED ∧ (t.port p).ctrl = (u.port p).ctrl ++ [c]) ∧
          (t.port p).shed = if u.shedRefuses p (shedLanes v) (shedInstantOf v) = none
            then some ⟨shedSeqOf v, shedLanes v, shedInstantOf v, shedReason v, false, true, false⟩ else none)) ∧
      (∀ x : Shed, (u.port p).shed = some x → x.agreed = false →
        (x.instant = shedInstantOf v → x.width = shedLanes v → Safety.Next (.shedRequestRx p sa m) s (fun t =>
          (t.port p).shed = some { x with agreed := true } ∧ (t.port p).ctrl = (u.port p).ctrl)) ∧
        (x.instant ≠ shedInstantOf v → u.portSa p ≤ saOf l → Safety.Next (.shedRequestRx p sa m) s (fun t =>
          (t.port p).shed = some x ∧ (t.port p).ctrl = (u.port p).ctrl)))) ∧
    (∀ (s : State) (p : Nat) (l : List Byte) (a : Nat × Nat × Nat) (us vs : List (Nat × Nat × Nat)) (x : Shed), p < s.nPorts →
      oct2 l 12 = 0x88CC → tlvs l 64 14 = us ++ a :: vs → isOrg l 0x9A3C51 2 a = true →
      (∀ c ∈ vs, isOrg l 0x9A3C51 2 c = false) → (s.macRx p l true (s.rxLldp l)).1 = true →
      let u := (s.macRx p l true (s.rxLldp l)).2.takeTlvs p l us
      let v := slice l a.1 (a.2.2 + 2)
      isShed v = true → (u.port p).shed = some x → x.requester = true → x.agreed = false → x.seq = shedSeqOf v →
      (shedMsg v = 2 → Safety.Next (.shedAcceptRx p l) s (fun t => t.tabs = u.tabs ∧
        (t.port p).ctrl = (u.port p).ctrl ∧
        if u.portNs p + 5000 ≤ x.instant then
          (t.port p).shed = some { x with agreed := true } ∧
          (t.port p).standbyWidth = if x.reason = 6 && u.lanes p < x.width then 0 else (u.port p).standbyWidth
        else (t.port p).shed = some x ∧ (t.port p).standbyWidth = (u.port p).standbyWidth)) ∧
      (shedMsg v = 3 → Safety.Next (.shedRefuseRx p l) s (fun t =>
        (t.port p).shed = none ∧ (t.port p).ctrl = (u.port p).ctrl ∧ t.tabs = u.tabs))) ∧
    (∀ (s : State) (p : Nat) (x : Shed), p < s.nPorts → (s.port p).shed = some x → x.requester = true → x.agreed = false →
      Safety.Next (.shedNoack p) s (fun t =>
        (s.time.nt ≤ (x.instant - 5000) * 2 ^ 32 → (x.instant - 5000) * 2 ^ 32 < ntMod →
          t.time.nt = (x.instant - 5000) * 2 ^ 32) ∧
        (t.port p).shed = none ∧ t.fld F.SHED_NOACK p = min (s.fld F.SHED_NOACK p + 1) (2 ^ 32 - 1) ∧
        Safety.RegsBut [F.SHED_NOACK.key p 0] s t)) ∧
    (∀ (s : State) (p : Nat), p < s.nPorts → s.phase = .running → s.swapPending p = true → s.partnerSheds p = true →
      s.shedAgreed p = false → s.rateOf p (s.lanes p) < s.fld F.SEN_ADMIN_RESV p →
      s.lanes p < lanesOf (s.modeWidth p) →
      s.shedWindowIn p (s.portNs p) ((s.port p).sen.change - 1) = none →
      Safety.Next (.shedForcedWiden p) s (fun t =>
        t.fld F.SHED_FORCED_WIDEN p = min (s.fld F.SHED_FORCED_WIDEN p + 1) (2 ^ 32 - 1) ∧
        ∃ x : Shed, (t.port p).shed = some x ∧ x.forced = true ∧ x.requester = true ∧ x.agreed = false ∧
          x.instant = s.portNs p + 20000)) ∧
    (∀ (s : State) (p : Nat), p < s.nPorts → (s.port p).standbyWidth ≠ 0 → s.shedBusy p = false → s.pwr.state ≠ .standby →
      s.pwr.entry = none → s.on F.PRT_STATUS.LINK_UP p = true → s.phase = .running → Safety.Next (.standbyWidenRetry p) s (fun t =>
        t.lt = (s.lt / (100 * ltUs) + 1) * (100 * ltUs) ∧
        ∃ x : Shed, (t.port p).shed = some x ∧ x.width = (s.port p).standbyWidth ∧ x.reason = 6 ∧ x.requester = true))

/-- The change of width itself. At the agreed instant of network time the port stops and the check falls due 2 us later,
unless its Sentences by then reserve more than the new width carries; lanes that lock complete the change with the
new width, and lanes that do not keep the old one, count the failure and set BLOCKED at the third in a row; a link
that is then up resumes and one that is down retrains with PORT_LINK_LOST; BLOCK_CLR clears BLOCKED and FAIL_RUN.
The model's readings in it: logs 19 and 40 (the instant as a close, the width that fails). (R61, R62, R69) -/
def Obligations.ShedChange : Prop :=
  (∀ (s : State) (p : Nat) (x : Shed), p < s.nPorts → (s.port p).shedFirst = some x → (s.port p).doneAt = none →
      Safety.Next (.shedInstant p) s (fun t => t.tabs = s.tabs ∧
        (s.time.nt ≤ x.instant * 2 ^ 32 → x.instant * 2 ^ 32 < ntMod → t.time.nt = x.instant * 2 ^ 32) ∧
        if s.overReserved p x then (t.port p).doneAt = none ∧ t.regs = s.regs
        else t.fld F.PRT_SHED_STATUS.IN_TRANSITION p = 1 ∧ (t.port p).doneAt = some (t.lt + 2 * ltUs) ∧
          (t.port p).shedNow = some x.width ∧ Safety.RegsBut [F.PRT_SHED_STATUS.IN_TRANSITION.key p 0] s t)) ∧
    (∀ (s : State) (p d w : Nat), p < s.nPorts → (s.port p).shedNow = some w → (s.port p).doneAt = some d →
      Safety.Next (.shedLockCheck p true) s (fun t =>
        t.fld F.PRT_STATUS.WIDTH p = widthCode w ∧ t.fld F.PRT_SHED_STATUS.WIDTH p = widthCode w ∧
        t.fld F.PRT_SHED_STATUS.IN_TRANSITION p = 0 ∧ t.fld F.PRT_SHED_STATUS.FAIL_RUN p = 0 ∧
        t.fld F.SHED_DONE p = min (s.fld F.SHED_DONE p + 1) (2 ^ 32 - 1) ∧
        (t.port p).shedNow = none ∧ (t.port p).doneAt = none ∧ t.lt = max s.lt d) ∧
      Safety.Next (.shedLockCheck p false) s (fun t =>
        t.fld F.SHED_FAIL p = min (s.fld F.SHED_FAIL p + 1) (2 ^ 32 - 1) ∧
        t.fld F.PRT_SHED_STATUS.FAIL_RUN p = min 3 (s.fld F.PRT_SHED_STATUS.FAIL_RUN p + 1) ∧
        (2 ≤ s.fld F.PRT_SHED_STATUS.FAIL_RUN p → t.fld F.PRT_SHED_STATUS.BLOCKED p = 1) ∧
        t.fld F.PRT_SHED_STATUS.WIDTH p = s.fld F.PRT_SHED_STATUS.WIDTH p ∧
        (t.port p).shedNow = none ∧ (t.port p).doneAt = some (t.lt + 2 * ltUs) ∧ t.lt = max s.lt d)) ∧
    (∀ (s : State) (p d : Nat), p < s.nPorts → (s.port p).shedNow = none → (s.port p).doneAt = some d →
      Safety.Next (.shedFailRetrain p true) s (fun t =>
        t.fld F.PRT_SHED_STATUS.IN_TRANSITION p = 0 ∧ (t.port p).doneAt = none ∧ t.lt = max s.lt d ∧
        Safety.RegsBut [F.PRT_SHED_STATUS.IN_TRANSITION.key p 0] s t) ∧
      Safety.Next (.shedFailRetrain p false) s (fun t =>
        t.fld F.PRT_STATUS.LINK_UP p = 0 ∧ (t.port p).doneAt = none ∧ Safety.Caused t 16)) ∧
    (∀ (s : State) (p : Nat), p < s.nPorts → Safety.Admits s (0x10 + p) → Safety.Next (.blockClr p) s (fun t =>
      t.fld F.PRT_SHED_STATUS.BLOCKED p = 0 ∧ t.fld F.PRT_SHED_STATUS.FAIL_RUN p = 0 ∧
      Safety.RegsBut [F.PRT_SHED_STATUS.BLOCKED.key p 0, F.PRT_SHED_STATUS.FAIL_RUN.key p 0] s t ∧
      t = { s with regs := t.regs }))

/-- Frames from the wire to the classifier. A frame with a bad FCS at a network port counts and leaves no frame; a data
frame that passes the checks counts, takes its cells and presents its descriptor to the classifier, six core cycles
away, with the gates that each port applies at its last byte; fragments of a pre-empted frame are joined in order,
and one out of order discards the partial frame; a crossing delivers its oldest transfer; a classifier that is
disabled, or that finds no handle, counts the frame and discards it, and one that finds a valid handle without
filter, recovery or generation presents a copy for each valid egress handle of its fan-out. The model's readings in
it: log 45 (a frame is judged at its last octet). (R14, R23, R44, R73, R78, R81, R97, R140, R443) -/
def Obligations.FramesComeIn : Prop :=
  (∀ (s : State) (p : Nat) (l : List Byte), p < s.nPorts → s.phase = .running → s.kindAt p l ≠ .concord →
      Safety.Next (.frameReceived p l false) s (fun t =>
        t.fld F.RX_FCS_ERR p = min (s.fld F.RX_FCS_ERR p + 1) (2 ^ 32 - 1) ∧ t.frames = s.frames ∧ t.xing = s.xing ∧
        t.tabs = s.tabs)) ∧
    (∀ (s : State) (p : Nat) (l : List Byte), p < s.nPorts → s.phase = .running → s.kindAt p l = .data →
      (s.macRx p l true (s.rxData p)).1 = true → s.pwr.blockRun = none → Safety.Next (.frameReceived p l true) s (fun t =>
        t.fld F.RX_FRAMES_OK p = (s.fld F.RX_FRAMES_OK p + 1) % 2 ^ 64 ∧ t.nextId = s.nextId + 1 ∧
        (∃ f : Frame, SMap.look t.frames s.nextId = some f ∧ f.octets = l ∧ f.port = p ∧ f.cells = cellsOf (frameLen l) ∧
          f.uses = 1 ∧ f.gates = (List.range s.nPorts).map (fun q => (s.senPos q (s.portNs p)).gates)) ∧
        t.xing = s.xing ++ [⟨p / 4, islClassifier, s.lt + 6 * coreCycle, .descriptor s.nextId⟩])) ∧
    (∀ (s : State) (p n c : Nat) (l : List Byte), p < s.nPorts → s.phase = .running → s.on F.PRT_MM_CTL.PREEMPT_EN p = true →
      Safety.Next (.continuationFragmentRx p true n c l false true) s (fun t =>
        (t.port p).rxPart = some ⟨n, 0, l, s.rxPoint p l⟩ ∧ t.frames = s.frames) ∧
      (∀ x : Partial, (s.port p).rxPart = some x → x.frameNo = n → x.count = c →
        Safety.Next (.continuationFragmentRx p false n c l false true) s (fun t =>
          (t.port p).rxPart = some ⟨n, (c + 1) % 4, x.octets ++ l, x.point⟩ ∧ t.regs = s.regs ∧ t.frames = s.frames)) ∧
      (∀ x : Partial, (s.port p).rxPart = some x → (x.frameNo ≠ n ∨ x.count ≠ c) →
        Safety.Next (.continuationFragmentRx p false n c l false true) s (fun t =>
          (t.port p).rxPart = none ∧ t.fld F.RX_ASSEMBLY_ERR p = min (s.fld F.RX_ASSEMBLY_ERR p + 1) (2 ^ 32 - 1)))) ∧
    (∀ (s : State) (a b : Nat) (x : Transfer), s.xing.find? (fun y => y.src = a && y.dst = b) = some x →
      Safety.Next (.crossingDelivery a b) s (fun t =>
        t.lt = max s.lt x.due ∧ t.xing = s.xing.erase x)) ∧
    (∀ (s : State) (a b fid : Nat) (x : Transfer), s.xing.find? (fun y => y.src = a && y.dst = b) = some x →
      x.cargo = .descriptor fid → Safety.Next (.crossingDelivery a b) s (fun t =>
        t.inbox = placeArrived s.inbox ⟨fid, ((s.frame fid).map (fun f => f.port)).getD 0, x.due / coreCycle⟩)) ∧
    (∀ (s : State) (a b : Nat) (x : Transfer) (c : Copy), s.xing.find? (fun y => y.src = a && y.dst = b) = some x →
      x.cargo = .copy c → c.port < 64 → Safety.Next (.crossingDelivery a b) s (fun t =>
        SMap.val t.arrived c.port [] = SMap.val s.arrived c.port [] ++ [c])) ∧
    (∀ (s : State) (x : Arrived) (r : List Arrived) (f : Frame), s.phase = .running → s.inbox = x :: r → s.bad = [] →
      s.unblocks = [] → s.frame x.fid = some f →
      (s.on F.SID_CTL.ENABLE = false → Safety.Next (.classify []) s (fun t =>
        t.inbox = r ∧ t.fld F.SID_DISABLED_DROP = min (s.fld F.SID_DISABLED_DROP + 1) (2 ^ 32 - 1) ∧ t.tabs = s.tabs)) ∧
      (s.on F.SID_CTL.ENABLE = true → s.matchIsh f = none → s.defaultIsh f.port = none →
        Safety.Next (.classify []) s (fun t =>
          t.inbox = r ∧ t.fld F.SID_NOMATCH_DROP = min (s.fld F.SID_NOMATCH_DROP + 1) (2 ^ 32 - 1) ∧ t.tabs = s.tabs)) ∧
      (∀ h : Nat, Safety.Meets s x r f h → Safety.Only s h [] → f.rtag.isSome = true → Safety.Next (.classify []) s (fun t =>
        t.inbox = r ∧ t.tabs = s.tabs ∧ t.lt = s.lt ∧ Safety.RegsBut [F.SID_FANOUT_DROP.key 0 0] s t ∧
        Safety.Presented s t f h f.rtag false)))

/-- The stream tables, bindings and latches, filters and meters. A write of a fan-out entry applies it at once, one of a
lower dword of an egress handle is collected and changes no table, and identification entries and histories take
none; STREAM_BIND writes the entry into the first free place of its bucket and answers its index, and STREAM_UNBIND
clears a valid entry; UNBLOCK_FILTER and CLEAR_MARK_RED clear their latches at once, or, while a frame of their core
cycle waits for the classifier, after it; a wake filter takes a dword while it is disabled. A frame at a valid
filter counts, and then in the counter of the first check that fails, which discards it, or as passed, and a frame
that is too long sets BLOCKED where BLOCK_OVERSIZE is 1. A frame at a valid meter takes the tokens of the first
bucket that carries it after the refill, counts under its colour, and goes on unless it is red, or yellow with
DROP_YELLOW; a red frame sets MARK_RED where MARK_RED_EN is 1, and a yellow one that passes sets DEI in its copies.
The model's readings in it: log 49 (collections, marks, BLOCKED, the view of tokens). (R52, R74, R79, R80, R83, R84,
R85, R86) -/
def Obligations.StreamTables : Prop :=
  (∀ (s : State) (off : Nat) (d : Word), Safety.AdmitsTab s → s.bst.tested = [] → s.sidCol = none →
      (0xC00000 ≤ off → off < 0xD00000 → Safety.Next (.sidEntryWrite off d) s (fun t =>
        t.tab (tSid + off / 4) = d.toNat ∧ Safety.TabsBut [tSid + off / 4] s t ∧ t.sidCol = none ∧ t.regs = s.regs)) ∧
      (0xA00000 ≤ off → off < 0xC00000 → off / 4 % 8 ≠ 7 → Safety.Next (.sidEntryWrite off d) s (fun t =>
        t = { s with sidCol := some ⟨eshTab ((off - 0xA00000) / 32), [(tSid + off / 4, d)]⟩ })) ∧
      ((off < 0x800000 ∨ (0x1480000 ≤ off ∧ off < 0x1880000)) → Safety.Next (.sidEntryWrite off d) s (fun t =>
        t = s.refuse (atBar2 (0x10000000 + off)) d.toNat cRULE))) ∧
    (∀ (s : State) (c : Cmd) (i : Nat), Safety.Executes s 0x30 c → c.src = 0 → s.bst.tested = [] →
      (let e := (List.range 13).map (fun w => c.word (w + 1))
       let b := bucketEntries (bucketOf (idType e) (idKey s.ipMask e))
       idReservedOk e = true ∧ idType e ≤ 3 ∧ (idPort e < s.nPorts ∨ (64 ≤ idPort e ∧ idPort e < 72) ∨ idPort e = 0x7F) ∧
         idValid e = true ∧ b.any (fun j => s.sameKey j e) = false ∧
         b.find? (fun j => ¬ idValid (s.identEntry j) ∧ ¬ s.isBad rIDENT j) = some i) →
      Safety.Next .streamBind s (fun t => Safety.Answers t c xOK 0 [i] ∧
        (∀ w, w < 13 → t.tab (identTab i + w) =
          (idStored s.ipMask ((List.range 13).map (fun w => c.word (w + 1)))).getD w 0 % 2 ^ 32) ∧
        Safety.TabsBut ((List.range 13).map (fun w => identTab i + w)) s t)) ∧
    (∀ (s : State) (c : Cmd), Safety.Executes s 0x31 c → c.src = 0 → s.bst.tested = [] →
      s.isBad rIDENT (bitsOf (c.word 1) 16 0) = false →
      (idValid (s.identEntry (bitsOf (c.word 1) 16 0)) = true → Safety.Next .streamUnbind s (fun t =>
        Safety.Answers t c xOK 0 [] ∧ (∀ w, w < 13 → t.tab (identTab (bitsOf (c.word 1) 16 0) + w) = 0) ∧
        Safety.TabsBut ((List.range 13).map (fun w => identTab (bitsOf (c.word 1) 16 0) + w)) s t)) ∧
      (idValid (s.identEntry (bitsOf (c.word 1) 16 0)) = false → Safety.Next .streamUnbind s (fun t =>
        Safety.AnswersOnly s t c xBADARG 7 []))) ∧
    (∀ (s : State) (i : Nat), Safety.Admits s 0x0A → s.bst.tested = [] → i < 65536 →
      (s.unblocks = [] → s.unfiltered (s.lt / coreCycle) = false →
        Safety.Next (.unblockFilter i) s (fun t => (t.tab (filterTab i)).testBit 29 = false ∧
          Safety.TabsBut [filterTab i] s t ∧ t = { s with tabs := t.tabs }) ∧
        (i ≤ 16383 → Safety.Next (.clearMarkRed i) s (fun t => (t.tab (meterTab i + 4)).testBit 5 = false ∧
          Safety.TabsBut [meterTab i + 4] s t ∧ t = { s with tabs := t.tabs }))) ∧
      (s.unblocks = [] → s.unfiltered (s.lt / coreCycle) = true →
        Safety.Next (.unblockFilter i) s (fun t => t = { s with unblocks := [⟨s.lt / coreCycle, false, i⟩] }) ∧
        Safety.Next (.clearMarkRed i) s (fun t => t = { s with unblocks := [⟨s.lt / coreCycle, true, i⟩] }))) ∧
    (∀ (s : State) (off : Nat) (d : Word), Safety.AdmitsTab s → s.bst.tested = [] → off / 256 < s.nPorts →
      (s.fbit F.PRT_WAKE_CTL.FILTER_EN (off / 32 % 8) (off / 256) = false →
        Safety.Next (.wakeFilterEntryWrite off d) s (fun t => t.tab (tWake + off / 4) = d.toNat ∧
          Safety.TabsBut [tWake + off / 4] s t ∧ t = { s with tabs := t.tabs })) ∧
      (s.fbit F.PRT_WAKE_CTL.FILTER_EN (off / 32 % 8) (off / 256) = true →
        Safety.Next (.wakeFilterEntryWrite off d) s (fun t =>
          t = s.refuse (atBar2 (0x13400000 + off)) d.toNat cENABLED))) ∧
    (∀ (s : State) (x : Arrived) (r : List Arrived) (f : Frame) (h : Nat), Safety.Meets s x r f h → s.ishBit h 29 = true →
      let k := filterTab (s.tabBits (ishTab h) 0 15 0)
      let sdu := s.tabBits k 1 15 0
      let w := if s.tabBit k 0 29 then 7 else if !(s.tabBits k 0 23 16).testBit f.pcp then 4
        else if sdu ≠ 0 ∧ sdu < frameLen f.octets then 5
        else if s.tabBit k 0 28 && !(f.gates.getD (s.tabBits k 1 22 16) 0).testBit (s.tabBits k 1 26 24) then 6 else 3
      s.tabBit k 0 31 = true → (w = 3 → s.tabBit k 0 27 = false ∧ Safety.Only s h [29]) →
      Safety.Next (.classify []) s (fun t => t.inbox = r ∧ Safety.Counted s t (k + 2) ∧ Safety.Counted s t (k + w) ∧
        Safety.TabsBut [k, k + 2, k + w] s t ∧
        t.tab k = (if w = 5 ∧ s.tabBit k 0 30 = true then withBits (s.tab k) 29 29 1 else s.tab k) ∧
        if w = 3 then Safety.Presented s t f h f.rtag false else t.xing = s.xing)) ∧
    (∀ (s : State) (x : Arrived) (r : List Arrived) (f : Frame) (h : Nat), Safety.Meets s x r f h → Safety.Only s h [29] →
      let k := filterTab (s.tabBits (ishTab h) 0 15 0)
      let i := s.tabBits k 0 13 0
      let m := meterTab i
      let d := (s.meterRefill i s.lt).meter i
      let l := frameLen f.octets * 1024
      s.tabBit k 0 31 = true → s.tabBit k 0 29 = false → (s.tabBits k 0 23 16).testBit f.pcp = true →
      s.tabBits k 1 15 0 = 0 → s.tabBit k 0 28 = false → s.tabBit k 0 27 = true → s.tabBit m 4 31 = true →
      (s.tabBit m 4 5 = false → (s.tabBit m 4 3 = false ∨ f.dei = false) → l ≤ d.c → Safety.Next (.classify []) s (fun t =>
        t.meter i = { d with c := d.c - l } ∧ Safety.Counted s t (m + 7) ∧
        Safety.TabsBut [k + 2, k + 3, m + 7] s t ∧ Safety.Presented s t f h f.rtag false)) ∧
      (s.tabBit m 4 5 = false → ((s.tabBit m 4 3 = true ∧ f.dei = true) ∨ d.c < l) → l ≤ d.e → Safety.Next (.classify []) s (fun t =>
        t.meter i = { d with e := d.e - l } ∧ Safety.Counted s t (m + 8) ∧
        if s.tabBit m 4 2 then Safety.Counted s t (k + 8) ∧ Safety.TabsBut [k + 2, k + 3, k + 8, m + 8] s t ∧ t.xing = s.xing
        else Safety.TabsBut [k + 2, k + 3, m + 8] s t ∧ Safety.Presented s t f h f.rtag true)) ∧
      ((s.tabBit m 4 5 = true ∨ (((s.tabBit m 4 3 = true ∧ f.dei = true) ∨ d.c < l) ∧ d.e < l)) →
        Safety.Next (.classify []) s (fun t =>
          t.meter i = d ∧ Safety.Counted s t (m + 9) ∧ Safety.Counted s t (k + 8) ∧ t.xing = s.xing ∧
          t.tabBit m 4 5 = (s.tabBit m 4 5 || s.tabBit m 4 4) ∧ Safety.TabsBut [k + 2, k + 3, k + 8, m + 4, m + 9] s t)))

/-- Recovery functions, their timers, and generation functions. A frame without an R-TAG at a valid recovery function
counts in TAGLESS and goes on only with TAKE_NOSEQ, leaving the function as it is. Match recovery takes any number
but the last; vector recovery takes one by its difference from RECOV_SEQ: all after TAKE_ANY, none outside the
history, else the numbers not yet seen, with the counters of the rule; an accepted frame restarts the reset timer,
and what individual recovery discards never reaches sequence recovery. A valid generation function numbers each
frame and advances NEXT. A reset timer that runs out sets TAKE_ANY, stops and counts; the latent error test of a
valid function raises SID_LATENT when the counts differ by more than the threshold and clears LATENT when they do
not; each latent reset period clears both counts. The model's readings in it: log 49 (the counts of a latent test).
(R88, R89, R90, R91, R92, R93, R366) -/
def Obligations.RecoveryTimers : Prop :=
  (∀ (s : State) (x : Arrived) (r : List Arrived) (f : Frame) (h b g : Nat), Safety.Meets s x r f h → Safety.Only s h [b] →
      ((b = 27 ∧ g = s.tabBits (ishTab h) 1 29 15) ∨ (b = 26 ∧ g = s.tabBits (ishTab h) 2 14 0)) →
      let k := recovTab g
      let timer := if s.tabBits k 1 15 0 = 0 then none else some (s.lt + s.tabBits k 1 15 0 * 10 * ltUs)
      s.tabBit k 0 31 = true →
      (f.rtag = none → (s.tabBit k 0 30 = true ∨ s.takeAny g = true) → Safety.Next (.classify []) s (fun t =>
        Safety.Counted s t (k + 10) ∧ Safety.TabsBut [k + 10] s t ∧ t.recs = s.recs ∧
        if s.tabBit k 0 29 then Safety.Presented s t f h none false else t.xing = s.xing)) ∧
      (∀ n : Nat, f.rtag = some n → s.tabBit k 0 30 = true →
        let d := (n + 65536 - s.recovSeq g) % 65536
        Safety.Next (.classify []) s (fun t =>
          if s.takeAny g = true ∨ d ≠ 0 then
            t.recovSeq g = n % 65536 ∧ t.takeAny g = false ∧ Safety.Counted s t (k + 5) ∧ (t.recov g).timer = timer ∧
            (if s.takeAny g = false ∧ d ≠ 1 then Safety.Counted s t (k + 7) else t.tab (k + 7) = s.tab (k + 7)) ∧
            Safety.TabsBut [k + 4, k + 5, k + 7] s t ∧ Safety.Presented s t f h (some n) false
          else Safety.Counted s t (k + 6) ∧ Safety.TabsBut [k + 6] s t ∧ t.xing = s.xing)) ∧
      (∀ n : Nat, f.rtag = some n → s.tabBit k 0 30 = false →
        let len := s.histLen g
        let hist := (s.recov g).history
        let d := toSigned 16 (n + 65536 - s.recovSeq g)
        Safety.Next (.classify []) s (fun t =>
          if s.takeAny g = true then
            (t.recov g).history = 2 ^ len - 1 ∧ t.recovSeq g = n % 65536 ∧ t.takeAny g = false ∧
            Safety.Counted s t (k + 5) ∧ (t.recov g).timer = timer ∧ Safety.TabsBut [k + 4, k + 5] s t ∧
            Safety.Presented s t f h (some n) false
          else if (len : Int) ≤ d ∨ d ≤ -(len : Int) then
            Safety.Counted s t (k + 9) ∧ Safety.TabsBut [k + 9] s t ∧ t.recs = s.recs ∧ t.xing = s.xing
          else if d ≤ 0 then
            if hist.testBit (-d).toNat then
              Safety.Counted s t (k + 6) ∧ Safety.TabsBut [k + 6] s t ∧ (t.recov g).history = hist ∧
              (t.recov g).timer = (s.recov g).timer ∧ t.xing = s.xing
            else
              (t.recov g).history = withBits hist (-d).toNat (-d).toNat 1 ∧ Safety.Counted s t (k + 5) ∧
              Safety.Counted s t (k + 7) ∧ (t.recov g).timer = timer ∧ Safety.TabsBut [k + 5, k + 7] s t ∧
              Safety.Presented s t f h (some n) false
          else
            t.tab (k + 8) = min (s.tab (k + 8) + zeroBits hist (len - d.toNat) d.toNat) 0xFFFFFFFF ∧
            (t.recov g).history = (hist * 2 ^ d.toNat + 1) % 2 ^ len ∧ t.recovSeq g = n % 65536 ∧
            Safety.Counted s t (k + 5) ∧ (t.recov g).timer = timer ∧
            (if d ≠ 1 then Safety.Counted s t (k + 7) else t.tab (k + 7) = s.tab (k + 7)) ∧
            Safety.TabsBut [k + 4, k + 5, k + 7, k + 8] s t ∧ Safety.Presented s t f h (some n) false))) ∧
    (∀ (s : State) (x : Arrived) (r : List Arrived) (f : Frame) (h : Nat), Safety.Meets s x r f h →
      s.ishBit h 29 = false → s.ishBit h 27 = true → s.ishBit h 26 = true →
      let g := s.tabBits (ishTab h) 1 29 15
      s.tabBit (recovTab g) 0 31 = true → s.tabBit (recovTab g) 0 30 = true → s.takeAny g = false →
      f.rtag = some (s.recovSeq g) → Safety.Next (.classify []) s (fun t =>
        Safety.Counted s t (recovTab g + 6) ∧ Safety.TabsBut [recovTab g + 6] s t ∧ t.recs = s.recs ∧ t.xing = s.xing)) ∧
    (∀ (s : State) (x : Arrived) (r : List Arrived) (f : Frame) (h : Nat), Safety.Meets s x r f h → Safety.Only s h [28] →
      let k := genTab (s.tabBits (ishTab h) 1 14 0)
      s.tabBit k 0 31 = true → Safety.Next (.classify []) s (fun t =>
        t.tabBits k 0 15 0 = (s.tabBits k 0 15 0 + 1) % 65536 ∧ Safety.Counted s t (k + 2) ∧
        Safety.TabsBut [k, k + 2] s t ∧ Safety.Presented s t f h (some (s.tabBits k 0 15 0)) false)) ∧
    (∀ (s : State) (f d : Nat), (s.recov f).timer = some d → s.bst.tested = [] → Safety.Next (.recoveryResetTimer f) s (fun t =>
      (t.recov f).timer = none ∧ t.takeAny f = true ∧ t.lt = max s.lt d ∧
      t.tab (recovTab f + 11) = min (s.tab (recovTab f + 11) + 1) 0xFFFFFFFF ∧
      Safety.TabsBut [recovTab f + 4, recovTab f + 11] s t ∧ t.regs = s.regs)) ∧
    (∀ (s : State) (f : Nat), s.latentRuns f = true → s.phase = .running → Safety.Next (.latentTest f) s (fun t =>
      let n := (s.recov f).accepted * (max 2 (s.tabBits (recovTab f) 2 19 16) - 1)
      let diff := if n ≤ (s.recov f).discarded then (s.recov f).discarded - n else n - (s.recov f).discarded
      (t.recov f).latent = decide (s.tabBits (recovTab f) 2 15 0 < diff) ∧
      (s.tabBits (recovTab f) 2 15 0 < diff → Safety.Caused t 25) ∧
      t.lt = (s.lt / (max 1 (s.tabBits (recovTab f) 3 15 0) * ltMs) + 1) * (max 1 (s.tabBits (recovTab f) 3 15 0) * ltMs))) ∧
    (∀ (s : State) (f : Nat), s.latentRuns f = true → s.phase = .running → Safety.Next (.latentResetPeriod f) s (fun t =>
      (t.recov f).accepted = 0 ∧ (t.recov f).discarded = 0 ∧ (t.recov f).latent = (s.recov f).latent ∧
      Safety.TabsBut [recovTab f + 13] s t ∧ t.regs = s.regs ∧
      t.lt = (s.lt / (max 1 (s.tabBits (recovTab f) 3 31 16) * 100 * ltMs) + 1) *
        (max 1 (s.tabBits (recovTab f) 3 31 16) * 100 * ltMs)))

/-- Panel ports: reception, transmission, collisions and PLCA. A good frame at an enabled panel port counts and goes to
the classifier as a frame of port 64 + t, a bad one counts as dropped, and one that meets the port's own frame
collides with it; the port begins the head of its high queue, after the gap that follows a received frame and not
while another node sends (log 66); where the echo of its signal comes later than 600 ns, every transmission
collides; a collision leaves the jam and a gap and backs off by a random draw, and the sixteenth discards the frame;
the end of a back-off begins the frame again; a BEACON starts the cycle of opportunities, an opportunity with
nothing to send passes after the TO timer, or after a burst after what the burst timer leaves, and the loss of
BEACONs ends PLCA. (R64, R65, R66, R67, R68) -/
def Obligations.PanelPorts : Prop :=
  (∀ (s : State) (n : Nat) (l : List Byte), n < 8 → s.phase = .running → s.on F.PNL_CTL.ENABLE 0 n = true →
      s.rxDown = false → s.op = .operational → s.pwr.blockRun = none → 60 ≤ l.length → l.length ≤ 1518 →
      (s.panelSending n = false → ∀ more : Bool, Safety.Next (.panelFrameRx n l true more) s (fun t =>
        t.fld F.PNL_RX_FRAMES 0 n = min (s.fld F.PNL_RX_FRAMES 0 n + 1) (2 ^ 32 - 1) ∧
        (∃ f : Frame, SMap.look t.frames s.nextId = some f ∧ f.octets = l ∧ f.port = 64 + n) ∧
        t.xing = s.xing ++ [⟨islPanel, islClassifier, s.lt + 6 * coreCycle, .descriptor s.nextId⟩] ∧
        (t.panel n).gapEnd = s.lt + panelGap ∧ (t.panel n).defer = false) ∧
        Safety.Next (.panelFrameRx n l false more) s (fun t =>
          t.fld F.PNL_DROPS 0 n = min (s.fld F.PNL_DROPS 0 n + 1) (2 ^ 32 - 1) ∧
          Safety.RegsBut [F.PNL_DROPS.key 0 n] s t ∧ (t.panel n).gapEnd = s.lt + panelGap ∧
          t = { s with regs := t.regs, panels := t.panels })) ∧
      (∀ i e : Nat, s.panelSending n = true → (s.panel n).tx = some (i, some e) → (s.panel n).attempts < 15 → ∀ ok more : Bool,
        Safety.Next (.panelFrameRx n l ok more) s (fun t =>
          t.fld F.PNL_COLLISIONS 0 n = min (s.fld F.PNL_COLLISIONS 0 n + 1) (2 ^ 32 - 1) ∧
          (t.panel n).tx = some (i, none) ∧ (t.panel n).attempts = (s.panel n).attempts + 1 ∧
          t.frames = s.frames ∧ t.xing = s.xing))) ∧
    (∀ (s : State) (n i : Nat) (r : List Nat), n < 8 → s.phase = .running → s.panelMay n = true → s.plcaActive n = false →
      (s.panel n).tx = none → (s.panel n).high = i :: r →
      (∀ j ∈ (s.panel n).high ++ (s.panel n).low, (s.frame j).bind (fun f => f.due) = none) →
      (∀ e : Nat, e ≤ 600 → Safety.Next (.panelFrameTx n false e) s (fun t =>
        (t.panel n).high = r ∧ (t.panel n).backoff = none ∧ t.regs = s.regs ∧
        (t.panel n).tx = some (i, some (max s.lt (s.panel n).gapEnd + panelLt (match s.frame i with
          | some f => f.octets
          | none => []))))) ∧
      (∀ e : Nat, 600 < e → (s.panel n).attempts < 15 → Safety.Next (.panelFrameTx n false e) s (fun t =>
        (t.panel n).high = r ∧ (t.panel n).tx = some (i, none) ∧ (t.panel n).attempts = (s.panel n).attempts + 1 ∧
        t.fld F.PNL_COLLISIONS 0 n = min (s.fld F.PNL_COLLISIONS 0 n + 1) (2 ^ 32 - 1) ∧
        t.lt = max s.lt (s.panel n).gapEnd + 600 * ltNs)) ∧
      (∀ e : Nat, Safety.Next (.panelFrameTx n true e) s (fun t =>
        (t.panel n).high = i :: r ∧ (t.panel n).tx = none ∧ (t.panel n).defer = true ∧ (t.panel n).energy = true ∧
        t = { s with panels := t.panels }))) ∧
    (∀ (s : State) (n i e : Nat), n < 8 → (s.panel n).tx = some (i, some e) → s.panelSending n = true →
      Safety.Next (.panelCollision n) s (fun t =>
        t.fld F.PNL_COLLISIONS 0 n = min (s.fld F.PNL_COLLISIONS 0 n + 1) (2 ^ 32 - 1) ∧
        (t.panel n).gapEnd = s.lt + 128 * panelBit ∧
        if 15 ≤ (s.panel n).attempts then
          (t.panel n).tx = none ∧ t.fld F.PNL_EXCESS_COLL 0 n = min (s.fld F.PNL_EXCESS_COLL 0 n + 1) (2 ^ 32 - 1)
        else (t.panel n).tx = some (i, none) ∧ (t.panel n).attempts = (s.panel n).attempts + 1 ∧
          ∃ x : Nat, x < 2 ^ min ((s.panel n).attempts + 1) 10 ∧
            (t.panel n).backoff = some (s.lt + (32 + x * 512) * panelBit))) ∧
    (∀ (s : State) (n i b : Nat), n < 8 → (s.panel n).backoff = some b → (s.panel n).tx = some (i, none) →
      s.panelMay n = true → s.plcaActive n = false →
      (∀ j ∈ (s.panel n).high ++ (s.panel n).low, (s.frame j).bind (fun f => f.due) = none) →
      Safety.Next (.panelBackoffExpiry n false) s (fun t =>
        (t.panel n).backoff = none ∧ t.lt = max (max s.lt b) (s.panel n).gapEnd ∧ t.regs = s.regs ∧
        (t.panel n).tx = some (i, some (max (max s.lt b) (s.panel n).gapEnd + panelLt (match s.frame i with
          | some f => f.octets
          | none => []))))) ∧
    (∀ (s : State) (n : Nat), n < 8 → s.phase = .running → s.on F.PNL_CTL.PLCA_EN 0 n = true →
      s.fld F.PNL_PLCA.NODE_ID 0 n ≠ 0xFF →
      Safety.Next (.plcaBeaconRx n) s (fun t =>
        t.fld F.PNL_STATUS.PLCA_OK 0 n = 1 ∧ (t.panel n).opportunity = 0 ∧ (t.panel n).burst = 0 ∧
        Safety.RegsBut [F.PNL_STATUS.PLCA_OK.key 0 n] s t) ∧
      (s.on F.PNL_STATUS.PLCA_OK 0 n = true → (s.panel n).tx = none → Safety.Next (.plcaToTimer n) s (fun t =>
        t.lt = s.lt + (if (s.panel n).burst = 0 then s.fld F.PNL_PLCA.TO_TIMER 0 n else s.fld F.PNL_CTL.BURST_TIMER 0 n - 96) * panelBit ∧ t.regs = s.regs ∧
        (t.panel n).opportunity = if s.fld F.PNL_PLCA.NODE_ID 0 n = 0 ∧
          s.fld F.PNL_PLCA.NODE_COUNT 0 n ≤ (s.panel n).opportunity + 1 then 0 else (s.panel n).opportunity + 1)) ∧
      Safety.Next (.plcaBeaconLoss n) s (fun t =>
        t.fld F.PNL_STATUS.PLCA_OK 0 n = 0 ∧ (t.panel n).opportunity = 0 ∧
        Safety.RegsBut [F.PNL_STATUS.PLCA_OK.key 0 n] s t))

/-- Enqueueing, selection, the end of a transmission, ageing and samples. A copy that reaches its port is queued, or
dropped and counted as R47, R129, R142 and R145 say; the MAC begins what the list of R132 chooses; a transmission
that ends counts the whole frame, or leaves an Ellipsis, and in loopback in TEST comes in at the port's own
receiver; the return of a read marks every queued copy of the frame, and one with a parity error raises
STAGE_PARITY; frames past AGE_TIME leave; a depth sample stores every class's occupancy. What the list of R132
chooses depends on nothing that a later stage of the drain order holds: not on the mix engines, the memory island,
the DMA channels, ingress and its crossings, or the pools (R34). The list has the order of R132: a due Concord frame
or mPacket before a probe, the head of the control queue, the highest eligible express class, a waiting Ellipsis
that may resume, the highest eligible pre-emptable class; within the class the eligible sub-queue of the smallest
finish tag. The readings of logs 17, 19 and 70 stand behind the conditions. (R21, R34, R44, R47, R129, R132, R138,
R142, R144, R145, R147, R149) -/
def Obligations.QueuesAndTransmission : Prop :=
  (∀ (s : State) (p : Nat) (c : Copy) (r : List Copy), p < s.nPorts → s.phase = .running →
      SMap.val s.arrived p [] = c :: r → s.spoilt c.fid = false → Safety.Next (.frameEnqueue p) s (fun t =>
        SMap.val t.arrived p [] = r ∧
        match s.offerVerdict p c with
        | .accept => (t.port p).occ c.tc = (s.port p).occ c.tc + c.cells ∧ t.regs = s.regs ∧
            ∃ x : Copy, x.id = c.id ∧ x.fid = c.fid ∧ x.enq = s.lt ∧
              ((t.port p).subq (subKey c.tc c.subq)).q = ((s.port p).subq (subKey c.tc c.subq)).q ++ [x]
        | .tail => t.fld F.QSH_TAIL_DROP p = min (s.fld F.QSH_TAIL_DROP p + 1) (2 ^ 32 - 1)
        | .invalid => t.fld F.QSH_SUBQ_INVALID_DROP p = min (s.fld F.QSH_SUBQ_INVALID_DROP p + 1) (2 ^ 32 - 1)
        | .oversize => t.fld F.TX_OVERSIZE_DROP p = min (s.fld F.TX_OVERSIZE_DROP p + 1) (2 ^ 32 - 1)
        | .flushed => if s.on F.QSH_CTL.ENABLE p
            then t.fld F.QSH_LINKDOWN_FLUSH p = min (s.fld F.QSH_LINKDOWN_FLUSH p + 1) (2 ^ 32 - 1)
            else t.fld F.QSH_DISABLED_DROP p = min (s.fld F.QSH_DISABLED_DROP p + 1) (2 ^ 32 - 1))) ∧
    (∀ (s : State) (p : Nat) (ups : List Nat) (ch : Choice), p < s.nPorts → s.phase = .running →
      let v := (((s.lookAhead p ups).unsentDrop p).ageDrop p).dropBarred p
      let u := (v.countHeld p).syncCredit p
      v.lineMay p = true → (u.port p).tx = none → (u.countDefer p (u.beginAt p)).choose p (u.beginAt p) = some ch →
      Safety.Next (.transmissionSelection p ups) s (fun t => t.lt = s.lt ∧
        ∃ x : Tx, (t.port p).tx = some x ∧ x.begin' = u.beginAt p ∧ x.copy = ch.copy)) ∧
    (∀ (s : State) (p : Nat) (x : Tx), p < s.nPorts → s.phase = .running → (s.port p).tx = some x → s.op = .test →
      s.on F.PRT_CTL.LOOPBACK p = true → x.whole = true → x.copy.mPacket = false →
      Safety.Next (.txFrameDone p) s (fun t => t = (s.txDone p).receive p x.octets (!x.badFcs))) ∧
    (∀ (s : State) (p : Nat) (x : Tx), p < s.nPorts → s.phase = .running → (s.port p).tx = some x → s.op ≠ .test →
      Safety.Next (.txFrameDone p) s (fun t => (t.port p).tx = none ∧ t.lt = max s.lt x.stop ∧
        (x.whole = true → x.copy.mPacket = false → x.badFcs = false →
          t.fld F.TX_FRAMES p = (s.fld F.TX_FRAMES p + 1) % 2 ^ 64 ∧
          t.fld F.TX_OCTETS p = (s.fld F.TX_OCTETS p + (x.octets.length + 4)) % 2 ^ 64) ∧
        (x.whole = false → (t.port p).ellipsis =
          some ⟨x.copy, x.octets, x.sent + x.fragData (s.octetLt p), if x.sent = 0 then 0 else (x.frag + 1) % 4, x.badFcs⟩))) ∧
    (∀ (s : State) (fid cell : Nat) (f : Frame), s.frame fid = some f →
      Safety.Next (.stageCellReadDone fid cell false) s (fun t => t.regs = s.regs ∧ t.frames = s.frames ∧
        ∀ p, p < s.nPorts → ∀ k x, (k, x) ∈ (t.port p).subqs → ∀ c, c ∈ x.q → c.fid = fid → c.readDone = true) ∧
      Safety.Next (.stageCellReadDone fid cell true) s (fun t => Safety.Caused t 18 ∧
        ∀ x, x ∈ t.captures → x.fid ≠ f.id)) ∧
    (∀ (s : State) (p e : Nat), p < s.nPorts → s.firstExpiry p = some e → Safety.Next (.ageExpiry p) s (fun t =>
      t.lt = max s.lt ((e / coreCycle + 1) * coreCycle) ∧
      (∀ c, c ∈ (t.port p).ctrl ∨ c ∈ (t.port p).due → t.lt / coreCycle ≤ (c.enq + s.ageLt p) / coreCycle) ∧
      (SMap.wf (s.port p).subqs = true → ∀ k x, (k, x) ∈ (t.port p).subqs → ∀ c, c ∈ x.q →
        t.lt / coreCycle ≤ (c.enq + s.ageLt p) / coreCycle))) ∧
    (∀ s : State, s.phase = .running → Safety.Next .depthSample s (fun t =>
      t.lt = (s.lt / (1024 * coreCycle) + 1) * (1024 * coreCycle) ∧ t.regs = s.regs ∧
      ∀ p c, p < s.nPorts → c < 8 → SMap.val (t.port p).depthLast c 0 = (s.port p).occ c)) ∧
    (∀ (s v : State) (p i : Nat), (Safety.behind s v).choose p i = s.choose p i) ∧
    (∀ (s : State) (p i : Nat),
      (∀ c ∈ (s.port p).due, s.controlMay = true → s.dueMay p i c = true → ∃ x ∈ (s.port p).due, s.choose p i = some (.due x) ∧
        s.dueMay p i x = true ∧ (c.origin ≠ .control kPROBE → x.origin ≠ .control kPROBE)) ∧
      (s.pickDue p i = none → ∀ (h : Copy) (r : List Copy), (s.port p).ctrl = h :: r → s.controlOpen p i h = true →
        s.fitAs p 7 h.len i false = .whole → s.choose p i = some (.control h)) ∧
      (s.pickDue p i = none → s.pickControl p i = none → s.dataMay p = true →
        (∀ (c k : Nat) (h : Copy) (f : Fit), c < 8 → s.express p c = true → s.pick p c i = some (k, h, f) →
          (∀ e, c < e → e < 8 → s.express p e = true → s.pick p e i = none) → s.choose p i = some (.queued k h f)) ∧
        ((∀ c, c < 8 → s.express p c = true → s.pick p c i = none) →
          (∀ e : Ellipsis, (s.port p).ellipsis = some e → (s.gatesAt p i).testBit e.copy.tc = true →
            s.holdAt p (s.portNt p i / 2 ^ 32) = false →
            let f := s.fit p e.copy.tc (e.octets.length + 4 - e.sent) i
            f ≠ .no → s.choose p i = some (.resume e f)) ∧
          (∀ (c k : Nat) (h : Copy) (f : Fit), (s.port p).ellipsis = none → c < 8 → s.express p c = false →
            s.pick p c i = some (k, h, f) → (∀ e, c < e → e < 8 → s.express p e = false → s.pick p e i = none) →
            s.choose p i = some (.queued k h f)))) ∧
      (∀ (c k : Nat) (h : Copy) (f : Fit), s.pick p c i = some (k, h, f) → k / 1024 = c ∧ f = s.fit p c h.len i ∧ f ≠ .no ∧
        ∃ y : SubQ, (k, y) ∈ (s.port p).subqs ∧ s.headAt p k i y = some h ∧
          ∀ kx ∈ (s.port p).subqs, kx.1 / 1024 = c →
            (∃ g, s.headAt p kx.1 i kx.2 = some g ∧ s.fit p c g.len i ≠ .no) → y.tag ≤ kx.2.tag))

/-- Writes to sub-queues and pools, and the flush of a disabled queue. A dword write of a sub-queue entry takes effect,
but for the token count, which takes none; a pool takes a size that the island can hold and is refused one that it
cannot; clearing QSH_CTL.ENABLE flushes the port's queues. (R128, R139, R145) -/
def Obligations.QueueWrites : Prop :=
  (∀ (s : State) (off : Nat) (d : Word), Safety.AdmitsTab s → s.bst.tested = [] → off / 0x40000 < s.nPorts →
      (off / 4 % 8 ≠ 3 → Safety.Next (.subqEntryWrite off d) s (fun t =>
        t.tab (tSubq + off / 4) = d.toNat ∧ Safety.TabsBut [tSubq + off / 4] s t ∧
        t = { s with tabs := t.tabs, ports := t.ports })) ∧
      (off / 4 % 8 = 3 → Safety.Next (.subqEntryWrite off d) s (fun t => t = s))) ∧
    (∀ (s : State) (p v : Nat) (dma : Bool), p < s.nPorts → Safety.Admits s (0x10 + p) → v < 65536 →
      (p % 4 = 0 ∧ v + s.fld (if dma then F.QSH_POOL_MIX else F.QSH_POOL_DMA) p ≤ 65024 ∧
          (if dma then (s.island (p / 4)).dmaUsed else (s.island (p / 4)).mixUsed) ≤ v →
        Safety.Next (.qshPoolWrite p dma v) s (fun t =>
          t.fld (if dma then F.QSH_POOL_DMA else F.QSH_POOL_MIX) p = v ∧
          Safety.RegsBut [(if dma then F.QSH_POOL_DMA else F.QSH_POOL_MIX).key p 0, F.QSH_POOL_LOW.key p 0] s t ∧
          t = { s with regs := t.regs, islands := t.islands })) ∧
      (p % 4 ≠ 0 ∨ 65024 < v + s.fld (if dma then F.QSH_POOL_MIX else F.QSH_POOL_DMA) p ∨
          v < (if dma then (s.island (p / 4)).dmaUsed else (s.island (p / 4)).mixUsed) →
        Safety.Next (.qshPoolWrite p dma v) s (fun t =>
          t = s.refuse (atBar0 (0x102200 + 0x10000 * p + (if dma then 4 else 0))) v cRULE))) ∧
    (∀ (s : State) (p cbs : Nat), p < s.nPorts → Safety.Admits s (0x10 + p) → Safety.Next (.queueDisableFlush p cbs) s (fun t =>
      t.fld F.QSH_CTL.ENABLE p = 0 ∧ t.fld F.QSH_CTL.CBS_EN p = cbs % 256 ∧ (t.port p).ctrl = [] ∧ (t.port p).due = [] ∧
      t.lt = s.lt ∧ (SMap.wf (s.port p).subqs = true → ∀ k x, (k, x) ∈ (t.port p).subqs → x.q = [])))

/-- Writing, staging, arming and aborting a Sentence. A write to a Clause of the admin bank, or of an admin register,
takes effect, returns STAGED to EMPTY and is refused while a swap is pending; SENTENCE_STAGE stages a Sentence that
passes the checks of R107 and empties the admin state of one that fails; SENTENCE_ARM fixes the change time on the
cycle grid of the base time and makes the swap pending; SENTENCE_ABORT returns a swap more than 2 us ahead to
STAGED; each answers WRONG_STATE where its state is wrong, with no other effect. (R98, R100, R106, R107, R108, R111) -/
def Obligations.SentenceCommands : Prop :=
  (∀ (s : State) (off : Nat) (d : Word), Safety.AdmitsTab s → s.bst.tested = [] → off / 0x10000 < s.nPorts →
      (s.fld F.SEN_STATUS.OPER_BANK (off / 0x10000) ≠ off / 0x8000 % 2 → s.swapPending (off / 0x10000) = false →
        Safety.Next (.clauseWrite off d) s (fun t =>
          t.tab (tSen + off / 4) = d.toNat ∧ Safety.TabsBut [tSen + off / 4] s t ∧
          t.isBad badClause (clauseBad (off / 0x10000) (off / 0x8000 % 2) (off / 8 % 4096)) = false ∧
          t.adminState (off / 0x10000) =
            (if s.adminState (off / 0x10000) = aSTAGED then aEMPTY else s.adminState (off / 0x10000)) ∧
          Safety.RegsBut [F.SEN_STATUS.ADMIN_STATE.key (off / 0x10000) 0] s t)) ∧
      (s.fld F.SEN_STATUS.OPER_BANK (off / 0x10000) = off / 0x8000 % 2 ∨ s.swapPending (off / 0x10000) = true →
        Safety.Next (.clauseWrite off d) s (fun t => t = s.refuse (atBar2 (0x13000000 + off)) d.toNat cRULE))) ∧
    (∀ (s : State) (p reg : Nat) (d : Word) (f : Field), p < s.nPorts → Safety.Admits s (0x10 + p) → senAdmin[reg]? = some f →
      (s.swapPending p = false → Safety.Next (.senAdminWrite p reg d) s (fun t =>
        t.fld f p = d.toNat % 2 ^ f.width ∧
        t.adminState p = (if s.adminState p = aSTAGED then aEMPTY else s.adminState p) ∧
        Safety.RegsBut [f.key p 0, F.SEN_STATUS.ADMIN_STATE.key p 0] s t ∧ t = { s with regs := t.regs })) ∧
      (s.swapPending p = true → Safety.Next (.senAdminWrite p reg d) s (fun t =>
        t = s.refuse (atBar0 (0x101100 + 0x10000 * p + 4 * reg)) d.toNat cRULE))) ∧
    (∀ (s : State) (c : Cmd) (p : Nat), Safety.Executes s 0x10 c → bitsOf (c.word 1) 5 0 = p →
      (s.swapPending p = true → Safety.Next (.sentenceStage []) s (fun t => Safety.AnswersOnly s t c xWRONGSTATE 7 [aPENDING])) ∧
      (s.swapPending p = false → s.adminParamsOk p = true →
        s.firstFail p (1 - s.fld F.SEN_STATUS.OPER_BANK p) (s.fld F.SEN_ADMIN_LEN p) 0 = none →
        s.bankBad p (1 - s.fld F.SEN_STATUS.OPER_BANK p) = none →
        Safety.Next (.sentenceStage []) s (fun t => Safety.Answers t c xOK 0 [aSTAGED, 0] ∧ t.adminState p = aSTAGED ∧
          t.tabs = s.tabs)) ∧
      (s.swapPending p = false → s.adminParamsOk p = false →
        Safety.Next (.sentenceStage []) s (fun t => t.adminState p = aEMPTY ∧ t.host.cur = none ∧
          t.fld F.HIF_MB_RESP c.src 0 % 256 = xBADARG ∧ t.tabs = s.tabs))) ∧
    (∀ (s : State) (c : Cmd) (p : Nat), Safety.Executes s 0x11 c → bitsOf (c.word 1) 5 0 = p →
      (let n := if s.ns + 1000 ≤ s.adminBase p then 0 else ceilDiv (s.ns + 1000 - s.adminBase p) (s.fld F.SEN_ADMIN_CYCLE p)
       s.on F.SEN_CTL.ENABLE p = true → s.adminState p = aSTAGED → s.shedAgreed p = false →
       s.armServes p (s.adminBase p + n * s.fld F.SEN_ADMIN_CYCLE p) = true →
       Safety.Next .sentenceArm s (fun t => t.adminState p = aPENDING ∧ t.host.cur = none ∧
         (t.port p).sen.change = s.adminBase p + n * s.fld F.SEN_ADMIN_CYCLE p ∧
         (t.port p).sen.armed = s.portNs p ∧ t.fld F.SEN_SKIPPED.SKIPPED p = min n 0xFFFFFFFF ∧
         t.fld F.HIF_MB_RESP c.src 0 % 256 = (if n = 0 then xOK else xLATE))) ∧
      (s.adminState p ≠ aSTAGED → Safety.Next .sentenceArm s (fun t => Safety.AnswersOnly s t c xWRONGSTATE 7 []))) ∧
    (∀ (s : State) (c : Cmd) (p : Nat), Safety.Executes s 0x12 c → bitsOf (c.word 1) 5 0 = p →
      (s.swapPending p = true → s.portNs p < (s.port p).sen.change - 2000 → s.shedAgreed p = false →
        Safety.Next .sentenceAbort s (fun t => Safety.Answers t c xOK 0 [aSTAGED] ∧ t.adminState p = aSTAGED ∧
          (t.port p).sen = (s.port p).sen ∧ t.tabs = s.tabs)) ∧
      (s.swapPending p = false → Safety.Next .sentenceAbort s (fun t =>
        Safety.AnswersOnly s t c xWRONGSTATE 7 [s.adminState p])))

/-- Swaps, cycles, Clauses, holds and the clearing of ENABLE. At a swap the admin bank and parameters become operative,
and the admin state is EMPTY; a cycle start takes up its cycle and discards late frames, and before them the mixed
ones whose deadline instant has passed; a Clause boundary takes up its Clause. Clause i is in force from S + D(i) to
the next Clause or the end of the cycle that starts at S, the cycles start at C + k * T, and the gates that a port
applies are those of the Clause in force at the core cycle (R19), or of SEN_DEFAULT while no Sentence is operative,
when there is no hold and no window either; a hold pre-empts a frame that can be cut; clearing SEN_CTL.ENABLE leaves
no operative Sentence and takes back a pending swap. (R19, R101, R102, R110, R112, R116, R119, R120) -/
def Obligations.SentencesRun : Prop :=
  (∀ (s : State) (p : Nat) (e : Bool), p < s.nPorts → s.swapPending p = true → s.phase = .running → Safety.Next (.sentenceSwap p e) s (fun t =>
      t.fld F.SEN_STATUS.OPER_BANK p = 1 - s.fld F.SEN_STATUS.OPER_BANK p ∧ t.fld F.SEN_STATUS.OPER_VALID p = 1 ∧
      t.adminState p = aEMPTY ∧ t.fld F.SEN_SWAPS p = min (s.fld F.SEN_SWAPS p + 1) (2 ^ 32 - 1) ∧
      t.fld F.SEN_OPER_CYCLE p = s.fld F.SEN_ADMIN_CYCLE p % 2 ^ 32 ∧ t.fld F.SEN_OPER_LEN p = s.fld F.SEN_ADMIN_LEN p % 2 ^ 13 ∧
      t.fld F.SEN_OPER_RESV p = s.fld F.SEN_ADMIN_RESV p % 2 ^ 20 ∧ (t.port p).sen.operC = (s.port p).sen.change)) ∧
    (∀ (s : State) (p : Nat), p < s.nPorts → s.on F.SEN_STATUS.OPER_VALID p = true → s.phase = .running →
      s.swapPending p = false → Safety.Next (.cycleStart p) s (fun t =>
        let u := s.runToPort p (s.senPos p (s.port p).sen.cycle).cycle.stop
        (t.port p).sen.cycle = (u.senPos p (u.portNs p)).cycle.start ∧ t.lt = u.lt ∧ t.tabs = s.tabs ∧
        ∀ k, k ≠ F.SEN_LATE_DROP.key p 0 → (∀ m, k ≠ F.ENG_UNSENT_DROP.key m 0) → SMap.look t.regs k = SMap.look s.regs k) ∧
      Safety.Next (.clauseBoundary p false) s (fun t =>
        let u := s.runToPort p (s.senPos p (s.port p).sen.clause).stop
        let q := u.senPos p (u.portNs p)
        (t.port p).sen.clause = max q.start q.cycle.start ∧ t.lt = u.lt ∧ t.tabs = s.tabs) ∧
      Safety.Next (.clauseBoundary p true) s (fun t =>
        let u := s.runToPort p (s.senPos p (s.port p).sen.clause).stop
        let q := u.senPos p (u.portNs p)
        q.oper = true → t.isBad badClause (clauseBad p q.bank q.idx) = true)) ∧
    (∀ (s u : State) (p y : Nat) (x : Tx), p < s.nPorts → s.phase = .running → s.on F.PRT_MM_STATUS.ACTIVE p = true →
      (if s.holdAt p (s.portNs p) then some s
        else (s.nextHold p (s.portNs p) (s.portNs p + 2 * s.fld F.SEN_OPER_CYCLE p)).map (fun h => s.runToPort p h)) = some u →
      u.cuttable p u.lt = some (y, x) → Safety.Next (.holdInForce p) s (fun t =>
        (t.port p).tx = some { x with whole := false, stop := x.begin' + fragOctets y * s.octetLt p } ∧
        t.fld F.SEN_HOLD_PREEMPT p = min (s.fld F.SEN_HOLD_PREEMPT p + 1) (2 ^ 32 - 1) ∧
        t.fld F.TX_PREEMPTIONS p =
          (if x.whole then min (s.fld F.TX_PREEMPTIONS p + 1) (2 ^ 32 - 1) else s.fld F.TX_PREEMPTIONS p) ∧ t.lt = u.lt)) ∧
    (∀ (s : State) (p d : Nat), p < s.nPorts → Safety.Admits s (0x10 + p) → Safety.Next (.senEnableClear p d) s (fun t =>
      t.fld F.SEN_CTL.ENABLE p = 0 ∧ t.fld F.SEN_CTL.DROP_LATE p = d % 256 ∧ t.fld F.SEN_STATUS.OPER_VALID p = 0 ∧
      t.adminState p = (if s.adminState p = aPENDING then aSTAGED else s.adminState p) ∧ t.tabs = s.tabs ∧ t.lt = s.lt)) ∧
    (∀ (s : State) (p x : Nat), s.swapPending p = false →
      let n := s.gateNs p x
      (s.on F.SEN_STATUS.OPER_VALID p = false → s.gatesAt p x = s.fld F.SEN_DEFAULT.GATES p % 256 ∧ s.holdAt p n = false ∧
        (s.senPos p n).shed = false ∧ (s.senPos p n).cal = false ∧ (s.senPos p n).deadline = false) ∧
      (s.on F.SEN_STATUS.OPER_VALID p = true → s.bad = [] → ∀ (k c : Int) (i : Nat),
        let bank := s.fld F.SEN_STATUS.OPER_BANK p
        let D := fun (i : Nat) => (((List.range i).map (fun j => clDuration (s.clause p bank j))).sum : Int)
        c = ((s.port p).sen.operC : Int) + k * s.fld F.SEN_OPER_CYCLE p → i < s.fld F.SEN_OPER_LEN p → c + D i ≤ n →
        n < c + s.fld F.SEN_OPER_CYCLE p → (i + 1 < s.fld F.SEN_OPER_LEN p → n < c + D (i + 1)) →
        (s.senPos p n).idx = i ∧ (s.senPos p n).cycle.start = c.toNat ∧ s.gatesAt p x = clGates (s.clause p bank i)))

/-- BIST runs, waves, results and fuse burns. BIST_RUN is LOCKED by a REG lock of a scan group's unit, and otherwise
empties the key slots for a mask with a scan group or group 8, lists its units and parks; a wave takes only units of
different islands whose powers fit the budget beside the baseline, or is counted as empty; the end of a wave ends
every running unit; the end of the run completes the parked command with OK or, with units that never fitted,
NO_RESOURCE, and raises BST_UNREPAIRED for what is left unrepaired; BIST_RESULT answers with the record; FUSE_BURN
in TEST fuses the soft repairs that stand, after 10 ms each, or is refused; elsewhere it has no effect where nothing
refuses it (log 34); a record that does not read back right is used up and its repair stays soft. (R394, R395, R396,
R398, R400, R402) -/
def Obligations.SelfTest : Prop :=
  (∀ (s : State) (c : Cmd), Safety.Executes s 0x70 c →
      (s.bistLocked (c.word 1) = true → Safety.Next .bistRun s (fun t => Safety.AnswersOnly s t c xLOCKED 8 [])) ∧
      (s.bistLocked (c.word 1) = false → c.word 1 < 2 ^ 9 → s.bst.run = none → s.wiping = false →
        Safety.Next .bistRun s (fun t => Safety.Parks s t c ∧
          t.bst.run = some (s.lt, (c.word 2).testBit 0, s.lt) ∧ t.bst.units = s.bistList (c.word 1) ∧
          t.fld F.BST_STATUS.RUNNING = 1 ∧ t.fld F.BST_STATUS.WAVE = 0 ∧
          ((List.range 9).any (fun g => (c.word 1).testBit g && (bistScan g || g = 8)) = true →
            ∀ x ∈ t.bst.keys, 16 ≤ x.1)))) ∧
    (∀ (s : State) (b : Nat), s.bst.run.isSome = true → (∀ x ∈ s.bst.units, x.state ≠ 1) → s.bistOver = false →
      Safety.Next (.bistWaveStart b) s (fun t =>
        t.lt = s.lt + ltMs ∧ t.bst.units.length = s.bst.units.length ∧
        (let w := t.bst.units.filter (fun x => x.state = 1)
         (w.map (fun x => bistPower x.group)).foldl (· + ·) 0 ≤ 10 * s.fld F.PWR_BUDGET - 10 * b ∧
         (w.map t.bistIsland).Nodup ∧
         (w = [] → t.bst.emptyTries = s.bst.emptyTries + 1) ∧
         (w ≠ [] → t.bst.emptyTries = 0 ∧ t.fld F.BST_STATUS.WAVE = min 255 (s.fld F.BST_STATUS.WAVE + 1))))) ∧
    (∀ (s : State) (ends : List UnitEnd) (r : Nat × Bool × Nat), s.bst.run = some r →
      (∃ x ∈ s.bst.units, x.state = 1) → Safety.Next (.bistWaveDone ends) s (fun t =>
        t.lt = max s.lt (r.2.2 + ((s.bst.units.filter (fun x => x.state = 1)).map (fun x => bistTime x.group)).foldl max 0 * ltMs) ∧
        ∀ x ∈ t.bst.units, x.state ≠ 1)) ∧
    (∀ (s : State) (r : Nat × Bool × Nat), s.bst.run = some r → (∀ x ∈ s.bst.units, x.state ≠ 1) → s.bistOver = true →
      Safety.sources s = true →
      Safety.Next .bistRunDone s (fun t =>
        t.bst.run = none ∧ t.fld F.BST_STATUS.RUNNING = 0 ∧ t.lt = s.lt ∧
        (r.2.1 = false → ∀ c, s.parkedOp 0x70 = some c →
          (s.bst.units.any (fun x => x.state = 0) = false → Safety.Replies t c xOK 0 []) ∧
          (s.bst.units.any (fun x => x.state = 0) = true → Safety.Replies t c xNORES 7 [])) ∧
        (r.2.1 = true → (maskGroups s.bst.mask).any (fun g => decide (s.bst.word g 11 ≠ 0)) = true → Safety.Caused t 81))) ∧
    (∀ (s : State) (c : Cmd), Safety.Executes s 0x71 c → Safety.Next .bistResult s (fun t =>
      Safety.AnswersOnly s t c xOK 0 (SMap.val s.bst.results (bitsOf (c.word 1) 4 0) []))) ∧
    (∀ (s : State), Safety.Admits s 9 →
      (s.lifecycle < 2 → s.fuses.recordsUsed + s.bst.soft.length ≤ 8 → s.bst.burning = none →
        (s.op = .test → s.bst.soft ≠ [] → Safety.Next .fuseBurn s (fun t => t.fld F.BST_FUSE.BURN_BUSY = 1 ∧
          Safety.RegsBut [F.BST_FUSE.BURN_BUSY.key 0 0] s t ∧
          t = { s with regs := t.regs, bst := { s.bst with burning := some (s.lt, s.bst.soft) } })) ∧
        (s.op ≠ .test ∨ s.bst.soft = [] → Safety.Next .fuseBurn s (fun t => t = s))) ∧
      (2 ≤ s.lifecycle ∨ 8 < s.fuses.recordsUsed + s.bst.soft.length ∨ s.bst.burning.isSome = true →
        Safety.Next .fuseBurn s (fun t => t = s.refuse (atBar0 0x90008) 0x8000_0000 cRULE))) ∧
    (∀ (s : State) (rb : List Bool) (b : Nat) (rs : List Repair), s.bst.burning = some (b, rs) →
      Safety.Next (.fuseBurnDone rb) s (fun t =>
        t.bst.burning = none ∧ t.fld F.BST_FUSE.BURN_BUSY = 0 ∧ t.lt = max s.lt (b + 10 * rs.length * ltMs) ∧
        t.fuses.recordsUsed = s.fuses.recordsUsed + rs.length ∧
        (rs ≠ [] → t.fld F.BST_FUSE.RECORDS_USED = (s.fuses.recordsUsed + rs.length) % 2 ^ F.BST_FUSE.RECORDS_USED.width) ∧
        ((∀ i, rb.getD i true = true) → t.fuses.repairs = s.fuses.repairs ++ rs ∧ t.bst.soft = rs.foldl List.erase s.bst.soft) ∧
        ((∃ i, i < rs.length ∧ rb.getD i true = false) → Safety.Caused t 83)))

/-- The key store, the TAP and scan access. KEY_LOAD fills an empty slot when the CRC is right and is turned away in
RETURNED, with a wrong CRC or on a full slot; KEY_CLEAR empties the slots of its mask; the TAP selects BYPASS for
EXTEST, CLAMP and HIGHZ while RSTn is high and for the private instruction where it may not connect the chains; an
unlock value that matches a loaded key unlocks, a mismatch counts, and after four none is looked at; the opening of
a scan path enters SAFE, empties the key store and wipes the memories; the chains connect 40 ms later. The model's
readings in it: log 35 (BYPASS for a barred instruction, the order of the checks of KEY_LOAD). (R314, R403, R404) -/
def Obligations.KeysAndScan : Prop :=
  (∀ (s : State) (c : Cmd), Safety.Executes s 0x90 c →
      (let k := bitsOf (c.word 1) 3 0
       (s.lifecycle ≠ 3 → c.word 10 = crc32 (c.bytes 2 8) → SMap.look s.bst.keys k = none → Safety.Next .keyLoad s (fun t =>
          Safety.Answers t c xOK 0 [] ∧ SMap.look t.bst.keys k = some (leNum (c.bytes 2 8)) ∧
          t.fbit F.BST_KEY_STATUS.LOADED k = true ∧ t.op = s.op ∧ t.tabs = s.tabs)) ∧
       (s.lifecycle ≠ 3 → c.word 10 = crc32 (c.bytes 2 8) → (SMap.look s.bst.keys k).isSome = true →
          Safety.Next .keyLoad s (fun t => Safety.AnswersOnly s t c xBADARG 5 []))) ∧
      (s.lifecycle ≠ 3 → c.word 10 ≠ crc32 (c.bytes 2 8) →
        Safety.Next .keyLoad s (fun t => Safety.AnswersOnly s t c xBADARG 7 [])) ∧
      (s.lifecycle = 3 → Safety.Next .keyLoad s (fun t => Safety.AnswersOnly s t c xLOCKED 7 []))) ∧
    (∀ (s : State) (c : Cmd), Safety.Executes s 0x91 c → Safety.Next .keyClear s (fun t =>
      Safety.Answers t c xOK 0 [] ∧ t.bst.keys = s.bst.keys.filter (fun x => !(bitsOf (c.word 1) 15 0).testBit x.1) ∧
      t.tabs = s.tabs ∧ t.op = s.op)) ∧
    (∀ (s : State) (i : TapInstr),
      (s.board.rstLow = false → i = .extest ∨ i = .clamp ∨ i = .highz → Safety.Next (.tapInstruction i) s (fun t =>
        t.bst.tap = .bypass ∧ t.fld F.BST_SCAN_REFUSED = min (s.fld F.BST_SCAN_REFUSED + 1) (2 ^ 32 - 1))) ∧
      (i = .privateScan → s.scanMay = false → Safety.Next (.tapInstruction i) s (fun t => t.bst.tap = .bypass ∧ t.bst.scanPending = false)) ∧
      (i = .bypass ∨ i = .idcode ∨ i = .sample ∨ (i = .privateScan ∧ s.scanMay = true) ∨
          (s.board.rstLow = true ∧ (i = .extest ∨ i = .clamp ∨ i = .highz)) →
        Safety.Next (.tapInstruction i) s (fun t => t.bst.tap = i ∧
          t.bst.scanPending = decide (i = .privateScan) ∧ Safety.RegsBut [F.BST_STATUS.SCAN_OPEN.key 0 0] s t))) ∧
    (∀ (s : State) (v : Nat),
      (s.bst.unlockFails < 4 → s.bst.keys.any (fun x => x.2 = v) = true → Safety.Next (.scanUnlock v) s (fun t =>
        t = { s with bst := { s.bst with unlocked := true } })) ∧
      (s.bst.unlockFails < 4 → s.bst.keys.any (fun x => x.2 = v) = false → Safety.Next (.scanUnlock v) s (fun t =>
        t.bst.unlockFails = s.bst.unlockFails + 1 ∧ t.bst.unlocked = s.bst.unlocked ∧
        t.fld F.BST_SCAN_REFUSED = min (s.fld F.BST_SCAN_REFUSED + 1) (2 ^ 32 - 1))) ∧
      (4 ≤ s.bst.unlockFails → Safety.Next (.scanUnlock v) s (fun t => t = s))) ∧
    (∀ (s : State), s.bst.scanPending = true → s.phase = .running → s.scanMay = true → s.s3MustWait = false →
      Safety.Next .scanOpen s (fun t => t.op = .safe ∧ t.tabs = [] ∧ t.frames = [] ∧ t.bst.scanWiped = true ∧
        ∀ x ∈ t.bst.keys, 16 ≤ x.1)) ∧
    (∀ (s : State), s.bst.scanWiped = true → s.bst.tap = .privateScan → Safety.Next .scanChainsConnect s (fun t =>
      t.lt = s.lt + 40 * ltMs ∧ t.bst.scanOpen = true ∧ t.fld F.BST_STATUS.SCAN_OPEN = 1 ∧ t.tabs = s.tabs))

/-- LIFECYCLE_ADVANCE and the end of its wipe. LIFECYCLE_ADVANCE is checked in the order of R406, each check with its
status and detail; one that passes empties the key store, wipes the memories, sets WIPING and parks; the end of the
wipes fuses the new state, and for PROVISIONED the owner value, and completes the command with OK; a failed wipe, as
is that of a port whose link was lost meanwhile, leaves the state unchanged and completes it with NO_RESOURCE. What
a wipe cut short has reached is a free value (log 32). (R406, R407, R408) -/
def Obligations.LifeCycleTransition : Prop :=
  (∀ (s : State) (c : Cmd), Safety.Executes s 0x80 c →
      (let g := bitsOf (c.word 1) 1 0
       (c.word 2 ≠ 0x4C43 → Safety.Next .lifecycleAdvance s (fun t => Safety.AnswersOnly s t c xBADARG 6 [])) ∧
       (c.word 2 = 0x4C43 → g ≠ s.lifecycle + 1 ∨ s.pairOn = true ∨ s.cxlUnsettled = true →
         Safety.Next .lifecycleAdvance s (fun t => Safety.AnswersOnly s t c xBADARG 7 [])) ∧
       (c.word 2 = 0x4C43 → g = s.lifecycle + 1 → s.pairOn = false → s.cxlUnsettled = false →
         (8 < s.bst.authFails → Safety.Next .lifecycleAdvance s (fun t => Safety.AnswersOnly s t c xAUTH 7 [])) ∧
         (s.bst.authFails ≤ 8 → s.authOk g c.auth = false → Safety.Next .lifecycleAdvance s (fun t =>
           Safety.Answers t c xAUTH 7 [] ∧ t.bst.authFails = s.bst.authFails + 1 ∧ Safety.Caused t 85 ∧
           t.lifecycle = s.lifecycle ∧ t.tabs = s.tabs)) ∧
         (s.bst.authFails ≤ 8 → s.authOk g c.auth = true → Safety.Next .lifecycleAdvance s (fun t =>
           Safety.Parks s t c ∧ t.bst.advance = some ⟨s.lt, g, c.auth,
             ((List.range s.nCxl).filter s.mapped).map (fun k => (k, (s.cxlPort k).mapped)), []⟩ ∧ t.wiping = true ∧ t.tabs = [] ∧ t.frames = [] ∧
           t.lifecycle = s.lifecycle ∧ t.op = s.op ∧ ∀ x ∈ t.bst.keys, 16 ≤ x.1))))) ∧
    (∀ (s : State) (failed : List Nat) (x : Transition), s.bst.advance = some x → Safety.sources s = true →
      (let bad := x.failed ++ (x.ports.map (fun y => y.1)).filter (fun k => failed.contains k && !x.failed.contains k)
       (bad = [] → Safety.Next (.lifecycleWipeDone failed) s (fun t =>
          t.lt = max s.lt (x.start + x.wipeLt + 10 * ltMs) ∧ t.lifecycle = x.target ∧ t.fuses.lifecycle = x.target ∧
          t.owner = (if x.target = 1 then x.value else s.owner) ∧ t.wiping = false ∧ t.bst.advance = none ∧
          t.fld F.BST_WIPES = min (s.fld F.BST_WIPES + 1) (2 ^ 32 - 1) ∧
          (∀ y ∈ x.ports, (t.cxlPort y.1).mem = []) ∧
          ∀ c, s.parkedOp 0x80 = some c → Safety.Replies t c xOK 0 [])) ∧
       (bad ≠ [] → Safety.Next (.lifecycleWipeDone failed) s (fun t =>
          t.lt = max s.lt (x.start + x.wipeLt) ∧ t.lifecycle = s.lifecycle ∧ t.fuses = s.fuses ∧ t.wiping = false ∧
          Safety.Caused t 87 ∧ ∀ c, s.parkedOp 0x80 = some c → Safety.Replies t c xNORES 7 []))))

/-- CXL ports: enumeration, failed reads, link loss, entries. A write of ENUM starts the enumeration of a port that is
not MAPPED, whose CXLc_PERSTn is released 1 ms later, and is refused for one that is; the enumeration ends in the
state that R268 gives for what it found, with the mapped range in whole units of 256 MiB; a read that returns poison
poisons its 64-byte unit, counts and raises CXM_POISON, and one that returns nothing counts, and fails the read of
that unit; the loss of a trained link, in UNUSABLE and in TRAINING too, takes the port DOWN, counts and raises
CXM_LINK_DOWN, and fails the wipe of a life-cycle transition that has not reached the port's end; a store entry is
collected until its last dword, which applies it whole or refuses it. The model's readings in it: logs 50 and 72
(entries, which read fails). (R267, R268, R270, R271, R272, R408, R433) -/
def Obligations.CxlPorts : Prop :=
  (∀ (s : State) (c : Nat), c < s.nCxl → Safety.Admits s 7 →
      (s.mapped c = false → Safety.Next (.cxmEnum c) s (fun t => t.cxlState c = pTRAINING ∧
        (t.cxlPort c).perstAt = some (s.lt + ltMs) ∧
        (t.cxlPort c).mem = (s.cxlPort c).mem ∧
        Safety.RegsBut [F.CXM_PORT_STATUS.STATE.key 0 c] s t ∧ t = { s with regs := t.regs, cxl := t.cxl })) ∧
      (s.mapped c = true → Safety.Next (.cxmEnum c) s (fun t =>
        t = s.refuse (atBar0 0x70000) (2 ^ (16 + c) + s.fld F.CXM_CTL.ENABLE) cRULE))) ∧
    (∀ (s : State) (c : Nat) (d : CxlDevice), c < s.nCxl → s.cxlState c = pTRAINING →
      Safety.Next (.enumerationDone c d) s (fun t => t.lt = max s.lt ((s.cxlPort c).perstAt.getD 0) ∧
        (d.trained = false → t.cxlState c = pNOTPRESENT ∧ t.cxl = s.cxl ∧ t.tabs = s.tabs) ∧
        (d.trained = true → d.usable = false ∨ 2 < d.width ∨ 1 < d.speed →
          t.cxlState c = pUNUSABLE ∧ t.cxl = s.cxl ∧ t.tabs = s.tabs) ∧
        (d.trained = true → d.usable = true → d.width ≤ 2 → d.speed ≤ 1 →
          t.fld F.CXM_PORT_STATUS.WIDTH 0 c = d.width ∧ t.fld F.CXM_PORT_STATUS.SPEED 0 c = d.speed ∧
          (t.on F.CXM_PORT_STATUS.DEGRADED 0 c = true ↔ d.width ≠ 0 ∨ d.speed ≠ 0) ∧
          (d.width ≠ 0 ∨ d.speed ≠ 0 → Safety.Caused t 57) ∧
          (d.type3 = false → t.cxlState c = pNOTTYPE3) ∧
          (d.type3 = true → d.ready = false → t.cxlState c = pNOTREADY) ∧
          (d.type3 = true → d.ready = true → t.cxlState c = pMAPPED ∧ Safety.Caused t 56 ∧
            (t.cxlPort c).mapped = min d.capacity 128000000000 / (256 * 1024 * 1024) * (256 * 1024 * 1024) ∧
            (t.cxlPort c).mem = (s.cxlPort c).mem)))) ∧
    (∀ (s : State) (c off : Nat), c < s.nCxl → s.mapped c = true →
      Safety.Next (.cxlReadFail c off true) s (fun t =>
        (t.cxlPort c).poison.contains (off / 64 * 64) = true ∧ Safety.Caused t 59 ∧
        t.fld F.POISON_READS 0 c = min (s.fld F.POISON_READS 0 c + 1) (2 ^ 32 - 1) ∧
        (t.cxlPort c).mem = (s.cxlPort c).mem ∧ t.tabs = s.tabs) ∧
      Safety.Next (.cxlReadFail c off false) s (fun t =>
        t.fld F.READ_TIMEOUTS 0 c = min (s.fld F.READ_TIMEOUTS 0 c + 1) (2 ^ 32 - 1) ∧
        (t.cxlPort c).late.contains (off / 64 * 64) = true ∧ (t.cxlPort c).mem = (s.cxlPort c).mem ∧
        (t.cxlPort c).poison = (s.cxlPort c).poison ∧ Safety.RegsBut [F.READ_TIMEOUTS.key 0 c] s t ∧
        t = { s with regs := t.regs, cxl := t.cxl })) ∧
    (∀ (s : State) (c : Nat), c < s.nCxl → s.cxlState c = pNOTTYPE3 ∨ s.cxlState c = pNOTREADY ∨ s.cxlState c = pMAPPED ∨
        s.cxlState c = pUNUSABLE ∨ (s.cxlState c = pTRAINING ∧ ∃ a, (s.cxlPort c).perstAt = some a ∧ a ≤ s.lt) →
      Safety.Next (.cxlLinkDown c) s (fun t => t.cxlState c = pDOWN ∧ Safety.Caused t 58 ∧
        t.fld F.LINK_DOWN_EVENTS 0 c = min (s.fld F.LINK_DOWN_EVENTS 0 c + 1) (2 ^ 32 - 1) ∧
        (s.bst.advance = none → t.cxl = s.cxl) ∧
        ∀ (x : Transition) (n : Nat), s.bst.advance = some x → (c, n) ∈ x.ports → x.failed.contains c = false →
          s.lt < x.start + 40 * ltMs + wipeTime n → ∃ y, t.bst.advance = some y ∧ y.failed.contains c = true)) ∧
    (∀ (s : State) (n : Nat) (d : Word), n < 1024 → Safety.AdmitsTab s → s.bst.tested = [] → s.cxmCol = none →
      (∀ w, w < 11 → Safety.Next (.cxmEntryWrite (64 * n + 4 * w) d) s (fun t =>
        t = { s with cxmCol := some ⟨lineTab n, [(lineTab n + w, d)]⟩ })) ∧
      (let e := (s.lineEntry n).set 15 d.toNat
       (lnRefused e = false → lnValid e = true →
          (lnValid (s.lineEntry n) = true ∧ lnExtent (s.lineEntry n) = lnExtent e) ∨ s.extentOk (lineTab n) (lnExtent e) = true →
          Safety.Next (.cxmEntryWrite (64 * n + 60) d) s (fun t => t.tab (lineTab n + 15) = d.toNat ∧ t.cxmCol = none ∧
            Safety.RegsBut [] s t ∧ Safety.TabsBut ((List.range 16).map (lineTab n + ·)) s t)) ∧
       (lnRefused e = true → Safety.Next (.cxmEntryWrite (64 * n + 60) d) s (fun t =>
          t = s.refuseEntry (atBar2 (0x13420000 + (64 * n + 60))) d.toNat cVALUE))))

/-- Delay-line records: written, read ahead, output. A capture that is written whole stands in the slot at HEAD as R274
lays it out, HEAD moves on, and the capture leaves the write buffer; one whose write fails counts as dropped; a
record is read 20 us before it is due into DMA-pool cells; the oldest record in cells leaves them at its due time,
when its copy is offered to the sub-queue of its egress handle and counts as output, or as dropped where the queue
does not take it. The model's readings in it: log 50 (records without a copy that a queue accepts). (R274, R275) -/
def Obligations.DelayLines : Prop :=
  (∀ (s : State) (n : Nat) (c : Capture) (a : CxlAt) (f : Frame), s.bst.tested = [] →
      s.captures.find? (fun c => c.line = n) = some c → cxlAt (entNum (s.lineEntry n) 2) = some a → s.frame c.fid = some f →
      (s.cxlOk a.port (a.off + lnHead (s.lineEntry n) * lnSlot (s.lineEntry n)) (lnSlot (s.lineEntry n)) = true →
        lnValid (s.lineEntry n) = true → f.octets.length < 2 ^ 16 → 0 < lnSlots (s.lineEntry n) →
        Safety.Next (.delayRecordWritten n true) s (fun t => t.captures = s.captures.erase c ∧
          t.cxlRead a.port (a.off + lnHead (s.lineEntry n) * lnSlot (s.lineEntry n)) (16 + f.octets.length) =
            recordBytes c.arrival f.octets ∧
          lnHead (t.lineEntry n) = (lnHead (s.lineEntry n) + 1) % lnSlots (s.lineEntry n) ∧
          Safety.RegsBut [] s t ∧ t.lt = s.lt)) ∧
      Safety.Next (.delayRecordWritten n false) s (fun t => t.captures = s.captures.erase c ∧ t.cxl = s.cxl ∧
        t.tab (lineTab n + 15) = min (s.tab (lineTab n + 15) + 1) 0xFFFFFFFF ∧
        Safety.TabsBut [lineTab n + 15] s t ∧ t.lt = s.lt)) ∧
    (∀ (s : State) (n x due : Nat) (o : List Byte), s.linesRun = true → (s.line n).left ≠ 0 →
      lnValid (s.lineEntry n) = true → s.recordAt n (s.line n).next = some (x, o) → lnDue (s.lineEntry n) x = some due →
      let u := s.runToNs (due - 20000)
      u.ns ≤ due → u.eshValid (lnEsh (s.lineEntry n)) = true →
      u.dmaRoom (u.eshPort (lnEsh (s.lineEntry n))) (cellsOf (frameLen o)) = true →
      Safety.Next (.delayRecordFetch n) s (fun t =>
        (t.line n).staged = (s.line n).staged ++ [(s.nextId, due)] ∧ (t.line n).left = (s.line n).left - 1 ∧
        (∃ f, t.frame s.nextId = some f ∧ f.octets = o) ∧ t.lt = u.lt ∧ t.tabs = s.tabs ∧
        ∀ c, (t.cxlPort c).mem = (s.cxlPort c).mem)) ∧
    (∀ (s : State) (n fid due : Nat) (r : List (Nat × Nat)), s.phase = .running → s.pwr.state ≠ .standby →
      s.cxmHeld = false → (s.line n).staged = (fid, due) :: r → Safety.Next (.delayRecordDue n) s (fun t =>
        (t.line n).staged = r ∧ t.cxl = s.cxl ∧ (s.frame fid ≠ none → s.ns ≤ due → t.lt = (s.runToNs due).lt))) ∧
    (∀ (s : State) (n fid due : Nat) (r : List (Nat × Nat)) (f : Frame), s.phase = .running → s.pwr.state ≠ .standby →
      s.cxmHeld = false → s.bst.tested = [] → (s.line n).staged = (fid, due) :: r → s.frame fid = some f → s.ns ≤ due →
      let u := s.runToNs due
      let h := lnEsh (s.lineEntry n)
      let c := (u.eshCopy h f f.rtag false (.replay n)).1
      s.isBad rESH h = false → s.eshValid h = true → c.port < s.nPorts → s.dataState c.port = true → s.portHeld c.port = false →
      Safety.Next (.delayRecordDue n) s (fun t =>
        if u.offerVerdict c.port c = .accept then
          t.tab (lineTab n + 14) = min (s.tab (lineTab n + 14) + 1) 0xFFFFFFFF ∧
          ∃ x : Copy, x.fid = f.id ∧ x.origin = .replay n ∧ x.enq = u.lt ∧
            ((t.port c.port).subq (subKey c.tc c.subq)).q = ((s.port c.port).subq (subKey c.tc c.subq)).q ++ [x]
        else t.tab (lineTab n + 15) = min (s.tab (lineTab n + 15) + 1) 0xFFFFFFFF))

/-- The rings of a DMA channel: doorbell, fetch, completion, free slots. A write of DMA_CH_TAIL sets it and wakes a
channel that waits for one, is refused for a value beyond the ring, and is refused on the checkpoint writer's
channel; a fetch takes the descriptor at HEAD, or waits for a completion slot, or counts a descriptor that software
owns; a descriptor that has ended returns OWN, writes its completion record as R280 lays it out, moves HEAD and
CQ_HEAD on, counts, and leaves the channel PAUSED with ERR_PAUSED after an error; a free completion slot lets a
waiting channel fetch. The model's readings in it: log 55 (where a completion lies, a refused table write). (R279,
R280, R283, R289, R291) -/
def Obligations.DmaRings : Prop :=
  (∀ (s : State) (ch v : Nat), ch < 64 → Safety.Admits s 6 →
      (s.ckptOwns ch = false → v % 65536 < s.descCount ch → Safety.Next (.dmaDoorbell ch v) s (fun t =>
        t.fld F.DMA_CH_TAIL 0 ch = v % 65536 ∧ t.chan ch = { s.chan ch with stalled := false } ∧
        Safety.RegsBut [F.DMA_CH_TAIL.key 0 ch] s t ∧ t = { s with regs := t.regs, chans := t.chans })) ∧
      (s.ckptOwns ch = false → s.descCount ch ≤ v % 65536 → Safety.Next (.dmaDoorbell ch v) s (fun t =>
        t = s.refuse (atBar0 (0x60300 + 4 * ch)) v cVALUE)) ∧
      (s.ckptOwns ch = true → Safety.Next (.dmaDoorbell ch v) s (fun t =>
        t = s.refuse (atBar0 (0x60300 + 4 * ch)) v cRULE)) ∧
      (s.ckptOwns ch = false → Safety.Next (.cqSlotFree ch v) s (fun t =>
        t.fld F.DMA_CH_CQ_TAIL 0 ch = v % 2 ^ 16 ∧
        t.chState ch = (if s.chState ch = cWAITCQ ∧ t.cqFull ch = false then cIDLE else s.chState ch) ∧
        Safety.RegsBut [F.DMA_CH_CQ_TAIL.key 0 ch, F.DMA_CH_STATUS.STATE.key 0 ch] s t ∧ t = { s with regs := t.regs }))) ∧
    (∀ (s : State) (ch : Nat), ch < 64 → s.mayFetch ch = true →
      (let i := s.fld F.DMA_CH_HEAD.HEAD 0 ch
       let l := cellsRead s.host.mem (s.descBase ch + 64 * i) 64
       Safety.Next (.descriptorFetch ch) s (fun t => t.host = s.host ∧ t.tabs = s.tabs ∧
         (s.cqFull ch = true → t.chState ch = cWAITCQ ∧ t.chans = s.chans) ∧
         (s.cqFull ch = false → (leNum (slice l 0 4)).testBit 31 = false →
           t.chState ch = cIDLE ∧ (t.chan ch).stalled = true ∧
           t.fld F.DMA_NOT_OWNED = min (s.fld F.DMA_NOT_OWNED + 1) (2 ^ 32 - 1)) ∧
         (s.cqFull ch = false → (leNum (slice l 0 4)).testBit 31 = true →
           t.chState ch = cRUNNING ∧ (t.chan ch).desc = some (descOf i l) ∧ (t.chan ch).done = 0 ∧
           (t.chan ch).status = s.checkDesc ch l (descOf i l))))) ∧
    (∀ (s : State) (ch st : Nat) (ok : Bool) (d : Desc), ch < 64 → s.phase = .running → (s.chan ch).desc = some d →
      (s.chan ch).status = some st → Safety.Next (.descriptorComplete ch ok) s (fun t =>
        let q := s.fld F.DMA_CH_HEAD.CQ_HEAD 0 ch
        cellsRead t.host.mem (s.cqBase ch + 32 * q) 32 =
          recordOf d (s.chan ch) st (s.chan ch).good (s.on F.DMA_CH_CTL.PAUSE 0 ch) s.ns ∧
        t.fld F.DMA_CH_HEAD.HEAD 0 ch = (d.index + 1) % s.descCount ch % 2 ^ 16 ∧
        t.fld F.DMA_CH_HEAD.CQ_HEAD 0 ch = (q + 1) % s.cqCount ch % 2 ^ 16 ∧
        t.fld F.DMA_CH_DONE 0 ch = min (s.fld F.DMA_CH_DONE 0 ch + 1) (2 ^ 32 - 1) ∧
        t.fld F.DMA_CH_STATUS.LAST_STATUS 0 ch = st % 2 ^ 8 ∧ (t.chan ch).desc = none ∧
        (t.chan ch).phase = (if q + 1 = s.cqCount ch then !(s.chan ch).phase else (s.chan ch).phase) ∧
        t.tabs = s.tabs ∧ t.lt = s.lt ∧
        (st ≠ 0 → t.chState ch = cPAUSED ∧ t.on F.DMA_CH_STATUS.ERR_PAUSED 0 ch = true ∧ t.on F.DMA_CH_CTL.PAUSE 0 ch = true) ∧
        (st = 0 → t.chState ch = (if s.on F.DMA_CH_CTL.PAUSE 0 ch then cPAUSED else cIDLE))))

/-- Bursts, failed beats, pausing, resuming and disabling. The channel that runs is ready, and none that is ready has a
higher priority. A burst of FILL or COPY between host addresses writes exactly the bytes of the burst and moves the
descriptor on; a burst of COMPARE against a constant that finds a difference ends with its place; a failed beat ends
the descriptor with BEAT_ERROR and the bytes known good; PAUSE lets a running channel drain and pauses an idle one;
the drained channel shows its position; PAUSE at 0 resumes it; ENABLE at 0 disables an idle or paused channel and is
refused otherwise; a frame that the DMA pool has too few cells for makes its channel wait, and cells in the pool let
a waiting channel go on: nothing else of a later stage holds it (R34, R143). The model's readings in it: log 55
(bursts, COMPARE, a refused table write). (R34, R143, R281, R282, R287, R288, R290, R291) -/
def Obligations.DmaRuns : Prop :=
  (∀ (s : State) (ch : Nat) (d : Desc), s.phase = .running → s.nextChannel = some ch → (s.chan ch).desc = some d →
      d.toFrames = false → s.regionOf (d.dstAt (s.chan ch).done) = some .host →
      (let c := s.chan ch
       let n := d.burst c.done
       let a := d.dstAt c.done
       let fills : Bool := d.op = oFILL
       (d.op ≠ oCOMPARE → fills = true ∨ s.regionOf (d.srcAt c.done) = some .host →
         Safety.Next .dmaBurst s (fun t => t.lastCh = SMap.putD s.lastCh (s.chPrio ch) ch 63 ∧
           t.chan ch = { c with done := c.done + n, good := c.done + n } ∧
           cellsRead t.host.mem a n = (if fills then fillBytes d.fill a n else cellsRead s.host.mem (d.srcAt c.done) n) ∧
           (∀ b, b < a ∨ a + n ≤ b → cellRead t.host.mem b = cellRead s.host.mem b) ∧
           t = { s with lastCh := t.lastCh, chans := t.chans, host := { s.host with mem := t.host.mem } })) ∧
       (d.op = oCOMPARE → d.cmpConst = true → Safety.Next .dmaBurst s (fun t => t.host = s.host ∧ t.tabs = s.tabs ∧
         (cellsRead s.host.mem a n ≠ fillBytes d.fill a n → ∃ k, k < n ∧ (t.chan ch).mismatch = some (c.done + k) ∧
           (t.chan ch).status = some dOK ∧ (cellsRead s.host.mem a n)[k]? ≠ (fillBytes d.fill a n)[k]? ∧
           ∀ j, j < k → (cellsRead s.host.mem a n)[j]? = (fillBytes d.fill a n)[j]?) ∧
         (cellsRead s.host.mem a n = fillBytes d.fill a n →
           t.chan ch = { c with done := c.done + n, good := c.done + n }))))) ∧
    (∀ (s : State) (ch : Nat), s.nextChannel = some ch →
      s.chReady ch = true ∧ ∀ x, x < 64 → s.chReady x = true → s.chPrio x ≤ s.chPrio ch) ∧
    (∀ (s : State), s.phase = .running → s.nextChannel = none → Safety.Next .dmaBurst s (fun t => t = s)) ∧
    (∀ (s : State) (ch : Nat) (d : Desc), ch < 64 → s.chState ch = cRUNNING ∨ s.chState ch = cPAUSING →
      (s.chan ch).desc = some d → (s.chan ch).status = none → Safety.Next (.beatError ch) s (fun t =>
        (t.chan ch).status = some dBEAT ∧ t.regs = s.regs ∧ t.tabs = s.tabs ∧
        (t.chan ch).good = (if (s.chan ch).done < d.total then (s.chan ch).done
          else d.total - lastBeat d.inner (if d.usesSrc then d.srcAt (d.total - 1) else d.dstAt (d.total - 1))))) ∧
    (∀ (s : State) (ch : Nat), ch < 64 → Safety.Admits s 6 → s.ckptOwns ch = false →
      Safety.Next (.dmaPause ch) s (fun t => t.fld F.DMA_CH_CTL.PAUSE 0 ch = 1 ∧
        t.chState ch = (if s.chState ch = cIDLE ∨ s.chState ch = cWAITCQ then cPAUSED
          else if s.chState ch = cRUNNING ∨ s.chState ch = cWAITPOOL then cPAUSING else s.chState ch) ∧
        Safety.RegsBut [F.DMA_CH_CTL.PAUSE.key 0 ch, F.DMA_CH_STATUS.STATE.key 0 ch] s t ∧ t = { s with regs := t.regs }) ∧
      Safety.Next (.dmaResume ch) s (fun t => t.fld F.DMA_CH_CTL.PAUSE 0 ch = 0 ∧ t.fld F.DMA_CH_STATUS.ERR_PAUSED 0 ch = 0 ∧
        t.chState ch = (if s.chState ch = cPAUSED ∨ s.chState ch = cPAUSING then
          (if (s.chan ch).desc.isSome then cRUNNING else cIDLE) else s.chState ch) ∧
        Safety.RegsBut [F.DMA_CH_CTL.PAUSE.key 0 ch, F.DMA_CH_STATUS.STATE.key 0 ch, F.DMA_CH_STATUS.ERR_PAUSED.key 0 ch] s t ∧
        t = { s with regs := t.regs }) ∧
      (s.chState ch = cIDLE ∨ s.chState ch = cPAUSED → Safety.Next (.dmaChannelDisable ch) s (fun t =>
        t.chState ch = cDISABLED ∧ t.fld F.DMA_CH_CTL.ENABLE 0 ch = 0 ∧ (t.chan ch).desc = none ∧
        Safety.RegsBut [F.DMA_CH_CTL.ENABLE.key 0 ch, F.DMA_CH_STATUS.STATE.key 0 ch] s t)) ∧
      (s.chState ch ≠ cIDLE → s.chState ch ≠ cPAUSED →
        Safety.Next (.dmaChannelDisable ch) s (fun t =>
          t = s.refuse (atBar0 (0x60100 + 4 * ch)) (0x100 * s.fld F.DMA_CH_CTL.PAUSE 0 ch) cRULE))) ∧
    (∀ (s : State) (ch : Nat), ch < 64 → s.chState ch = cPAUSING → (s.chan ch).unfinished = true →
      Safety.Next (.dmaPaused ch) s (fun t => t.chState ch = cPAUSED ∧ t.chans = s.chans ∧ t.tabs = s.tabs ∧
        ∃ d, (s.chan ch).desc = some d ∧ t.fld F.DMA_CH_POS_IN 0 ch = d.col (s.chan ch).done % 2 ^ 24 ∧
          t.fld F.DMA_CH_POS_OM.M 0 ch = d.row (s.chan ch).done % d.middle % 2 ^ 16 ∧
          t.fld F.DMA_CH_POS_OM.O 0 ch = d.row (s.chan ch).done / d.middle % 2 ^ 16)) ∧
    (∀ (s : State) (ch : Nat) (d : Desc), ch < 64 → s.chState ch = cWAITPOOL → (s.chan ch).desc = some d →
      s.dmaRoom (s.eshPort (d.dst % 65536)) (cellsOf (d.inner + 4)) = true →
      Safety.Next (.dmaPoolCellsAvailable ch) s (fun t => t.chState ch = cRUNNING ∧
        Safety.RegsBut [F.DMA_CH_STATUS.STATE.key 0 ch] s t ∧ t = { s with regs := t.regs })) ∧
    (∀ (s : State) (ch : Nat) (d : Desc), s.phase = .running → s.nextChannel = some ch → (s.chan ch).desc = some d →
      d.toFrames = true → d.col (s.chan ch).done = 0 → (s.chan ch).building = false → s.op = .operational →
      let p := s.eshPort (d.dst % 65536)
      s.dmaRoom p (cellsOf (d.inner + 4)) = false →
      Safety.Next .dmaBurst s (fun t => t.chState ch = cWAITPOOL ∧ t = { s with regs := t.regs, lastCh := SMap.putD s.lastCh (s.chPrio ch) ch 63 } ∧
        t.fld F.QSH_DMA_POOL_WAIT p = min (s.fld F.QSH_DMA_POOL_WAIT p + 1) (2 ^ 32 - 1) ∧
        Safety.RegsBut [F.DMA_CH_STATUS.STATE.key 0 ch, F.QSH_DMA_POOL_WAIT.key p 0] s t))

/-- The rate, the slews and the steps of network time, replicas and the PPS pins. A write of NTM_INC_INT puts an
increment of R241's range in force, from the next tick or as a slew's base, and is refused for another; a slew is
started with its ticks and ends after them, having added the slew increment in each; GO arms a step for the next
whole microsecond, or is refused; the step leaves the counter at its target, with no slew, counted and reported;
each replica is corrected to within half a nanosecond every microsecond; PPS_OUT rises when network time plus the
offset is a whole second and falls after its width; a PPS_IN pulse of at least 50 ns is counted and captured. The
model's readings in it: logs 4, 5 and 60 (the residuals of the replicas). (R18, R240, R241, R242, R243, R244, R245,
R246) -/
def Obligations.NetworkClock : Prop :=
  (∀ (s : State) (d : Word), Safety.Admits s 4 →
      (let v := d.toNat % 256 * 2 ^ 32 + s.fld F.NTM_INC_FRAC
       (0x00F0000000 ≤ v → v ≤ 0x0110000000 → Safety.Next (.incrementWrite d) s (fun t => t.fld F.NTM_INC_INT = d.toNat % 256 ∧
          Safety.RegsBut [F.NTM_INC_INT.key 0 0] s t ∧ t = { s with regs := t.regs, time := { s.time with
            inc := v
            oldInc := if s.lt < s.time.oldUntil then s.time.oldInc else s.time.inc
            oldUntil := if 0 < s.time.slewLeft then 0 else (s.lt / ltNs + 1) * ltNs } })) ∧
       (v < 0x00F0000000 ∨ 0x0110000000 < v → Safety.Next (.incrementWrite d) s (fun t =>
          t = s.refuse (atBar0 0x4000C) d.toNat cVALUE))) ∧
      Safety.Next (.slewStart d) s (fun t => t.slewCount = d.toNat ∧
        t = { s with time := { s.time with slewLeft := t.time.slewLeft, past := t.time.past } })) ∧
    (∀ s : State, Safety.Next .slewEnd s (fun t => t.time.slewLeft = 0 ∧ t.lt = s.lt + s.time.slewLeft ∧
      t.time.nt = (s.time.nt +
        (if s.time.slewLeft = 0 then 0 else (s.time.rest + s.time.slewLeft * s.time.tempInc) / 1600)) % ntMod ∧ t.time.inc = s.time.inc ∧
      t = { s with lt := t.lt, time := t.time, con := t.con })) ∧
    (∀ (s : State) (m : Nat), Safety.Admits s 4 →
      (s.time.step = none → s.fld F.NTM_STEP_NS ≤ 999999999 → Safety.Next (.stepGo m) s (fun t =>
        t = { s with time := { s.time with step := some ⟨(s.ns / 1000 + 1) * 1000, m % 2,
          s.fld F.NTM_STEP_SH * 2 ^ 32 + s.fld F.NTM_STEP_SL, s.fld F.NTM_STEP_NS⟩ } })) ∧
      (s.time.step = none → 999999999 < s.fld F.NTM_STEP_NS → Safety.Next (.stepGo m) s (fun t =>
        t = s.refuse (atBar0 0x4001C) (m % 2 * 2 + 1) cVALUE)) ∧
      (s.time.step.isSome = true → Safety.Next (.stepGo m) s (fun t =>
        t = s.refuse (atBar0 0x4001C) (m % 2 * 2 + 1) cRULE))) ∧
    (∀ (s : State) (w : StepWait) (ups : List Nat), s.time.step = some w → Safety.Next (.networkTimeStep ups) s (fun t =>
      t.ns = ((if w.mode = 0 then w.at' else 0) + w.secs * 1000000000 + w.ns) % (2 ^ 48 * 1000000000) ∧
      t.time.nt % 2 ^ 32 = 0 ∧ t.time.slewLeft = 0 ∧ t.time.step = none ∧ Safety.Caused t 33 ∧ t.lt = (s.runToNs w.at').lt ∧
      t.fld F.NTM_STEP_COUNT = min (s.fld F.NTM_STEP_COUNT + 1) (2 ^ 32 - 1) ∧ t.mix.batches = [])) ∧
    (∀ s : State, s.phase = .running → Safety.Next .replicaCorrection s (fun t =>
      t.lt = (s.lt / ltUs + 1) * ltUs ∧ t.regs = s.regs ∧ t.tabs = s.tabs ∧
      ∀ p, p < s.nPorts → (t.port p).replica.natAbs ≤ 2 ^ 31 ∧ (t.port p).ringReplica.natAbs ≤ 2 ^ 31 ∧
        (s.joined = false → (t.port p).ringReplica = 0) ∧ (t.port p).ctrl = (s.port p).ctrl)) ∧
    (∀ s : State, s.on F.NTM_CTL.PPS_OUT_EN = true → s.phase = .running → s.ppsNext < 2 ^ 48 * 1000000000 → Safety.Next .ppsOutEdge s (fun t =>
      t.ppsOut = true ∧ s.ns < t.ns ∧ ((t.ns : Int) + t.fldS F.NTM_PPS_OFFSET) % 1000000000 = 0 ∧
      t.time.ppsFall = some (t.lt + s.fld F.NTM_PPS * ltMs) ∧ t.regs = s.regs ∧ t.tabs = s.tabs)) ∧
    (∀ (s : State) (x : Nat), s.time.ppsFall = some x → Safety.Next .ppsOutFall s (fun t =>
      t.ppsOut = false ∧ t.lt = max s.lt x ∧ t.regs = s.regs ∧ t.tabs = s.tabs)) ∧
    (∀ (s : State) (h : Nat), s.on F.NTM_CTL.PPS_IN_EN = true → s.phase = .running →
      (50 ≤ h → Safety.Next (.ppsInEdge h) s (fun t => t.time.ppsInTime = s.time.nt / 2 ^ 16 ∧ t.time.ppsInNew = true ∧
        t.fld F.NTM_PPS_IN_EDGES = min (s.fld F.NTM_PPS_IN_EDGES + 1) (2 ^ 32 - 1) ∧
        (s.time.ppsInNew = true → t.fld F.NTM_PPS_IN_OVERRUN = min (s.fld F.NTM_PPS_IN_OVERRUN + 1) (2 ^ 32 - 1)) ∧
        Safety.RegsBut [F.NTM_PPS_IN_EDGES.key 0 0, F.NTM_PPS_IN_OVERRUN.key 0 0] s t)) ∧
      (h < 50 → Safety.Next (.ppsInEdge h) s (fun t => t = s)))

/-- PTP messages received and sent. A received PTP message is discarded and counted while PTP is disabled, and goes to
the host ring when it is of another domain or of no kind that the device handles; a Sync on the slave port forms an
offset, or waits for its Follow_Up; the loss of Syncs, or that none has come, shows in SYNC_TIMEOUT and ends SYNCED
but of a grandmaster; a Sync and a Pdelay_Req are queued at their instants, a Pdelay_Req is answered, a response
completes the exchange and its mean delay, an exchange without one ends after 10 ms, and a delay that nothing renews
becomes STALE. The model's readings in it: logs 16, 56 and 73 (places of fields, whose messages are taken, the rate
ratio that is used). (R251, R252, R253, R254, R255, R256, R257, R258) -/
def Obligations.PtpTraffic : Prop :=
  (∀ (s : State) (p k : Nat) (l : List Byte), p < s.nPorts → s.ptpAt p l = some k →
      (s.macRx p l true s.rxControl).1 = true →
      (let u := (s.macRx p l true s.rxControl).2
       let rx := u.rxStamp p (u.rxPoint p l)
       let size := 2 ^ u.fld F.NTM_RX_SIZE
       let head := u.fld F.NTM_RX_HEAD
       let other : Bool := ptpDomainAt l k ≠ s.ptpDomain
       let kind := if other then 4 else if ptpType l k < 8 then 3 else 1
       (s.on F.NTM_CTL.ENABLE = false → ∀ c ∈ [Instr.ptpMessageRx p l, .syncRx p l, .pdelayReqRx p l, .pdelayRespRx p l],
          Safety.Next c s (fun t => t = u.bump F.PTP_DISCARD p)) ∧
       (s.on F.NTM_CTL.ENABLE = true →
          other = true ∨ (ptpType l k ≠ 2 ∧ ptpType l k ≠ 3 ∧ ptpType l k ≠ 10 ∧
            ((ptpType l k ≠ 0 ∧ ptpType l k ≠ 8) ∨ s.slavePort p = false)) →
          ((head + 1) % size = u.fld F.NTM_RX_TAIL % size → Safety.Next (.ptpMessageRx p l) s (fun t => t = u.bump F.NTM_RX_DROP)) ∧
          ((head + 1) % size ≠ u.fld F.NTM_RX_TAIL % size → Safety.Next (.ptpMessageRx p l) s (fun t =>
            t.fld F.NTM_RX_HEAD = (head + 1) % size % 2 ^ 16 ∧
            t.fld F.PTP_TO_HOST p = min (u.fld F.PTP_TO_HOST p + 1) (2 ^ 32 - 1) ∧
            cellsRead t.host.mem (u.fld F.NTM_RX_BASE_L * 4096 + 2 ^ 32 * u.fld F.NTM_RX_BASE_H + 128 * head) 2 =
              [BitVec.ofNat 8 p, BitVec.ofNat 8 kind] ∧ t.tabs = s.tabs ∧ t.lt = s.lt))) ∧
       (s.on F.NTM_CTL.ENABLE = true → other = false → s.slavePort p = true → ptpType l k = 0 →
          (ptpTwoStep l k = true → Safety.Next (.syncRx p l) s (fun t =>
            t.time.twoStep = some ⟨ptpSeq l k, rx, ptpCorr l k, s.lt, u.sideOf p (u.rxPoint p l)⟩ ∧
            t.time.lastSync = some s.lt ∧ t.fld F.NTM_STATUS.SYNC_TIMEOUT = 0)) ∧
          (ptpTwoStep l k = false → Safety.Next (.syncRx p l) s (fun t =>
            t.time.offsets = ((rx - (ptpTimeAt l (k + 34) + ptpCorr l k + u.meanDelay p + u.fldS F.TSU_ASYM p)) ::
              s.time.offsets).take 8 ∧ t.time.lastSync = some s.lt ∧ t.fld F.NTM_STATUS.SYNC_TIMEOUT = 0))) ∧
       (s.on F.NTM_CTL.ENABLE = true → other = false → s.on F.TSU_CTL.PDELAY_EN p = true →
          (∀ f, ptpType l k = 2 → u.controlMay = true → u.on F.QSH_CTL.ENABLE p = true → u.on F.PRT_STATUS.LINK_UP p = true →
            u.pdelayFrame p 3 true (-((stampSub rx : Nat) : Int)) (ptpSeq l k) (ptpTime rx ++ ptpSource l k) = some f →
            u.overlong p f = false → (u.controlFrame p kPDRESP f).isSome = true → Safety.Next (.pdelayReqRx p l) s (fun t => ∃ c : Copy,
              c.origin = .control kPDRESP ∧ (t.port p).ctrl = (u.port p).ctrl ++ [c] ∧ t.octetsOf c = padded f)) ∧
          (∀ o, (u.port p).tsu.pdOpen = some o → o.seq = ptpSeq l k →
            (ptpType l k = 3 → ptpTwoStep l k = true → Safety.Next (.pdelayRespRx p l) s (fun t =>
              (t.port p).tsu.pdOpen = some { o with t2 := some (respT2 l k), t4 := some rx, side4 := u.sideOf p (u.rxPoint p l) })) ∧
            (∀ t1 t2 t4, ptpType l k = 10 → o.t1 = some t1 → o.t2 = some t2 → o.t4 = some t4 → o.side = o.side4 →
              Safety.Next (.pdelayRespRx p l) s (fun t =>
                let t3 := ptpTimeAt l (k + 34) + ptpCorr l k
                let nrr := nrrOf (((⟨t1, t2, t3, t4⟩ :: (u.port p).tsu.pdHist).take 9).map (fun x => (x.t3, x.t4)))
                (t.port p).tsu.pdOpen = none ∧ t.fld F.TSU_STATUS.DELAY_VALID p = 1 ∧
                (t.port p).tsu.pdMeans = ((((t4 - t1) * ((2 ^ 32 : Nat) + nrr)).fdiv (2 ^ 32 : Nat) - (t3 - t2)).fdiv 2 ::
                  (u.port p).tsu.pdMeans).take 8 ∧ (t.port p).tsu.pdLast = s.lt)))))) ∧
    (∀ (s : State) (p : Nat) (l : List Byte), p < s.nPorts → s.phase = .running → s.on F.NTM_CTL.ENABLE = true →
      s.controlMay = true → s.on F.QSH_CTL.ENABLE p = true → s.on F.PRT_STATUS.LINK_UP p = true →
      (let u := s.runToNs (s.nextMultiple (logNs (s.fldS F.NTM_PTP.SYNC_LOG)) (2000 * p))
       s.fld F.TSU_CTL.PTP_ROLE p = 1 → s.slavePort p = false → s.template p = some l →
       (∀ c ∈ (s.port p).ctrl, c.origin ≠ .control kSYNC) → s.overlong p l = false → (u.controlFrame p kSYNC l).isSome = true →
       Safety.Next (.syncTx p) s (fun t => t.lt = u.lt ∧
         ∃ c : Copy, c.origin = .control kSYNC ∧ (t.port p).ctrl = (s.port p).ctrl ++ [c] ∧ t.octetsOf c = padded l)) ∧
      (let u := s.runToNs (s.nextMultiple (logNs (s.fldS F.TSU_CTL.PDELAY_LOG p)) 0)
       let seq := ((s.port p).tsu.pdSeq + 1) % 65536
       s.on F.TSU_CTL.PDELAY_EN p = true → u.pdelayFrame p 2 false 0 seq (List.replicate 20 0) = some l →
       s.overlong p l = false → (u.controlFrame p kPDREQ l).isSome = true → Safety.Next (.pdelayReqTx p) s (fun t => t.lt = u.lt ∧
         (t.port p).tsu.pdOpen = some ⟨seq, u.lt + 10 * ltMs, none, none, none, (s.port p).tsu.side, (s.port p).tsu.side⟩ ∧
         ∃ c : Copy, c.origin = .control kPDREQ ∧ (t.port p).ctrl = (s.port p).ctrl ++ [c] ∧ t.octetsOf c = padded l))) ∧
    (∀ s : State, s.on F.NTM_STATUS.SYNC_TIMEOUT = false → s.phase = .running →
      Safety.Next .syncTimeout s (fun t => t.fld F.NTM_STATUS.SYNC_TIMEOUT = 1 ∧
        t.lt = max s.lt (s.time.lastSync.getD s.time.syncFrom + s.fld F.NTM_SYNC.TIMEOUT * ltMs) ∧
        t.fld F.NTM_STATUS.SYNCED = (if s.fld F.NTM_CTL.ROLE = 2 then (s.on F.NTM_CTL.GM_SYNCED).toNat else 0) ∧
        (s.on F.NTM_STATUS.SYNCED = true → s.fld F.NTM_CTL.ROLE ≠ 2 → Safety.Caused t 34))) ∧
    (∀ (s : State) (p : Nat) (o : PdOpen), p < s.nPorts → (s.port p).tsu.pdOpen = some o →
      Safety.Next (.pdelayTimeout p) s (fun t => (t.port p).tsu.pdOpen = none ∧ t.lt = max s.lt o.until' ∧
        t.fld F.PDELAY_LOST p = min (s.fld F.PDELAY_LOST p + 1) (2 ^ 32 - 1) ∧ t.tabs = s.tabs)) ∧
    (∀ (s : State) (p : Nat), p < s.nPorts → s.on F.TSU_STATUS.DELAY_VALID p = true → s.on F.TSU_STATUS.STALE p = false →
      Safety.Next (.delayStale p) s (fun t => t.fld F.TSU_STATUS.STALE p = 1 ∧ Safety.Caused t 35 ∧ t.tabs = s.tabs ∧
        t.lt = max s.lt ((if s.probeSource p then (s.port p).tsu.prLast else (s.port p).tsu.pdLast) + s.staleAfter p)))

/-- Probes and live calibration. PROBE_TX sends a probe with the next sequence number at its instant, and keeps the
residual for its stamp; a received probe less than 1 us after the previous one is rejected, and any other is stamped
at the pin; CAL_START sets both calibrations to zero and starts the convergence again while the port probes, and
answers WRONG_STATE while it does not; CAL_RESULT answers with the calibration and has no other effect. The model's
readings in it: logs 30 and 73 (the residual of a probe, the cable length). (R259, R260, R262, R263, R314) -/
def Obligations.ProbesAndCalibration : Prop :=
  (∀ (s : State) (p : Nat) (r : Int), p < s.nPorts → s.phase = .running → s.probesAllowed p = true → s.controlMay = true →
      s.on F.QSH_CTL.ENABLE p = true → s.on F.PRT_STATUS.LINK_UP p = true → (s.island (p / 4)).ctrlUsed < 512 →
      64 ≤ s.fld F.PRT_MAXLEN.MAXLEN p → Safety.Next (.probeTx p r) s (fun t => t.lt = (s.runToNs (s.probeDue p)).lt ∧
        (t.port p).tsu.prSeq = ((s.port p).tsu.prSeq + 1) % 65536 ∧ (t.port p).tsu.prResid = r ∧ t.tabs = s.tabs ∧
        ∃ c : Copy, c.origin = .control kPROBE ∧ (c ∈ (t.port p).due ∨ c ∈ (t.port p).ctrl) ∧
          oct2 (t.octetsOf c) 16 = ((s.port p).tsu.prSeq + 1) % 65536)) ∧
    (∀ (s : State) (p : Nat) (l : List Byte) (r : Int), p < s.nPorts → s.isProbeFrame p l = true →
      (s.macRx p l true s.rxControl).1 = true →
      (let u := (s.macRx p l true s.rxControl).2
       (∀ x, (s.port p).tsu.prLastRx = some x → s.lt < x + ltUs → Safety.Next (.probeRx p l r) s (fun t =>
          t.fld F.PROBE_RX p = min (u.fld F.PROBE_RX p + 1) (2 ^ 32 - 1) ∧
          t.fld F.PROBE_REJECT p = min (u.fld F.PROBE_REJECT p + 1) (2 ^ 32 - 1) ∧ (t.port p).tsu.prLastRx = some s.lt ∧
          (t.port p).tsu.prGot = (s.port p).tsu.prGot ∧ t.lt = s.lt)) ∧
       ((∀ x, (s.port p).tsu.prLastRx = some x → x + ltUs ≤ s.lt) → Safety.Next (.probeRx p l r) s (fun t =>
          t.fld F.PROBE_RX p = min (u.fld F.PROBE_RX p + 1) (2 ^ 32 - 1) ∧ (t.port p).tsu.prLastRx = some s.lt ∧
          (t.port p).tsu.prGot = (⟨oct2 l 16, u.rxPlain p (u.rxPoint p l) + r, u.sideOf p (u.rxPoint p l)⟩ ::
            (s.port p).tsu.prGot).take 64 ∧ t.lt = s.lt)))) ∧
    (∀ (s : State) (c : Cmd), Safety.Executes s 0xA0 c →
      (s.probesAllowed (bitsOf (c.word 1) 5 0) = true → Safety.Next .calStart s (fun t => Safety.Answers t c xOK 0 [] ∧
        t.fld F.TSU_TX_CAL (bitsOf (c.word 1) 5 0) = 0 ∧ t.fld F.TSU_RX_CAL (bitsOf (c.word 1) 5 0) = 0 ∧
        t.fld F.TSU_STATUS.CAL_CONVERGED (bitsOf (c.word 1) 5 0) = 0 ∧ (t.port (bitsOf (c.word 1) 5 0)).tsu.prAccepted = 0)) ∧
      (s.probesAllowed (bitsOf (c.word 1) 5 0) = false → Safety.Next .calStart s (fun t =>
        Safety.AnswersOnly s t c xWRONGSTATE 7 []))) ∧
    (∀ (s : State) (c : Cmd), Safety.Executes s 0xA1 c → Safety.Next .calResult s (fun t =>
      let p := bitsOf (c.word 1) 5 0
      Safety.AnswersOnly s t c xOK 0 [s.fld F.TSU_LINK_DELAY p, s.fld F.TSU_NRR p, s.fld F.TSU_TX_CAL p, s.fld F.TSU_RX_CAL p,
        s.fld F.TSU_STATUS.CAL_CONVERGED p + s.fld F.TSU_STATUS.SOURCE p * 2 + s.fld F.TSU_STATUS.STALE p * 4 +
          s.fld F.TSU_STATUS.DELAY_VALID p * 8 + min (s.port p).tsu.prAccepted 0xFFFF * 2 ^ 16,
        s.fld F.TSU_CABLE.LENGTH_DM p]))

/-- ALIVE, ROLE_ACTIVE and CHECKPOINT_CONFIG. ALIVE changes level every 500 ns while the conditions of R345 hold and not
otherwise; a missing heartbeat stops it and idles the ports; a rise of ROLE_ACTIVE in RECOVERY starts the takeover
and writes the claim; a fall in OPERATIONAL captures once more and enters RECOVERY, and a fall during a takeover
abandons it; a pulse shorter than 100 ns is ignored, and where an S3 or a reset of the same cycle comes first the
level alone is left; a level has no further effect while the pair is disabled; CHECKPOINT_CONFIG places the region
on the mirror port and enables the pair, is refused where R351 says, and disables it. The model's readings in it:
logs 38 and 57 (the heartbeat, the level of ROLE_ACTIVE). (R33, R345, R346, R347, R350, R351, R356, R358, R359) -/
def Obligations.PairLevels : Prop :=
  (∀ (s : State), s.pair.hung = false →
      (s.aliveOk = true → Safety.Next .aliveToggle s (fun t =>
        let at' := s.pair.aliveNext.getD (s.lt + 500 * ltNs)
        t.pair.alive = !s.pair.alive ∧ t.pair.aliveNext = some (at' + 500 * ltNs) ∧ t.lt = max s.lt at' ∧ t.regs = s.regs)) ∧
      (s.aliveOk = false → Safety.Next .aliveToggle s (fun t =>
        t = { s with pair := { s.pair with aliveNext := none } }))) ∧
    (∀ (s : State), s.aliveOk = true → Safety.Next .aliveStopIdle s (fun t =>
      t = { s with pair := { s.pair with forcedIdle := true, hung := true, aliveNext := none } })) ∧
    (∀ (s : State) (n : Nat), n < 100 →
      Safety.Next (.roleActiveRise n) s (fun t => t = s) ∧ Safety.Next (.roleActiveFall n) s (fun t => t = s)) ∧
    (∀ (s : State) (n : Nat), 100 ≤ n → s.resetAhead = true → s.pwr.setAfter = none →
      Safety.Next (.roleActiveRise n) s (fun t => t = { s with pair := { s.pair with roleLevel := true } }) ∧
      Safety.Next (.roleActiveFall n) s (fun t => t = { s with pair := { s.pair with roleLevel := false } })) ∧
    (∀ (s : State) (n : Nat), s.pairOn = true → s.op = .recovery → s.pair.takeover = none → s.pwr.warmRun = none →
      s.pair.hung = false → s.pwr.setAfter = none → 100 ≤ n → s.resetAhead = false →
      Safety.Next (.roleActiveRise n) s (fun t =>
        t.pair = { s.pair with roleLevel := true, takeover := some ⟨s.ns, s.lt, [], false⟩ } ∧
        (s.cxlOk s.ckptPort s.claimAddr 4 = true → t.claim = some (2 ^ 31 + s.unit)) ∧ t.regs = s.regs ∧ t.tabs = s.tabs)) ∧
    (∀ (s : State) (n : Nat), s.pairOn = false → s.pwr.setAfter = none → 100 ≤ n →
      Safety.Next (.roleActiveRise n) s (fun t => t = { s with pair := { s.pair with roleLevel := true } }) ∧
      Safety.Next (.roleActiveFall n) s (fun t => t = { s with pair := { s.pair with roleLevel := false } })) ∧
    (∀ (s : State) (n : Nat), s.pairOn = true → s.pair.hung = false → s.pwr.setAfter = none → 100 ≤ n → s.resetAhead = false →
      (∀ cl, s.op = .operational → s.claim = some cl → (cl.testBit 31 = false ∨ cl % 2 = s.unit) → s.regionUp = true →
        Safety.Next (.roleActiveFall n) s (fun t => t.op = .recovery ∧ t.pair.roleLevel = false ∧
          t.pair.writing = some ⟨1 - s.fld F.PAIR_STATUS.LAST_SLOT, true, s.ns, s.captureAt s.ns⟩ ∧ t.regs = s.regs)) ∧
      (s.op ≠ .operational → s.pair.takeover.isSome = true → Safety.Next (.roleActiveFall n) s (fun t =>
        t.pair.takeover = none ∧ t.fld F.PAIR_STATUS.LAST_OUTCOME = 4 ∧ t.op = s.op ∧ t.cxl = s.cxl))) ∧
    (∀ (s : State) (c : Cmd), Safety.Executes s 0x50 c →
      (c.word 1 % 2 = 0 → Safety.Next .checkpointConfig s (fun t => Safety.Answers t c xOK 0 [t.ckptWord] ∧
        t.pairOn = false ∧ t.on F.DMA_CTL.CKPT_D63 = false ∧ t.pair.takeover = none ∧ t.pair.writing = none ∧
        t.cxl = s.cxl ∧ t.op = s.op)) ∧
      (c.word 1 % 2 = 1 → s.ckptBad (bitsOf (c.word 2) 24 0) = true →
        Safety.Next .checkpointConfig s (fun t => Safety.AnswersOnly s t c xBADARG 7 [s.ckptWord])) ∧
      (c.word 1 % 2 = 1 → s.ckptBad (bitsOf (c.word 2) 24 0) = false → s.pair.roleLevel = false →
        Safety.Next .checkpointConfig s (fun t => Safety.Answers t c xOK 0 [t.ckptWord] ∧
          t.pairOn = true ∧ t.ckptOwns 63 = true ∧ t.cxl = s.cxl ∧ t.op = s.op ∧
          t.ckptExtent = some ⟨s.mirrorPort, 4096 * bitsOf (c.word 2) 24 0, ckptSize⟩)))

/-- Checkpoints and the takeover. A capture takes the state at its instant for the slot other than the last written, is
skipped during a write, and finds the unit fenced where CLAIM names the other; a write that succeeds stands in the
slot under a valid header with the next SEQ, and one that fails is counted and raised; the headers read give the
usable slots, the higher SEQ first; a body that passes its CRC is applied and the unit is OPERATIONAL with its SEQ,
one that fails gives way to the next; without a body the unit goes on with its own state at 15 us; a bank that it
never committed is then placed. A level that has fallen ends the sequence at the end of the step, and in a hang no
step goes on. The model's readings in it: logs 11 and 57 (delays given as bounds, the writes of a capture). (R346,
R352, R353, R354, R355, R356, R357, R358) -/
def Obligations.CheckpointsAndTakeover : Prop :=
  (∀ (s : State), s.pairOn = true → s.op = .operational → s.phase = .running →
      (s.pair.writing.isSome = true → Safety.Next .checkpointCapture s (fun t => t.cxl = s.cxl ∧ t.pair = s.pair ∧
        t.lt = (s.runToNs s.nextCapture).lt ∧ t.fld F.CKPT_SKIPPED = min (s.fld F.CKPT_SKIPPED + 1) (2 ^ 32 - 1))) ∧
      (∀ cl, s.pair.writing = none → s.claim = some cl → cl.testBit 31 = false ∨ cl % 2 = s.unit → s.regionUp = true →
        Safety.Next .checkpointCapture s (fun t =>
          let u := s.runToNs s.nextCapture
          t.pair.writing = some ⟨1 - s.fld F.PAIR_STATUS.LAST_SLOT, false, u.ns, u.captureAt u.ns⟩ ∧ t.lt = u.lt ∧
          t.regs = s.regs ∧ t.tabs = s.tabs)) ∧
      (∀ cl, s.pair.writing = none → s.claim = some cl → cl.testBit 31 = true → cl % 2 ≠ s.unit → Safety.sources s = true →
        Safety.Next .checkpointCapture s (fun t => Safety.Caused t 65 ∧ t.cxl = s.cxl ∧ t.pair.writing = none ∧
          (s.s3MustWait = false → t.op = .safe)))) ∧
    (∀ (s : State) (w : CkptWrite), s.pair.writing = some w → s.mayWrite w = true →
      (s.regionUp = true → Safety.Next (.checkpointWriteDone true) s (fun t =>
        t.fld F.PAIR_SEQ.SEQ = (s.fld F.PAIR_SEQ.SEQ + 1) % 2 ^ 32 ∧ t.fld F.PAIR_STATUS.LAST_SLOT = w.slot % 2 ∧
        t.fld F.CKPT_WRITTEN = min (s.fld F.CKPT_WRITTEN + 1) (2 ^ 32 - 1) ∧ t.pair.writing = none ∧
        t.cxlRead s.ckptPort (s.slotAddr w.slot) 252 = s.ckptHead w true (crc32 (t.slotBody w.slot)) ∧ t.tabs = s.tabs)) ∧
      Safety.Next (.checkpointWriteDone false) s (fun t => t.cxl = s.cxl ∧ t.pair.writing = none ∧ Safety.Caused t 64 ∧
        t.fld F.CKPT_WRITE_FAIL = min (s.fld F.CKPT_WRITE_FAIL + 1) (2 ^ 32 - 1) ∧ t.fld F.PAIR_SEQ.SEQ = s.fld F.PAIR_SEQ.SEQ)) ∧
    (∀ (s : State) (x : Takeover), s.pair.takeover = some x → ∀ c ∈ [Instr.takeoverHeadersRead, .takeoverBodyLoaded, .takeoverTimeout],
      (s.pair.hung = true → Safety.Next c s (fun t => t = s)) ∧
      (s.pair.hung = false → s.pair.roleLevel = false → Safety.Next c s (fun t => t.pair.takeover = none ∧ t.op = s.op ∧
        t.fld F.PAIR_STATUS.LAST_OUTCOME = 4 ∧ t.cxl = s.cxl ∧ t.tabs = s.tabs))) ∧
    (∀ (s : State) (x : Takeover), s.pair.takeover = some x → s.pair.hung = false → s.pair.roleLevel = true →
      Safety.Next .takeoverHeadersRead s (fun t =>
        (∀ k, k ∈ s.usableSlots x.nt ↔ k < 2 ∧ s.usable x.nt k = true) ∧
        let a := s.countRead s.ckptPort (s.slotAddr 0) 256
        let u := a.countRead a.ckptPort (a.slotAddr 1) 256
        t = { u with pair := { u.pair with takeover := some { x with slots := s.usableSlots x.nt
                                                                     found := decide (s.usableSlots x.nt ≠ []) } } }) ∧
      (∀ k r, x.slots = k :: r → s.lt ≤ x.since + 14 * ltUs →
        (s.bodyOk k = true → Safety.Next .takeoverBodyLoaded s (fun t => t.op = .operational ∧ t.pair.takeover = none ∧
          t.fld F.PAIR_STATUS.LAST_OUTCOME = 1 ∧ t.fld F.PAIR_STATUS.LAST_SLOT = k % 2 ∧
          t.fld F.PAIR_SEQ.SEQ = leNum (slice (s.cxlRead s.ckptPort (s.slotAddr k) 256) 12 4) ∧
          t.pair.takeovers = s.pair.takeovers + 1)) ∧
        (s.bodyOk k = false → Safety.Next .takeoverBodyLoaded s (fun t =>
          let u := s.countRead s.ckptPort (s.slotAddr k) slotSize
          t = { u with pair := { u.pair with takeover := some { x with slots := r } } }))) ∧
      (Safety.sources s = true → Safety.Next .takeoverTimeout s (fun t => t.op = .operational ∧ t.pair.takeover = none ∧
        t.lt = max s.lt (x.since + 15 * ltUs) ∧ t.fld F.PAIR_STATUS.LAST_OUTCOME = (if x.found then 3 else 2) ∧
        t.fld F.TAKEOVER_NO_CKPT = min (s.fld F.TAKEOVER_NO_CKPT + 1) (2 ^ 32 - 1) ∧ Safety.Caused t 67))) ∧
    (∀ (s : State), s.pair.placing = true → s.op = .operational → s.phase = .running →
      (∀ p, s.commitCheck s.operBank s.ns = (none, p) → Safety.Next .takeoverPlacementDone s (fun t =>
        t.pair.placing = false ∧ SMap.look t.mix.placed s.operBank = some p ∧ t.mix.unplaced = false ∧ t.lt = s.lt)) ∧
      (∀ e p, s.commitCheck s.operBank s.ns = (some e, p) → Safety.Next .takeoverPlacementDone s (fun t =>
        t = { s with pair := { s.pair with placing := false } })))

/-- Membership, sync frames, cold start and integration. RING_JOIN enters LISTEN, or is refused for a node that is
joined or not enabled and for ring ports that it may not use; RING_LEAVE parks until the end of the cycle, from
which the node is not joined; a sync frame is sent in the node's slot in the states that send one; a received one is
discarded as foreign, as the node's own or as a copy, holds a node that meets its own ID, makes a coldstarting node
yield to a lower precedence, and is sent on with HOPS incremented; a cold start begins after LISTEN cycles and fails
without an answer; a collection ends with ring time taken from its frame of lowest precedence; 8 silent cycles
return an ACTIVE node to LISTEN. The model's readings in it: logs 29, 53 and 73 (the cycle number, the keys of
frames seen, a foreign beacon). (R204, R206, R211, R212, R220, R221, R222, R223, R224) -/
def Obligations.RingMembership : Prop :=
  (∀ (s : State) (c : Cmd), Safety.Executes s 0x40 c →
      (s.joined = true ∨ s.on F.CON_CTL.ENABLE = false →
        Safety.Next .ringJoin s (fun t => Safety.AnswersOnly s t c xWRONGSTATE 7 [])) ∧
      (s.joined = false → s.on F.CON_CTL.ENABLE = true → s.ringPortsBad = true →
        Safety.Next .ringJoin s (fun t => Safety.AnswersOnly s t c xBADARG 7 [])) ∧
      (s.joined = false → s.on F.CON_CTL.ENABLE = true → s.ringPortsBad = false →
        Safety.Next .ringJoin s (fun t => Safety.Answers t c xOK 0 [] ∧ t.joined = true ∧ t.ringState = rLISTEN ∧
          t.isManager = false ∧ t.con.nonce < 65536 ∧ t.con.dupHold = false ∧ t.con.listenFrom = s.nextCycle ∧
          t.ports = s.ports ∧ t.tabs = s.tabs))) ∧
    (∀ (s : State) (c : Cmd), Safety.Executes s 0x41 c →
      (s.joined = false → Safety.Next .ringLeave s (fun t => Safety.AnswersOnly s t c xWRONGSTATE 7 [])) ∧
      (s.joined = true → Safety.Next .ringLeave s (fun t => Safety.Parks s t c ∧ t.con.leaving = true ∧ t.joined = true ∧
        t.con = { s.con with leaving := true }))) ∧
    (∀ s : State, s.con.leaving = true → Safety.sources s = true → Safety.Next .ringLeaveDone s (fun t =>
      t.joined = false ∧ t.ringState = 0 ∧ t.isManager = false ∧ (∀ k, t.sendsSync k = false) ∧ t.adds = false ∧
      t.con.leaving = false ∧
      t.lt = (s.runToRingNs ((max s.con.cycle (s.ringNs s.lt / s.ringCycle) + 1) * s.ringCycle)).lt ∧ t.ports = s.ports ∧
      (∀ c ∈ t.host.parked, c.opcode ≠ 0x41) ∧
      ((s.host.parked.filter (fun c => c.opcode = 0x41)).Pairwise (fun c d => c.src ≠ d.src) →
        ∀ c ∈ s.host.parked, c.opcode = 0x41 → Safety.Replies t c xOK 0 []))) ∧
    (∀ s : State, s.con.leaving = false → Safety.Next .ringLeaveDone s (fun t => t = s)) ∧
    (∀ s : State,
      (let k := s.slotCycle
       let l := s.syncFrame k
       (s.con.cycle ≤ k ∧ k ≤ s.con.cycle + 1) ∧
       (s.sendsSync k = false → Safety.Next .syncFrameTx s (fun t => t = s)) ∧
       (s.sendsSync k = true → s.con.slotDone ≠ some k → s.portE < s.nPorts → s.controlMay = true →
         s.portHeld s.portE = false → s.on F.PRT_STATUS.LINK_UP s.portE = true → s.overlong s.portE l = false →
         (s.controlFrame s.portE kCONCORD l).isSome = true → Safety.Next .syncFrameTx s (fun t =>
           l.length = 78 ∧ conType l = 1 ∧ octN l 26 4 = k % 2 ^ 32 ∧ t.regs = s.regs ∧
           t.lt = (s.runToRing (s.slotBegin k)).lt ∧ t.con.slotDone = some k ∧
           ∃ c : Copy, c.origin = .control kCONCORD ∧ (t.port s.portE).due = (s.port s.portE).due ++ [c] ∧
             t.octetsOf c = padded l)))) ∧
    (∀ (s : State) (e : Bool) (l : List Byte), s.on F.CON_CTL.ENABLE = true →
      (s.op.service = true → s.ringHeld = true → Safety.Next (.syncFrameRx e l) s (fun t => t = s.xingDiscard islRing)) ∧
      (s.op.service = false → s.ringIn e < s.nPorts →
        Safety.Next (.syncFrameRx e l) s (fun t => t = (s.macRx (s.ringIn e) l true false).2) ∧
        Safety.Next (.beaconRx e l) s (fun t => t = (s.macRx (s.ringIn e) l true false).2) ∧
        (64 ≤ frameLen l → frameLen l ≤ s.fld F.PRT_MAXLEN.MAXLEN (s.ringIn e) → s.on F.PRT_CTL.ENABLE (s.ringIn e) = true →
          (s.macRx (s.ringIn e) l true false).2.fld F.RX_STATE_DISCARD (s.ringIn e) =
            min (s.fld F.RX_STATE_DISCARD (s.ringIn e) + 1) (2 ^ 32 - 1)))) ∧
    (∀ (s : State) (e : Bool) (l : List Byte), s.conUp = true → (s.macRx (s.ringIn e) l true s.rxControl).1 = true →
      (let u := (s.macRx (s.ringIn e) l true s.rxControl).2
       let h := u.heardOn e
       let r := h.syncRec (h.ringIn e) l
       (u.conForeign l = true → Safety.Next (.syncFrameRx e l) s (fun t => t = u.bump F.SYNC_FOREIGN)) ∧
       (u.conForeign l = false → conSender l = s.nodeId →
         (conNonce l = s.con.nonce → Safety.Next (.syncFrameRx e l) s (fun t => t = h)) ∧
         (s.joined = true → conNonce l ≠ s.con.nonce → s.con.dupHold = false → Safety.Next (.syncFrameRx e l) s (fun t =>
           t.ringState = rLISTEN ∧ t.isManager = false ∧ t.con.dupHold = true ∧ Safety.Caused t 51))) ∧
       (u.conForeign l = false → conSender l ≠ s.nodeId ∨ (s.joined = false ∧ conNonce l ≠ s.con.nonce) →
         (s.con.seen.contains (r.sender * 2 ^ 32 + r.cycle) = true → Safety.Next (.syncFrameRx e l) s (fun t => t = h)) ∧
         (s.con.seen.contains (r.sender * 2 ^ 32 + r.cycle) = false →
           (∀ q w, h.ringOut e = some (q, w) → conHops l < 127 → h.controlMay = true → h.portHeld q = false →
             h.on F.PRT_STATUS.LINK_UP q = true → h.overlong q l = false → (h.controlFrame q kCONCORD l).isSome = true → Safety.Next (.syncFrameRx e l) s (fun t =>
               ∃ c ∈ (t.port q).due, c.origin = .control kCONCORD ∧ oct (t.octetsOf c) 22 = conHops l + 1)) ∧
           (s.joined = true → s.ringState = rCOLDSTART → r.cold = true →
             (r.precedence < s.precedence ∨ (r.precedence = s.precedence ∧ r.sender < s.nodeId) →
               Safety.Next (.syncFrameRx e l) s (fun t => t.ringState = rLISTEN ∧ t.con.backoff = 0 ∧
                 t.fld F.CS_YIELD = min (u.fld F.CS_YIELD + 1) (2 ^ 32 - 1))) ∧
             (¬ (r.precedence < s.precedence ∨ (r.precedence = s.precedence ∧ r.sender < s.nodeId)) →
               Safety.Next (.syncFrameRx e l) s (fun t => t.ringState = rCOLDSTART ∧
                 t.fld F.CS_IGNORED = min (u.fld F.CS_IGNORED + 1) (2 ^ 32 - 1)))) ∧
           (s.joined = true → s.ringState = rCOLDSTART → r.cold = false → r.integ = true →
             Safety.Next (.syncFrameRx e l) s (fun t => t.con.answered = true ∧ t.ringState = rCOLDSTART)) ∧
           (s.joined = true → s.ringState = rINTEGRATING ∨ s.ringState = rACTIVE →
             r.cycle = s.con.cycle % 2 ^ 32 → h.on F.TSU_STATUS.DELAY_VALID (h.ringIn e) = true →
             (r.arrival - r.correction - r.delay - ((s.con.cycle * s.ringCycle + 400 * r.sender) * 65536 : Nat)).natAbs ≤
               (s.fld F.CON_SYNC.PRECISION + 10) * 65536 →
             s.ringNow.fmod (s.ringCycle * ringUnit) ≤ 114000 * ringUnit →
             Safety.Next (.syncFrameRx e l) s (fun t => t.con.accepted = s.con.accepted ++ [r] ∧ t.ringState = s.ringState)) ∧
           (s.joined = true → s.ringState = rINTEGRATING ∨ s.ringState = rACTIVE → r.cycle = s.con.cycle % 2 ^ 32 →
             (s.con.cycle * s.ringCycle + 114000 : Nat) * ringUnit < s.ringNow →
             Safety.Next (.syncFrameRx e l) s (fun t => t.fld F.SYNC_LATE = min (u.fld F.SYNC_LATE + 1) (2 ^ 32 - 1) ∧
               (s.ringNow < ((s.con.cycle + 1) * s.ringCycle : Nat) * ringUnit → t.con.accepted = s.con.accepted))) ∧
           (s.joined = true → s.ringState = rLISTEN → s.con.dupHold = false → r.sync = true → r.integ = false →
             h.on F.TSU_STATUS.DELAY_VALID (h.ringIn e) = true → Safety.Next (.syncFrameRx e l) s (fun t =>
               t.con.collected = s.con.collected ++ [r] ∧ t.con.listenFrom = h.nextCycle ∧
               t.con.collectEnd = some (s.con.collectEnd.getD (s.lt + 25600 * ltNs))))))) ) ∧
    (∀ s : State, s.conUp = true → s.ringState = rLISTEN → s.on F.CON_NODE.COLDSTART_EN = true → s.syncNode = true →
      s.con.dupHold = false →
      (s.con.listenFrom + s.fld F.CON_SYNC.LISTEN + s.con.backoff ≤ s.con.cycle → Safety.Next .coldstartEntry s (fun t =>
        t.ringState = rCOLDSTART ∧ t.fld F.CS_ATTEMPTS = min (s.fld F.CS_ATTEMPTS + 1) (2 ^ 32 - 1) ∧
        t.con.csStart = t.con.cycle ∧ t.con.answered = false ∧ t.con.collectEnd = none ∧ t.con.hasTime = true ∧
        t.con.rt = (if s.con.hasTime then s.con.rt
          else (s.time.nt : Int) - (s.fld F.CON_PHASE.PHASE * 2 ^ 32 : Nat)) ∧
        Safety.RegsBut [F.CON_STATE.STATE.key 0 0, F.CS_ATTEMPTS.key 0 0] s t ∧ t = { s with regs := t.regs, con := t.con })) ∧
      (s.con.cycle < s.con.listenFrom + s.fld F.CON_SYNC.LISTEN + s.con.backoff →
        Safety.Next .coldstartEntry s (fun t => t = s))) ∧
    (∀ s : State, s.ringState = rCOLDSTART →
      (s.con.answered = true → Safety.Next .coldstartFail s (fun t => t = s)) ∧
      (s.con.answered = false → Safety.Next .coldstartFail s (fun t => t.ringState = rLISTEN ∧ t.con.backoff < 4 ∧
        t.fld F.CS_FAILED = min (s.fld F.CS_FAILED + 1) (2 ^ 32 - 1) ∧ t.draws = s.draws + 1 ∧
        t.lt = (s.runToRingNs ((s.con.csStart + 4) * s.ringCycle)).lt ∧ t.ports = s.ports))) ∧
    (∀ (s : State) (x : Nat), s.con.collectEnd = some x → s.ringState = rLISTEN → s.con.collected ≠ [] →
      Safety.Next .syncCollectionEnd s (fun t => t.ringState = rINTEGRATING ∧ t.con.collected = [] ∧ t.con.hasTime = true ∧
        t.lt = max s.lt x ∧ t.con.slew = 0 ∧
        ∃ r ∈ s.con.collected, (∀ q ∈ s.con.collected,
            r.precedence < q.precedence ∨ (r.precedence = q.precedence ∧ r.sender ≤ q.sender)) ∧
          (let u := s.runToLt x
           t.con.rt = u.con.rt + ((u.extendCycle r.cycle * s.ringCycle * 65536 + r.origin : Nat) -
             (r.arrival - r.correction - r.delay)) * 65536))) ∧
    (∀ s : State, s.ringState = rACTIVE →
      (8 ≤ s.con.silence → Safety.Next .syncSilenceTimeout s (fun t => t.ringState = rLISTEN ∧ t.isManager = false ∧
        t.con.accepted = [] ∧ t.lt = s.lt ∧
        Safety.RegsBut [F.CON_STATE.STATE.key 0 0, F.CON_STATE.MANAGER.key 0 0] s t)) ∧
      (s.con.silence < 8 → Safety.Next .syncSilenceTimeout s (fun t => t = s)))

/-- Ring cycles, rounds, corrections and ring ports. A cycle start comes when ring time has reached it, completes the
slew, applies the rate and steering terms and the state that is due, and at the manager publishes a steering term
within a quarter of RATE_LIMIT; the measurements close with the fault-tolerant midpoint as the offset correction,
slewed within OFFSET_LIMIT, clipped once and answered with PASSIVE the second time, and with a rate correction
within RATE_LIMIT in odd cycles; a round start counts a missed train and the whole rounds of quiet, begins the wraps
and takes the contribution entries; a beacon goes out on both ring ports once a round, a received one keeps its port
up, and a port without one for 3 rounds is down, a wrap ending after 3 rounds with the port up. The model's readings
in it: logs 53 and 73 (the counts of rounds and cycles, a foreign beacon). (R207, R226, R227, R228, R229, R230,
R231, R235) -/
def Obligations.RingTime : Prop :=
  (∀ s : State, s.phase = .running → s.joined = true → Safety.Next .ringCycleStart s (fun t =>
      let a := s.modCon (fun c => { c with cycle := max c.cycle (s.ringNs s.lt / s.ringCycle - 1) })
      let u := a.runToRingNs ((a.con.cycle + 1) * s.ringCycle)
      t.con.cycle = max s.con.cycle (s.ringNs s.lt / s.ringCycle - 1) + 1 ∧ t.lt = u.lt ∧
      t.con.rt = u.con.rt + s.con.slew ∧ t.con.slew = 0 ∧ t.con.accepted = [] ∧
      t.con.prev = s.con.accepted ∧ t.con.prevO = s.con.applied ∧ t.con.closed = false ∧
      t.fld F.CON_RATE.RATE = (match s.con.rateNext with | some r => ofSigned 32 r | none => s.fld F.CON_RATE.RATE) ∧
      t.fld F.CON_STEER.STEER = (match s.con.steerNext with | some r => ofSigned 32 r | none => s.fld F.CON_STEER.STEER) ∧
      t.ringState = (if (s.ringState = rCOLDSTART ∧ s.con.answered) ∨ (s.ringState = rINTEGRATING ∧ s.con.activeNext)
        then rACTIVE else if s.ringState = rPASSIVE ∧ s.con.integrateNext then rINTEGRATING else s.ringState) ∧
      t.isManager = (s.isManager && !(s.ringState = rPASSIVE && s.con.integrateNext)) ∧
      (t.isManager = true → s.on F.NTM_STATUS.SYNCED = false → t.con.steerPub = 0 ∧ t.fld F.CON_STATE.STEER_HOLD = 1) ∧
      (t.isManager = true → s.on F.NTM_STATUS.SYNCED = true → t.fld F.CON_STATE.STEER_HOLD = 0 ∧
        (let e := t.con.rt - ((t.time.nt : Int) - (s.fld F.CON_PHASE.PHASE * 2 ^ 32 : Nat))
         let want := (-e).tdiv (8 * s.ringCycle : Nat)
         let cap := (ppbUnits (s.fld F.CON_RATE_LIMIT.LIMIT)).tdiv 4
         (t.con.steerPub.natAbs : Int) ≤ cap ∧ ((want.natAbs : Int) ≤ cap → t.con.steerPub = want) ∧
         t.on F.CON_STATE.STEER_PINNED = decide (cap < want.natAbs))) ∧
      t.ports = s.ports ∧ t.tabs = s.tabs)) ∧
    (∀ s : State, s.joined = false → Safety.Next .ringCycleStart s (fun t => t = s)) ∧
    (∀ s : State, s.conUp = true → Safety.Next .ringRoundStart s (fun t =>
      let qW := if s.con.heard.contains false then 0 else s.con.quietW + 1
      let qE := if s.con.heard.contains true then 0 else s.con.quietE + 1
      t.con.round = max s.con.round (s.ringNs s.lt / ringRound - 1) + 1 ∧
      t.con.trainMissed = (if s.con.trainSeen then 0 else s.con.trainMissed + 1) ∧
      (s.joined = true → s.con.trainSeen = false → t.fld F.TRAIN_MISSED = min (s.fld F.TRAIN_MISSED + 1) (2 ^ 32 - 1)) ∧
      t.on F.CON_STATE.W_DOWN = (decide (3 ≤ qW) || s.stillDown false qW) ∧
      t.on F.CON_STATE.E_DOWN = (decide (3 ≤ qE) || s.stillDown true qE) ∧
      (3 ≤ qW ∨ s.stillDown false qW = true → t.fld F.CON_STATE.WRAP_W = 1) ∧
      (3 ≤ qE ∨ s.stillDown true qE = true → t.fld F.CON_STATE.WRAP_E = 1) ∧
      ((3 ≤ qW ∧ s.on F.CON_STATE.W_DOWN = false) ∨ (3 ≤ qE ∧ s.on F.CON_STATE.E_DOWN = false) → Safety.Caused t 48) ∧
      t.con.upW = (if s.on F.CON_STATE.W_DOWN || decide (3 ≤ qW) || s.con.downed.contains false then 0 else s.con.upW + 1) ∧
      t.con.upE = (if s.on F.CON_STATE.E_DOWN || decide (3 ≤ qE) || s.con.downed.contains true then 0 else s.con.upE + 1) ∧
      ((s.joined && s.addState && decide (s.op = .operational)) = false → t.con.contrib = []) ∧ t.con.readOff = false ∧
      (s.con.yielding = true → t.isManager = false) ∧ (s.con.yielding = false → t.isManager = s.isManager) ∧
      t.con.doneAdd = [] ∧ t.con.doneRead = [] ∧ t.con.launchTime = none ∧ t.con.quietW = qW ∧
      t.con.quietE = qE ∧ t.con.heard = [] ∧ t.con.beaconSent = false ∧
      t.con.entries = s.contributed.map (fun ch => (ch, tmCtx (s.contribEntry ch), tmGain (s.contribEntry ch))) ∧
      t.con.body = (if t.launches then t.buildBody else []) ∧ t.tabs = s.tabs)) ∧
    (∀ s : State, s.conUp = true → s.con.closed = false → s.con.hasTime = true →
      s.ringState = rACTIVE ∨ s.ringState = rINTEGRATING → Safety.Next .syncMeasurementClose s (fun t =>
        let m := s.deviations
        let o := -(ftm m)
        let lim : Int := (s.fld F.CON_SYNC.OFFSET_LIMIT * 65536 : Nat)
        t.lt = (s.runToRingNs (s.con.cycle * s.ringCycle + 114000)).lt ∧ m.length ≤ 17 ∧
        t.fld F.CON_CORR.OFFSET = ofSigned 32 o ∧ t.fld F.CON_ACCEPT.USED = m.length ∧
        t.fld F.CON_ACCEPT.ACCEPTED = min 255 s.con.accepted.length ∧ t.fld F.CON_ACCEPT.REJECTED = min 255 s.con.rejected ∧
        t.con.closed = true ∧
        (s.con.cycle % 2 = 0 → t.con.rateNext = s.con.rateNext) ∧
        (s.con.cycle % 2 = 1 → ∃ r : Int, t.con.rateNext = some r ∧
          (r.natAbs : Int) ≤ ppbUnits (s.fld F.CON_RATE_LIMIT.LIMIT)) ∧
        (s.ringState = rACTIVE → (o.natAbs : Int) ≤ lim → t.fld F.CON_STATE.LIMIT_RUN = 0 ∧ t.con.applied = o ∧
          t.con.slew = o * 65536) ∧
        (s.ringState = rACTIVE → lim < o.natAbs → s.fld F.CON_STATE.LIMIT_RUN = 0 → t.fld F.CON_STATE.LIMIT_RUN = 1 ∧
          t.con.applied = clampInt (-lim) lim o) ∧
        (s.ringState = rACTIVE → lim < o.natAbs → s.fld F.CON_STATE.LIMIT_RUN ≠ 0 → t.ringState = rPASSIVE ∧
          t.con.applied = 0 ∧ t.con.slew = s.con.slew ∧ Safety.Caused t 52) ∧
        (s.ringState = rINTEGRATING → s.con.adopted ≠ some s.con.cycle →
          (lim < o.natAbs ∨ s.con.accepted = [] → t.ringState = rLISTEN) ∧
          ((o.natAbs : Int) ≤ lim → s.con.accepted ≠ [] → t.ringState = rINTEGRATING ∧ t.con.slew = o * 65536 ∧
            t.con.inLimit = s.con.inLimit + 1 ∧ t.con.activeNext = decide (1 ≤ s.con.inLimit))))) ∧
    (∀ s : State, s.conUp = true → s.joined = true → s.con.beaconSent = false → s.portW < s.nPorts → s.portE < s.nPorts →
      s.portW ≠ s.portE → s.portHeld s.portW = false → s.portHeld s.portE = false → 64 ≤ s.fld F.PRT_MAXLEN.MAXLEN s.portW → 64 ≤ s.fld F.PRT_MAXLEN.MAXLEN s.portE → s.controlMay = true → s.on F.QSH_CTL.ENABLE s.portW = true → s.on F.QSH_CTL.ENABLE s.portE = true →
      s.on F.PRT_STATUS.LINK_UP s.portW = true → s.on F.PRT_STATUS.LINK_UP s.portE = true →
      (s.island (s.portW / 4)).ctrlUsed + 2 ≤ 512 → (s.island (s.portE / 4)).ctrlUsed + 2 ≤ 512 →
      Safety.Next .beaconTx s (fun t =>
        t.lt = (s.runToRingNs (s.con.round * ringRound + 25600 + s.trainWindow)).lt ∧
        t.con.beaconSent = true ∧ (s.beacon 0).length = 60 ∧ conType (s.beacon 0) = 3 ∧ oct (s.beacon 1) 20 = 1 ∧
        ∃ c d : Copy, (t.port s.portW).ctrl = (s.port s.portW).ctrl ++ [c] ∧ (t.port s.portE).ctrl = (s.port s.portE).ctrl ++ [d] ∧
          t.octetsOf c = s.beacon 0 ∧ t.octetsOf d = s.beacon 1)) ∧
    (∀ (s : State) (e : Bool) (l : List Byte), s.conUp = true → (s.macRx (s.ringIn e) l true s.rxControl).1 = true →
      (let u := (s.macRx (s.ringIn e) l true s.rxControl).2
       (u.conForeign l = true → Safety.Next (.beaconRx e l) s (fun t => t = u.bump F.SYNC_FOREIGN)) ∧
       (u.conForeign l = false → Safety.Next (.beaconRx e l) s (fun t =>
         t.con.heard = e :: s.con.heard ∧
         t.on (if e then F.CON_STATE.E_DOWN else F.CON_STATE.W_DOWN) = false ∧ t = { u with regs := t.regs, con := t.con })))) ∧
    (∀ (s : State) (e : Bool), s.conUp = true →
      (let down := if e then F.CON_STATE.E_DOWN else F.CON_STATE.W_DOWN
       (s.on down = false → s.on F.PRT_STATUS.LINK_UP (s.ringIn e) = false ∨ 3 ≤ (if e then s.con.quietE else s.con.quietW) →
         Safety.Next (.ringPortDown e) s (fun t => t.fld down = 1 ∧ Safety.Caused t 48 ∧
           t.fld F.WRAP_EVENTS = min (s.fld F.WRAP_EVENTS + 1) (2 ^ 32 - 1) ∧ t.lt = s.lt ∧ t.ports = s.ports)) ∧
       (s.on down = true ∨ (s.on F.PRT_STATUS.LINK_UP (s.ringIn e) = true ∧ (if e then s.con.quietE else s.con.quietW) < 3) →
         Safety.Next (.ringPortDown e) s (fun t => t = s)) ∧
       ((if e then s.con.upE else s.con.upW) < 3 ∨ s.on down = true → Safety.Next (.ringWrapEnd e) s (fun t => t = s)) ∧
       (3 ≤ (if e then s.con.upE else s.con.upW) → s.on down = false → Safety.Next (.ringWrapEnd e) s (fun t =>
         (let wrap := if e then F.CON_STATE.WRAP_E else F.CON_STATE.WRAP_W
          t.fld wrap = 0 ∧ Safety.RegsBut [wrap.key 0 0] s t ∧ t = { s with regs := t.regs })))))

/-- Contributions, the train, the manager and remote commands. A contribution entry takes effect with its second dword,
after which a context that it names is allocated, and a bus context or one of 96 kHz is refused; at the cutoff each
contribution that the round took is six samples of 24 bits; the manager's train of the round is queued at its
launch; a train frame on the through-path is foreign, late, in collision or sent on 64 core cycles after it came,
its FCS stomped where it came with a wrong one and its PASS and WRAPPED set where it wraps; a manager gives way to a
lower one and drops a higher one's train; a circuit 1 whose last frame comes back after its window or its round has
ended is an overrun; a takeover starts with every slot free; RING_REMOTE fills a slot or says why not, and completes
with the response or after 16,384 rounds. The model's readings in it: logs 53, 54 and 73 (a split, a late train, a
train that meets another). (R210, R211, R213, R214, R215, R217, R218, R232, R234, R235, R236, R237) -/
def Obligations.TrainAndRemote : Prop :=
  (∀ (s : State) (off : Nat) (d : Word), Safety.AdmitsTab s → off < 0x2000 → s.bst.tested = [] →
      (let ch := off / 8
       let x := s.ctx (d.toNat % 2 ^ 19)
       (off / 4 % 2 = 0 → d.toNat.testBit 31 = true → cxBus x = true ∨ cxRate x = 1 →
         Safety.Next (.contributionEntryWrite off d) s (fun t => t = s.refuse (atBar2 (0x13408000 + off)) d.toNat cRULE)) ∧
       (off / 4 % 2 = 0 → d.toNat.testBit 31 = false ∨ (cxBus x = false ∧ cxRate x ≠ 1) →
         (∀ c, s.conCol = some c → c.entry ≠ contribTab ch) → Safety.Next (.contributionEntryWrite off d) s (fun t =>
           t = { s with conCol := some ⟨contribTab ch, [(contribTab ch, d)]⟩ })) ∧
       (off / 4 % 2 = 1 → Safety.Next (.contributionEntryWrite off d) s (fun t =>
         t.tab (contribTab ch + 1) = d.toNat ∧ t.conCol = none ∧ t.regs = s.regs ∧
         (∀ x, s.conCol = some ⟨contribTab ch, [(contribTab ch, x)]⟩ → t.tab (contribTab ch) = x.toNat) ∧
         ((∀ c, s.conCol = some c → c.entry ≠ contribTab ch) → t.tab (contribTab ch) = s.tab (contribTab ch)) ∧
         (tmValid (t.contribEntry ch) = true → islandOf xCTX (tmCtx (t.contribEntry ch)) < s.nIslands →
           t.allocated (tmCtx (t.contribEntry ch)) = true))))) ∧
    (∀ s : State, s.conUp = true → s.joined = true → s.op = .operational →
      s.ringState = rINTEGRATING ∨ s.ringState = rACTIVE ∨ s.ringState = rPASSIVE →
      Safety.Next .contributionCutoff s (fun t => t.lt = (s.runToRingNs (s.con.round * ringRound + 20000)).lt ∧ t.tabs = s.tabs ∧
        ∀ x ∈ s.con.entries, ∃ vs, SMap.look t.con.contrib x.1 = some vs ∧ vs.length = 6 ∧
          ∀ v ∈ vs, -8388608 ≤ v ∧ v ≤ 8388607)) ∧
    (∀ s : State, s.launches = true → s.con.launchTime = none → s.con.body ≠ [] →
      (let u := s.runToRingNs (s.con.round * ringRound + 25600)
       let p := s.launchPort
       s.controlMay = true → s.portHeld p = false → s.on F.PRT_STATUS.LINK_UP p = true →
       (∀ i < s.trainCount, s.overlong p (u.addTrain (u.trainFrame i)) = false) →
       (s.island (p / 4)).ctrlUsed + ((List.range s.trainCount).map (fun i =>
         cellsOf ((padded (u.addTrain (u.trainFrame i))).length + 4))).sum ≤ 512 →
       Safety.Next .trainLaunch s (fun t => t.lt = u.lt ∧ t.con.launchTime = some u.lt ∧
         (t.port p).due.length = (s.port p).due.length + s.trainCount ∧ t.regs = s.regs))) ∧
    (∀ (s : State) (e : Bool) (l : List Byte) (ok st busy : Bool), s.on F.CON_CTL.ENABLE = true → s.ringIn e < s.nPorts →
      (s.on F.PRT_CTL.ENABLE (s.ringIn e) = false ∨ s.op.service = false →
        Safety.Next (.trainFrameRx e l ok st busy) s (fun t => t = (s.macRx (s.ringIn e) l ok s.op.service).2)) ∧
      (s.on F.PRT_CTL.ENABLE (s.ringIn e) = true → s.op.service = true → s.ringHeld = true →
        Safety.Next (.trainFrameRx e l ok st busy) s (fun t => t = s.xingDiscard islRing))) ∧
    (∀ (s : State) (e : Bool) (l : List Byte) (ok st busy : Bool), s.conUp = true → s.ringIn e < s.nPorts →
      s.on F.PRT_CTL.ENABLE (s.ringIn e) = true → s.con.resumeAt + frameLen l * s.octetLt (s.ringIn e) ≤ s.lt → 64 ≤ frameLen l →
      (let p := s.ringIn e
       let j := if ok then (s.bump F.RX_FRAMES_OK p).bump F.RX_OCTETS_OK p 0 (frameLen l) else s.bump F.RX_FCS_ERR p
       let h := j.heardOn e
       (ok = true → s.fld F.PRT_MAXLEN.MAXLEN p < frameLen l →
         Safety.Next (.trainFrameRx e l ok st busy) s (fun t => t = s.bump F.RX_OVERSIZE p)) ∧
       (ok = false ∨ frameLen l ≤ s.fld F.PRT_MAXLEN.MAXLEN p →
       (s.conForeign l = true → Safety.Next (.trainFrameRx e l ok st busy) s (fun t => t = j.bump F.TRAIN_FOREIGN)) ∧
       (s.conForeign l = false → s.isManager = true → conSender l ≠ s.nodeId →
         (lowerMgr (oct l 27, conSender l) (s.fld F.CON_MGR.RANK, s.nodeId) = false →
           Safety.Next (.trainFrameRx e l ok st busy) s (fun t => t = h.bump F.TRAIN_FOREIGN)) ∧
         (lowerMgr (oct l 27, conSender l) (s.fld F.CON_MGR.RANK, s.nodeId) = true →
           Safety.Next (.trainFrameRx e l ok st busy) s (fun t => t.con.yielding = true))) ∧
       (s.conForeign l = false → s.isManager = true → conSender l = s.nodeId →
         e = false ∨ s.on F.CON_STATE.W_DOWN = true → trRead l = true →
         Safety.Next (.trainFrameRx e l ok st busy) s (fun t => t.con.back1 = s.con.back1 ++ [trIndex l] ∧
           t.con.trainSeen = true ∧ t.ports = s.ports ∧
           (trIndex l + 1 = trCount l → h.trainLate s.lt = true ∨ octN l 22 4 ≠ s.con.round % 2 ^ 32 → s.con.overrun = false →
             t.con.overrun = true ∧ Safety.Caused t 50 ∧
             t.fld F.TRAIN_OVERRUN = min (s.fld F.TRAIN_OVERRUN + 1) (2 ^ 32 - 1)))) ∧
       (s.conForeign l = false → s.isManager = false →
         (h.ringOut e = none → Safety.Next (.trainFrameRx e l ok st busy) s (fun t => t = h)) ∧
         (∀ p w, h.ringOut e = some (p, w) →
           (h.trainLate (h.passAt p l) = true → Safety.Next (.trainFrameRx e l ok st busy) s (fun t =>
             t = h.bump F.TRAIN_LATE)) ∧
           (h.trainLate (h.passAt p l) = false → busy = true ∨ h.sendingAt p (h.passAt p l) = true →
             Safety.Next (.trainFrameRx e l ok st busy) s (fun t => t.ports = s.ports ∧ t.con.trainSeen = true ∧
               t.fld F.TRAIN_COLLIDE = min (s.fld F.TRAIN_COLLIDE + 1) (2 ^ 32 - 1))) ∧
           (h.trainLate (h.passAt p l) = false → busy = false → h.sendingAt p (h.passAt p l) = false → s.lineMay p = true →
             s.joined = false ∨ trPass l = true → 22 ≤ l.length → s.fld F.PRT_MAXLEN.MAXLEN p < frameLen l → s.portHeld p = false →
             Safety.Next (.trainFrameRx e l ok st busy) s (fun t => t.ports = s.ports ∧
               t.fld F.TX_OVERSIZE_DROP p = min (s.fld F.TX_OVERSIZE_DROP p + 1) (2 ^ 32 - 1))) ∧
           (h.trainLate (h.passAt p l) = false → busy = false → h.sendingAt p (h.passAt p l) = false → s.lineMay p = true →
             s.portHeld p = false → l.length ≤ 8222 → 8226 ≤ s.fld F.PRT_MAXLEN.MAXLEN p →
             Safety.Next (.trainFrameRx e l ok st busy) s (fun t => t.con.trainSeen = true ∧
               (ok = false → st = true → t.fld F.TRAIN_POISON_RX = min (s.fld F.TRAIN_POISON_RX + 1) (2 ^ 32 - 1)) ∧
               (ok = false → st = false → t.fld F.TRAIN_FCS_ERR = min (s.fld F.TRAIN_FCS_ERR + 1) (2 ^ 32 - 1)) ∧
               (ok = true → s.joined = true → s.con.steerTaken = false → trIndex l = 0 →
                 t.con.steerNext = some (toSigned 32 (octN l 38 4))) ∧
               (s.joined = true → trPass l = false → trRead l = false → trIndex l ∈ t.con.doneAdd) ∧
               (s.joined = true → trPass l = false → trRead l = true → trIndex l ∈ t.con.doneRead) ∧
               (s.joined = true → trPass l = false → trRead l = true → trIndex l ∉ s.con.doneRead →
                 s.con.readOff = true ∨ s.op ≠ .operational → t.con.readOff = true ∧ t.mix.ctxs = s.mix.ctxs) ∧
               ∃ x : Tx, (t.port p).tx = some x ∧ x.badFcs = !ok ∧ x.whole = true ∧ x.copy.origin = .control kCONCORD ∧
                 (s.joined = false ∨ trPass l = true →
                   x.begin' = s.passAt p l - 8 * s.octetLt p ∧
                   x.octets = (if w then trFlag 2 true (trFlag 0 true l) else l))))))))) ∧
    (∀ s : State, s.launches = true → s.con.launchTime.isSome = true →
      (let u := s.runToRingNs (s.con.round * ringRound + 25600 + s.trainWindow)
       Safety.Next .trainWindowEnd s (fun t => t = u))) ∧
    (∀ s : State, s.conUp = true → s.joined = true → s.isManager = false → s.fld F.CON_MGR.RANK ≠ 0xFF →
      s.ringState = rACTIVE ∨ s.ringState = rPASSIVE → s.con.slots.length = 8 → Safety.sources s = true →
      (s.fld F.CON_MGR.MGR_TIMEOUT + s.fld F.CON_MGR.RANK ≤ s.con.trainMissed → Safety.Next .managerTakeover s (fun t =>
        t.isManager = true ∧ t.con.steerPub = 0 ∧ t.con.yielding = false ∧ Safety.Caused t 53 ∧
        t.fld F.MGR_TAKEOVERS = min (s.fld F.MGR_TAKEOVERS + 1) (2 ^ 32 - 1) ∧
        (s.on F.CON_STATE.W_DOWN = true → s.on F.CON_STATE.E_DOWN = true → t.on F.CON_STATE.SPLIT = true) ∧
        ∀ x ∈ t.con.slots, x.state = 0)) ∧
      (s.con.trainMissed < s.fld F.CON_MGR.MGR_TIMEOUT + s.fld F.CON_MGR.RANK →
        Safety.Next .managerTakeover s (fun t => t = s))) ∧
    (∀ (s : State) (c : Cmd), Safety.Executes s 0x42 c → s.con.slots.length = 8 →
      (let n := c.word 1 % 64
       let barred : Prop := c.word 2 % 65536 ∈ [0x42, 0x80, 0x90, 0x91]
       let busy : Prop := ∀ x ∈ s.con.slots, x.state ≠ 0
       (s.isManager = false → Safety.Next .ringRemote s (fun t => Safety.AnswersOnly s t c xWRONGSTATE 7 [])) ∧
       (s.isManager = true → s.sectionUp n = false →
         Safety.Next .ringRemote s (fun t => Safety.AnswersOnly s t c xWRONGSTATE 7 [])) ∧
       (s.isManager = true → s.sectionUp n = true → busy →
         Safety.Next .ringRemote s (fun t => Safety.AnswersOnly s t c xNORES 7 [])) ∧
       (s.isManager = true → s.sectionUp n = true → ¬ busy → barred →
         Safety.Next .ringRemote s (fun t => Safety.AnswersOnly s t c xBADARG 7 [])) ∧
       (s.isManager = true → s.sectionUp n = true → ¬ busy → ¬ barred → Safety.Next .ringRemote s (fun t =>
         Safety.Parks s t c ∧ t.con.slotSeq = s.con.slotSeq + 1 ∧ ∃ k < 8, (s.con.slots.getD k Slot.free).state = 0 ∧
           t.con.slots = s.con.slots.set k
             ⟨1, n, s.con.slotSeq + 1, (List.range 14).map (fun w => c.word (w + 2)), s.con.round⟩)))) ∧
    (∀ (s : State) (k : Nat), k < s.con.slots.length → Safety.sources s = true →
      (let x := s.con.slots.getD k Slot.free
       (x.state = 3 → Safety.Next (.ringRemoteDone k) s (fun t => t.con.slots.getD k Slot.free = Slot.free ∧
         (∀ c, s.slotCmd k = some c → Safety.Replies t c xOK 0 x.words) ∧
         t.fld F.REMOTE_DONE = min (s.fld F.REMOTE_DONE + 1) (2 ^ 32 - 1) ∧ t.lt = s.lt)) ∧
       (x.state ≠ 3 → x.state ≠ 0 → x.since + 16384 ≤ s.con.round → Safety.Next (.ringRemoteDone k) s (fun t =>
         t.con.slots.getD k Slot.free = Slot.free ∧ (∀ c, s.slotCmd k = some c → Safety.Replies t c xWRONGSTATE 7 []) ∧
         t.fld F.REMOTE_FAILED = min (s.fld F.REMOTE_FAILED + 1) (2 ^ 32 - 1))) ∧
       (x.state = 0 ∨ (x.state ≠ 3 ∧ s.con.round < x.since + 16384) →
         Safety.Next (.ringRemoteDone k) s (fun t => t = s))))

/-- Mix tables, commits, activation and drain. A write to a bank that is operative, committed, draining or under the
checks of a commit is refused and another takes effect at once; a live entry is collected and applied with its last
dword, and an allocated context refuses a write; a commit is turned away while one is pending or a bank drains, is
refused with the first failure and changes nothing, or is accepted for the requested millisecond or the first that
leaves 100 us; a withdrawal cancels it until 50 us before; MIX_STATUS reports; the placement is loaded, the bank
becomes operative at A_eff, and 1 ms later contexts that nothing reads are freed and the old group's cells return.
The model's readings in it: logs 12, 21, 51 and 73 (a gated island, the time of the checks, their order). (R185,
R186, R193, R195, R196, R197, R199, R200, R201) -/
def Obligations.MixBanks : Prop :=
  (∀ (s : State) (off : Nat) (d : Word) (e : MixEntry) (c : Instr), c = .mixBankWrite off d ∨ c = .mixLiveEntryWrite off d →
      Safety.AdmitsTab s → s.bst.tested = [] → mixEntry off = some e →
      (let w := off / 4 - e.base
       let u := if e.table ≠ xBIND ∧ s.islandGated (islandOf e.table e.index) = true then s.run (16 * coreCycle) else s
       (s.mixAbsent e = true ∨ mixRo e w = true → Safety.Next c s (fun t => t = s)) ∧
       (s.mixAbsent e = false → mixRo e w = false → e.table ≠ xBIND → e.table ≠ xCTX →
         (e.bank = s.operBank ∨ s.mix.pending.isSome = true ∨ u.draining = true ∨ s.commitChecks = true →
           Safety.Next c s (fun t => t = u.refuse (atBar2 off) d.toNat cRULE)) ∧
         (e.bank ≠ s.operBank → s.mix.pending = none → u.draining = false → s.commitChecks = false →
           Safety.Next c s (fun t => t.tab (e.base + w) = d.toNat ∧
             t.isBad (badMix e.table) (banked e.bank e.index) = false ∧ Safety.TabsBut [e.base + w] s t ∧
             t = { u with tabs := t.tabs, bad := t.bad, mixCol := none }))) ∧
       (s.mixAbsent e = false → e.table = xBIND ∨ e.table = xCTX → mixRo e w = false →
         (e.table = xCTX → s.allocated e.index = true → s.isBad (badMix xCTX) e.index = false →
           Safety.Next c s (fun t => t = u.refuse (atBar2 off) d.toNat cRULE)) ∧
         (e.table = xBIND ∨ s.allocated e.index = false ∨ s.isBad (badMix xCTX) e.index = true →
           (w ≠ (if e.table = xCTX then 2 else 1) → (∀ x, s.mixCol = some x → x.entry ≠ e.base) →
             Safety.Next c s (fun t => t = { u with mixCol := some ⟨e.base, [(e.base + w, d)]⟩ })) ∧
           (w = (if e.table = xCTX then 2 else 1) → Safety.Next c s (fun t => t.tab (e.base + w) = d.toNat ∧ t.mixCol = none ∧
             t.regs = s.regs ∧ t.mix = s.mix ∧ t.lt = u.lt ∧
             (∀ k x, k ≠ e.base + w → s.mixCol = some ⟨e.base, [(k, x)]⟩ → t.tab k = x.toNat) ∧
             ((∀ x, s.mixCol = some x → x.entry ≠ e.base) → Safety.TabsBut [e.base + w] s t))))))) ∧
    (∀ (s : State) (c : Cmd), Safety.Executes s 0x20 c → c.word 1 % 2 = 0 →
      (s.mix.pending.isSome = true → Safety.Next .mixCommit s (fun t => Safety.AnswersOnly s t c xWRONGSTATE 0 [])) ∧
      (s.mix.pending = none → s.draining = true → Safety.Next .mixCommit s (fun t => Safety.AnswersOnly s t c xBUSY 0 [])) ∧
      (s.mix.pending = none → s.draining = false →
        (let v := (if s.mix.drainEnd.isSome then s.endDrain else s).commitTime
         let b := 1 - s.operBank
         v.lt ≤ s.lt + 2 * ltMs ∧
         (∀ x p, v.commitCheck b (c.ms * 1000000) = (some x, p) → Safety.Next .mixCommit s (fun t =>
           Safety.Answers t c (if x.reason < 0x20 then xBADARG else xNORES) x.reason
             [0, 0, 0, x.table * 2 ^ 28 + x.island * 2 ^ 24 + x.index % 2 ^ 22] ∧
           t.tabs = s.tabs ∧ t.islands = s.islands ∧ t.operBank = s.operBank ∧
           t.mix = { v.mix with lastStatus := (if x.reason < 0x20 then xBADARG else xNORES), lastReason := x.reason })) ∧
         (∀ p, v.commitCheck b (c.ms * 1000000) = (none, p) → Safety.Next .mixCommit s (fun t =>
           t.operBank = s.operBank ∧ ∃ a, t.mix.pending = some ⟨a, b, p, false⟩ ∧ v.ns + 100000 ≤ a * 1000000 ∧
             (v.ns + 100000 ≤ c.ms * 1000000 → a = c.ms ∧ Safety.Answers t c xOK 0 [a % 2 ^ 32, a / 2 ^ 32, 0]) ∧
             (c.ms * 1000000 < v.ns + 100000 → (a - 1) * 1000000 < v.ns + 100000 ∧
               Safety.Answers t c xLATE 0 [a % 2 ^ 32, a / 2 ^ 32, min (a - c.ms) 0xFFFFFFFF])))))) ∧
    (∀ (s : State) (c : Cmd) (i : Instr), i = .mixCommit ∨ i = .mixWithdraw → Safety.Executes s 0x20 c → c.word 1 % 2 = 1 →
      (s.mix.pending = none → Safety.Next i s (fun t => Safety.AnswersOnly s t c xWRONGSTATE 0 [])) ∧
      (∀ x, s.mix.pending = some x →
        (x.aeff * 1000000 ≤ s.ns + 50000 → Safety.Next i s (fun t => Safety.AnswersOnly s t c xLATE 0 [])) ∧
        (s.ns + 50000 < x.aeff * 1000000 → Safety.Next i s (fun t => Safety.Answers t c xOK 0 [] ∧ t.mix.pending = none ∧
          t.operBank = s.operBank ∧ t.lt = s.lt ∧ ∀ r ∈ t.mix.reserved, r ∈ s.mix.reserved ∧ (r.bank = x.bank → r.old ≠ none))))) ∧
    (∀ (s : State) (c : Cmd), Safety.Executes s 0x21 c → Safety.Next .mixStatus s (fun t =>
      let a := match s.mix.pending with
        | some x => x.aeff
        | none => if s.mix.activated then s.mix.lastAeff else 0
      let e := if s.mix.activated then s.mix.lastAeff + 1 else 0
      Safety.AnswersOnly s t c xOK 0 [s.operBank + s.mix.pending.isSome.toNat * 2 + s.draining.toNat * 4 +
        s.mix.lastReason * 2 ^ 8 + s.mix.lastStatus * 2 ^ 16, a % 2 ^ 32, a / 2 ^ 32, e % 2 ^ 32, e / 2 ^ 32])) ∧
    (∀ (s : State) (x : Commit), s.mix.pending = some x →
      Safety.Next .placementLoad s (fun t => t.mix = { s.mix with pending := some { x with loaded := true } } ∧
        t.lt = (s.runToNs (x.aeff * 1000000 - 50000)).lt ∧ t.regs = s.regs ∧ t.tabs = s.tabs) ∧
      (s.phase = .running → Safety.Next .mixActivation s (fun t => t.operBank = x.bank % 2 ∧ t.mix.pending = none ∧
        t.mix.activated = true ∧ t.mix.lastAeff = x.aeff ∧
        t.mix.drainEnd = (if x.bank = s.operBank then none else some (x.aeff * 1000000 + 1000000)) ∧
        t.mix.ramp = some (if s.mix.activated then s.gains s.operBank else []) ∧
        SMap.look t.mix.placed x.bank = some x.place ∧ t.lt = (s.runToNs (x.aeff * 1000000)).lt ∧ t.tabs = s.tabs ∧
        t.mix.ctxs = s.mix.ctxs))) ∧
    (∀ (s : State) (d : Nat), s.mix.drainEnd = some d → s.phase = .running → Safety.Next .mixDrainEnd s (fun t =>
      t.mix.drainEnd = none ∧ t.draining = false ∧ t.lt = (s.runToNs d).lt ∧ t.regs = s.regs ∧ t.tabs = s.tabs ∧
      t.mix.placed = s.mix.placed ∧
      ∀ c, t.allocated c = true → s.allocated c = true ∧
        ((∃ b, (b = s.operBank ∧ s.mix.activated = true ∨ ∃ x, s.mix.pending = some x ∧ b = x.bank) ∧ c ∈ s.ctxsOf b) ∨
          ∃ ch ∈ s.contributed, tmCtx (s.contribEntry ch) = c))) ∧
    (∀ (s : State) (g : Nat), s.phase = .running →
      (let mine := s.mix.reserved.filter (fun r => r.group = g && r.old.isSome)
       (mine = [] → Safety.Next (.mixPoolReturn g) s (fun t => t = s)) ∧
       (∀ r l, mine = r :: l → Safety.Next (.mixPoolReturn g) s (fun t =>
         t.mix.reserved = s.mix.reserved.filter (fun x => !(x.group = g && x.old.isSome)) ∧
         t.lt = (s.runToNs (s.returnAt r (r.old.getD 0))).lt ∧
         ∀ q, (t.island q).mixUsed = (s.island q).mixUsed - cellsAt mine q))))

/-- Unpacking, batches, deadlines and rebalancing. A frame is unpacked when its turn comes: one that is not a whole RTP
packet, or lies outside the ring, counts in ENG_TS_REJECT, and another fills its slots and raises FRESH; a picture
store keeps two complete pictures at most; a window without a deadline instant counts, and one with it joins, 1 us
before its cutoff, a batch on each of its engines unless that cutoff has passed; a cutoff outside OPERATIONAL drops
the batch, and otherwise freezes what is present; an allotment begins when its engine is free and silences what
would be late; its end builds the audio frames, which leave at the deadline instant in OPERATIONAL only; a row fetch
is noted, also before the window is fixed; rebalancing makes at most MAX_MOVES moves. The model's readings in it:
logs 52, 71 and 73 (batches, row fetches, a window without a deadline instant). (R157, R158, R159, R160, R161, R170,
R172, R173, R174, R175, R177, R179) -/
def Obligations.MixWindows : Prop :=
  (∀ (s : State) (ups : List Upset), s.phase = .running →
      (s.mix.unpack = [] → Safety.Next (.unpackFrame ups) s (fun t => t.mix = s.mix ∧ t.regs = s.regs ∧ t.frames = s.frames)) ∧
      (∀ u r, s.mix.unpack = u :: r →
        Safety.Next (.unpackFrame ups) s (fun t => t.mix.unpack = r ∧ t.lt = (s.runToLt u.due).lt)) ∧
      (∀ (u : Unpack) (r : List Unpack) (f : Frame), s.mix.unpack = u :: r → s.frame u.fid = some f → u.count = 1 → u.base < 1048576 →
        s.bst.tested = [] → s.isBad (badMix xBIND) u.base = false →
        (let b := s.binding u.base
         let c := bdTarget b
         let e := s.ctx c
         let w := sampleOctets (cxFormat e)
         let g := w * cxChannels e
         let ring := cxRing e
         let m := mediaAt u.arrival (cxRate e)
         let rejects (t : State) : Prop := t.mix.ctxs = s.mix.ctxs ∧
           t.fld F.ENG_TS_REJECT (islandOf xCTX c) = min (s.fld F.ENG_TS_REJECT (islandOf xCTX c) + 1) (2 ^ 32 - 1)
         bdValid b = true → bdVideo b = false → s.isBad (badMix xCTX) c = false → cxBus e = false → bdChannel b < cxChannels e →
         s.engineHeld (islandOf xCTX c) = false →
         ∀ d, SMap.look s.mix.ctxs c = some d →
           (f.rtp = none → Safety.Next (.unpackFrame []) s rejects) ∧
           (∀ p, f.rtp = some p →
             (let n := p.payload.length / g
              let first := extendIndex p.ts (cxTsOffset e) m
              (p.payload.length % g ≠ 0 → Safety.Next (.unpackFrame []) s rejects) ∧
              (p.payload.length % g = 0 → n ≠ 0 → first < 0 ∨ (m + ring : Int) < first ∨ first + n - 1 ≤ (d.fresh : Int) - ring →
                Safety.Next (.unpackFrame []) s rejects) ∧
              (p.payload.length % g = 0 → 0 < n → n ≤ ring → 0 ≤ first → first ≤ m + ring → (d.fresh : Int) - ring < first + n - 1 →
                Safety.Next (.unpackFrame []) s (fun t => ∃ d', SMap.look t.mix.ctxs c = some d' ∧
                  d'.fresh = max d.fresh (first.toNat + n - 1) ∧
                  ∀ j, j < n → SMap.look d'.slots ((first.toNat + j) % ring) =
                    some (normSample (cxFormat e) (slice p.payload (j * g + bdChannel b * w) w),
                      lapTag ring (first.toNat + j)))))))))  ∧
    (∀ s : State, s.phase = .running →
      (s.mix.video = [] → Safety.Next .videoPacketStore s (fun t => t = s)) ∧
      (∀ j r, s.mix.video = j :: r → Safety.Next .videoPacketStore s (fun t => t.mix.video = r ∧ t.lt = s.lt ∧
        ∀ v, ((SMap.val s.mix.pictures v []).filter (fun p => p.complete)).length ≤ 2 →
          ((SMap.val t.mix.pictures v []).filter (fun p => p.complete)).length ≤ 2)) ∧
      (∀ (j : VideoJob) (r : List VideoJob) (f : Frame) (x : Rtp) (a : CxlAt), s.mix.video = j :: r → s.frame j.fid = some f →
        f.rtp = some x → s.videoTakes j.input = true → cxlAt (entNum (s.videoEntry j.input) 2) = some a →
        (let e := s.videoEntry j.input
         let l := x.payload
         let hs := srds l (l.length / 6) 2
         let ps := SMap.val s.mix.pictures j.input []
         hs ≠ [] → (∀ h ∈ hs, h.ok e = true) → l.length = 2 + 6 * hs.length + (hs.map (fun h => h.len)).sum →
         (∀ p ∈ ps, p.ts = x.ts → p.complete = false) →
         Safety.Next .videoPacketStore s (fun t => ∃ q ∈ SMap.val t.mix.pictures j.input [], q.ts = x.ts ∧
           ((∀ p ∈ ps, p.ts ≠ x.ts) → (ps.filter (fun p => p.complete)).length ≤ 2 →
             ∀ p ∈ ps, p.complete = true → q.slot ≠ p.slot) ∧
           ∀ i h, hs[i]? = some h → (∀ k h', i < k → hs[k]? = some h' → h'.row ≠ h.row) →
             t.cxlRead a.port (a.off + (q.slot * viHeight e + h.row) * viStride e + h.off / 2 * pgroupOctets (vi444 e)) h.len =
               slice l (2 + 6 * hs.length + ((hs.take i).map (fun h => h.len)).sum) h.len)))) ∧
    (∀ (s : State) (i k : Nat) (ups : List Nat), s.phase = .running → s.pwr.state ≠ .standby →
      (s.win i k = none → Safety.Next (.windowFix i k ups) s (fun t => t = s)) ∧
      (∀ x, s.win i k = some x →
        (s.winDeadline x = none → s.ns < x.w + smPeriod x.e → Safety.Next (.windowFix i k ups) s (fun t =>
          t.fld F.ENG_NO_DEADLINE (sumIsland i) = min (s.fld F.ENG_NO_DEADLINE (sumIsland i) + 1) (2 ^ 32 - 1) ∧
          t.lt = (s.runToNs x.w).lt ∧ t.mix = s.mix)) ∧
        (s.winDeadline x = none → x.w + smPeriod x.e ≤ s.ns → Safety.Next (.windowFix i k ups) s (fun t => t = s)) ∧
        (∀ d, s.winDeadline x = some d →
          (s.mix.unplaced = true → Safety.Next (.windowFix i k ups) s (fun t => t.mix = s.mix ∧
            t.fld F.ENG_LATE_OUTPUT (sumIsland i) = min (s.fld F.ENG_LATE_OUTPUT (sumIsland i) + 1) (2 ^ 32 - 1))) ∧
          (s.mix.unplaced = false →
            (let u := (s.runToNs (d - s.winLatency (s.winsAt d) x - 1000)).readForFix x ups
             (∀ d', u.winDeadline x = some d' →
               (u.fixedAlready x = true ∨ d' < u.ns + u.winLatency (u.winsAt d') x →
                 Safety.Next (.windowFix i k ups) s (fun t => t = u)) ∧
               (i < 65536 → u.fixedAlready x = false → u.ns + u.winLatency (u.winsAt d') x ≤ d' →
                 Safety.Next (.windowFix i k ups) s (fun t => t.lt = u.lt ∧ t.regs = u.regs ∧ t.tabs = s.tabs ∧
                   (∀ b ∈ s.mix.batches, b.d ≠ d' → b ∈ t.mix.batches) ∧
                   (∀ b ∈ s.mix.batches, (t.batch b.e b.d).isSome = true) ∧
                   ∀ e ∈ u.winEngines x, (t.batch e d').isSome = true)))))))) ∧
    (∀ (s : State) (e d : Nat),
      (s.batch e d = none → ∀ c ∈ [Instr.batchCutoff e d, .allotmentStart e d [], .allotmentDone e d, .mixDeadlineEnqueue e d],
        Safety.Next c s (fun t => t = s)) ∧
      (∀ b, s.batch e d = some b →
        (b.stage = .fixed → s.op ≠ .operational ∨ s.on F.MIX_CTL.ENABLE = false → Safety.Next (.batchCutoff e d) s (fun t =>
          t.batch e d = none ∧ t.regs = s.regs ∧ t.tabs = s.tabs ∧ t.lt = (s.runToNs (d - batchLatency b.blocks)).lt ∧
          ∀ x ∈ b.sums, ∀ y : Win, y.idx = x.idx → y.k = x.k → t.fixedAlready y = true)) ∧
        (b.stage = .fixed → s.op = .operational → s.on F.MIX_CTL.ENABLE = true → Safety.Next (.batchCutoff e d) s (fun t =>
          t.lt = (s.runToNs (d - batchLatency b.blocks)).lt ∧ ∃ b', t.batch e d = some b' ∧ b'.stage = .cut ∧
            b'.sums = b.sums ∧ ∀ x ∈ b'.inputs, 0 ≤ x.2.1 ∧ s.sampleAt x.1 x.2.1.toNat = some x.2.2)) ∧
        (b.stage = .cut → ∀ ups, Safety.Next (.allotmentStart e d ups) s (fun t =>
          let start := max (d - batchLatency b.blocks + 200) (s.engineFree e)
          let fin := start + allotment b.blocks
          t.lt = (s.runToNs start).lt ∧ ∃ b', t.batch e d = some b' ∧ b'.stage = .running ∧ b'.allotEnd = fin ∧
            (d < fin + 600 → ∀ y ∈ b.sums ++ b.tiles, y.sum ∈ b'.silent))) ∧
        (b.stage = .running → Safety.Next (.allotmentDone e d) s (fun t => t.lt = (s.runToNs b.allotEnd).lt ∧
          t.regs = s.regs ∧ t.tabs = s.tabs ∧ ∃ b', t.batch e d = some b' ∧ b'.stage = .done ∧
            ∀ q ∈ (s.runToNs b.allotEnd).audioFrames b, q ∈ b'.built)) ∧
        (b.stage = .cut → Safety.Next (.mixDeadlineEnqueue e d) s (fun t => t.lt = (s.runToNs d).lt ∧ t.ports = s.ports ∧
          t.frames = s.frames ∧ (∃ b', t.batch e d = some b' ∧ ∀ y ∈ b.sums ++ b.tiles, y.sum ∈ b'.quiet) ∧
          ∀ x, b.sums = [x] → b.quiet = [] →
            (let m := islandOf xGROUP (smGroup (s.memSum x))
             t.fld F.ENG_GROUP_WITHHELD m = min (s.fld F.ENG_GROUP_WITHHELD m + 1) (2 ^ 32 - 1)))) ∧
        (b.stage = .done → Safety.Next (.mixDeadlineEnqueue e d) s (fun t => t.batch e d = none ∧ t.lt = (s.runToNs d).lt ∧
          (s.op ≠ .operational → t.frames = s.frames ∧ t.ports = s.ports ∧ t.xing = s.xing ∧ t.arrived = s.arrived) ∧
          (∀ x l, s.op = .operational → b.sums = [x] → b.silent = [] → b.quiet = [] → b.built = [⟨smGroup (s.memSum x), x.k, x.bank, l⟩] →
            gpGenEn (s.group x.bank (smGroup (s.memSum x))) = false →
            (let m := islandOf xGROUP (smGroup (s.memSum x))
             t.fld F.ENG_FRAMES_OUT m = min (s.fld F.ENG_FRAMES_OUT m + 1) (2 ^ 32 - 1))))))) ∧
    (∀ (s : State) (k d : Nat),
      (s.ns ≤ d → s.canFetch k = true → s.fetchedAt k d = none → Safety.Next (.rowFetchDone k d true) s (fun t =>
        t = { s with mix := { s.mix with fetched := s.mix.fetched ++ [(k, d, (List.range s.nCxl).filter s.mapped)] } })) ∧
      (d < s.ns ∨ s.canFetch k = false ∨ (s.fetchedAt k d).isSome = true →
        Safety.Next (.rowFetchDone k d true) s (fun t => t = s)) ∧
      Safety.Next (.rowFetchDone k d false) s (fun t => t = s)) ∧
    (∀ (s : State) (m : Nat), m < s.nIslands → s.phase = .running → s.mix.activated = true → s.mix.unplaced = false →
      (s.on F.MIX_CTL.REBAL_EN = false → Safety.Next (.rebalance m) s (fun t => t = s)) ∧
      (s.on F.MIX_CTL.REBAL_EN = true → Safety.Next (.rebalance m) s (fun t =>
        t.lt = (s.runToNs ((s.ns / 125000 + 1) * 125000)).lt ∧
        ∃ p', SMap.look t.mix.placed s.operBank = some p' ∧
          (let p := SMap.val s.mix.placed s.operBank ⟨[], []⟩
           p'.sums.map (fun x => x.1) = p.sums.map (fun x => x.1) ∧ p'.tiles.map (fun x => x.1) = p.tiles.map (fun x => x.1)) ∧
          ∃ n, n ≤ s.fld F.MIX_REBAL.MAX_MOVES ∧ t.fld F.ENG_MOVES m = min (s.fld F.ENG_MOVES m + n) (2 ^ 32 - 1))))

/-- Every command goes on to a next state; one at an absent unit changes nothing. Every command goes on to a next state
in every state, and one that names a port, an engine island, a CXL port, a DMA channel or a panel port that the part
does not have leaves the state as it was: nothing of an absent unit exists to change (log 13). No command is
refused, and none ends in a fault. (R3, R6, 00_scope.md) -/
def Obligations.EveryCommandRuns : Prop :=
  ∀ (c : Instr) (s : State),
    (∃ t, exec c s = .next t) ∧ (Safety.absent s c = true → exec c s = .next s)
end

