-- ==== Sys2Proof/Laws/Maps.lean ====
section
/-! SUPPORT. Laws of the sparse maps: a read after a write, and the one canonical form that every map operation keeps. -/

namespace Sys2Proof.Laws

open Sys2Proof Sys2Proof.Machine

variable {α : Type}

@[simp] theorem look_put_same (m : SMap α) (k : Nat) (v : α) : SMap.look (SMap.put m k v) k = some v := by
  induction m with
  | nil => simp [SMap.put, SMap.look]
  | cons e r ih =>
    obtain ⟨j, w⟩ := e
    unfold SMap.put
    split
    · simp [SMap.look]
    · split <;> simp_all [SMap.look]

theorem look_put_ne (m : SMap α) (k k' : Nat) (v : α) (h : k' ≠ k) :
    SMap.look (SMap.put m k v) k' = SMap.look m k' := by
  induction m with
  | nil => simp [SMap.put, SMap.look, Ne.symm h]
  | cons e r ih =>
    obtain ⟨j, w⟩ := e
    unfold SMap.put
    split
    · simp [SMap.look, Ne.symm h]
    · split
      · subst j; simp [SMap.look, Ne.symm h]
      · simp [SMap.look, ih]

@[simp] theorem look_del_same (m : SMap α) (k : Nat) : SMap.look (SMap.del m k) k = none := by
  induction m with
  | nil => rfl
  | cons e r ih =>
    obtain ⟨j, w⟩ := e
    unfold SMap.del
    split <;> simp_all [SMap.look]

theorem look_del_ne (m : SMap α) (k k' : Nat) (h : k' ≠ k) : SMap.look (SMap.del m k) k' = SMap.look m k' := by
  induction m with
  | nil => rfl
  | cons e r ih =>
    obtain ⟨j, w⟩ := e
    unfold SMap.del
    split
    · subst j; simp [SMap.look, Ne.symm h, ih]
    · simp [SMap.look, ih]

@[simp] theorem val_putD_same [DecidableEq α] (m : SMap α) (k : Nat) (v d : α) :
    SMap.val (SMap.putD m k v d) k d = v := by
  unfold SMap.putD SMap.val
  split <;> simp_all

theorem look_putD_ne [DecidableEq α] (m : SMap α) (k k' : Nat) (v d : α) (h : k' ≠ k) :
    SMap.look (SMap.putD m k v d) k' = SMap.look m k' := by
  unfold SMap.putD
  split
  · exact look_del_ne m k k' h
  · exact look_put_ne m k k' v h

theorem val_putD_ne [DecidableEq α] (m : SMap α) (k k' : Nat) (v d d' : α) (h : k' ≠ k) :
    SMap.val (SMap.putD m k v d) k' d' = SMap.val m k' d' := by
  unfold SMap.val; rw [look_putD_ne m k k' v d h]

/-! ### The canonical form -/

theorem rising_mono (m : SMap α) (a b : Nat) (hab : a ≤ b) (h : SMap.rising b m = true) : SMap.rising a m = true := by
  cases m with
  | nil => rfl
  | cons e r => simp [SMap.rising] at h ⊢; exact ⟨by omega, h.2⟩

theorem rising_put (m : SMap α) (lo k : Nat) (v : α) (hk : lo ≤ k) (h : SMap.rising lo m = true) :
    SMap.rising lo (SMap.put m k v) = true := by
  induction m generalizing lo with
  | nil => simp [SMap.put, SMap.rising, hk]
  | cons e r ih =>
    obtain ⟨j, w⟩ := e
    simp [SMap.rising] at h
    unfold SMap.put
    split
    · simp [SMap.rising, h.2, hk]; omega
    · split
      · simp_all [SMap.rising]
      · simp [SMap.rising, h.1]
        exact ih (j + 1) (by omega) h.2

theorem rising_del (m : SMap α) (lo k : Nat) (h : SMap.rising lo m = true) :
    SMap.rising lo (SMap.del m k) = true := by
  induction m generalizing lo with
  | nil => rfl
  | cons e r ih =>
    obtain ⟨j, w⟩ := e
    simp [SMap.rising] at h
    unfold SMap.del
    split
    · exact rising_mono _ lo (j + 1) (by omega) (ih (j + 1) h.2)
    · simp [SMap.rising, h.1]; exact ih (j + 1) h.2

theorem wf_put (m : SMap α) (k : Nat) (v : α) (h : SMap.wf m = true) : SMap.wf (SMap.put m k v) = true :=
  rising_put m 0 k v (by omega) h

theorem wf_del (m : SMap α) (k : Nat) (h : SMap.wf m = true) : SMap.wf (SMap.del m k) = true := rising_del m 0 k h

theorem wf_putD [DecidableEq α] (m : SMap α) (k : Nat) (v d : α) (h : SMap.wf m = true) :
    SMap.wf (SMap.putD m k v d) = true := by
  unfold SMap.putD
  split
  · exact wf_del m k h
  · exact wf_put m k v h

theorem lean_del [DecidableEq α] (d : α) (m : SMap α) (k : Nat) (h : Safety.lean d m = true) :
    Safety.lean d (SMap.del m k) = true := by
  induction m with
  | nil => rfl
  | cons e r ih =>
    obtain ⟨j, w⟩ := e
    simp [Safety.lean] at h ih ⊢
    unfold SMap.del
    split
    · exact ih h.2
    · intro a b hab
      rw [List.mem_cons] at hab
      rcases hab with hab | hab
      · simp_all
      · exact ih h.2 a b hab

theorem lean_put [DecidableEq α] (d : α) (m : SMap α) (k : Nat) (v : α) (hv : v ≠ d) (h : Safety.lean d m = true) :
    Safety.lean d (SMap.put m k v) = true := by
  induction m with
  | nil => simp [Safety.lean, SMap.put, hv]
  | cons e r ih =>
    obtain ⟨j, w⟩ := e
    simp only [Safety.lean, List.all_cons, Bool.and_eq_true] at h ih ⊢
    unfold SMap.put
    split
    · simp only [List.all_cons, Bool.and_eq_true]; exact ⟨by simp [hv], h⟩
    · split
      · simp only [List.all_cons, Bool.and_eq_true]; exact ⟨by simp [hv], h.2⟩
      · simp only [List.all_cons, Bool.and_eq_true]; exact ⟨h.1, ih h.2⟩

/-- A write keeps a map in its canonical form. -/
theorem canon_putD [DecidableEq α] (d : α) (m : SMap α) (k : Nat) (v : α) (h : Safety.canon d m = true) :
    Safety.canon d (SMap.putD m k v d) = true := by
  simp only [Safety.canon, Bool.and_eq_true] at h ⊢
  refine ⟨wf_putD m k v d h.1, ?_⟩
  unfold SMap.putD
  split
  · exact lean_del d m k h.2
  · exact lean_put d m k v ‹_› h.2

/-! ### Memories of attached devices -/

theorem canon_cellWrite (m : List Host.Cell) (a : Nat) (b : Byte) (h : Safety.canon 0#8 m = true) :
    Safety.canon 0#8 (cellWrite m a b) = true := canon_putD 0#8 m a b h

theorem canon_cellsWrite (m : List Host.Cell) (a : Nat) (l : List Byte) (h : Safety.canon 0#8 m = true) :
    Safety.canon 0#8 (cellsWrite m a l) = true := by
  induction l generalizing m a with
  | nil => exact h
  | cons b r ih => exact ih _ _ (canon_cellWrite m a b h)

@[simp] theorem cellRead_cellWrite_same (m : List Host.Cell) (a : Nat) (b : Byte) : cellRead (cellWrite m a b) a = b :=
  val_putD_same m a b 0#8

theorem cellRead_cellWrite_ne (m : List Host.Cell) (a a' : Nat) (b : Byte) (h : a' ≠ a) :
    cellRead (cellWrite m a b) a' = cellRead m a' := val_putD_ne m a a' b 0#8 0#8 h

/-- Writing bytes leaves every address outside them as it was. -/
theorem cellRead_cellsWrite_out (m : List Host.Cell) (a a' : Nat) (l : List Byte) (h : a' < a ∨ a + l.length ≤ a') :
    cellRead (cellsWrite m a l) a' = cellRead m a' := by
  induction l generalizing m a with
  | nil => rfl
  | cons b r ih =>
    simp only [List.length_cons] at h
    unfold cellsWrite
    rw [ih _ _ (by omega), cellRead_cellWrite_ne _ _ _ _ (by omega)]

end Sys2Proof.Laws
end

