-- ==== Sys2Proof/Laws/Bytes.lean ====
section
/-! SUPPORT. Laws of byte lists, of memories read and written by bytes, and of the CRC-32. -/

namespace Sys2Proof.Laws

open Sys2Proof Sys2Proof.Machine

@[simp] theorem length_leBytes (n v : Nat) : (leBytes n v).length = n := by
  induction n generalizing v with
  | zero => rfl
  | succ n ih => simp [leBytes, ih]

/-- A number laid out in `n` bytes reads back modulo 256^n. -/
theorem leNum_leBytes (n v : Nat) : leNum (leBytes n v) = v % 256 ^ n := by
  induction n generalizing v with
  | zero => simp [leBytes, leNum, Nat.mod_one]
  | succ n ih =>
    have h : leNum (leBytes (n + 1) v) = v % 256 + 256 * leNum (leBytes n (v / 256)) := by
      simp [leBytes, leNum]
    rw [h, ih, Nat.pow_succ, Nat.mul_comm (256 ^ n) 256, Nat.mod_mul]

@[simp] theorem length_cellsRead (m : List Host.Cell) (a n : Nat) : (cellsRead m a n).length = n := by
  induction n generalizing a with
  | zero => rfl
  | succ n ih => simp [cellsRead, ih]

/-- Two memories that agree on a range read the same there. -/
theorem cellsRead_congr (m m' : List Host.Cell) (a n : Nat) (h : ∀ b, a ≤ b → b < a + n → cellRead m b = cellRead m' b) :
    cellsRead m a n = cellsRead m' a n := by
  induction n generalizing a with
  | zero => rfl
  | succ n ih =>
    simp only [cellsRead]
    rw [h a (by omega) (by omega), ih (a + 1) (fun b h1 h2 => h b (by omega) (by omega))]

/-- A range reads as the bytes written to it. -/
theorem cellsRead_cellsWrite (m : List Host.Cell) (a : Nat) (l : List Byte) :
    cellsRead (cellsWrite m a l) a l.length = l := by
  induction l generalizing m a with
  | nil => rfl
  | cons b r ih =>
    simp only [List.length_cons, cellsRead, cellsWrite, ih]
    rw [cellRead_cellsWrite_out _ _ _ _ (by omega), cellRead_cellWrite_same]

theorem crcBit_lt (c : Nat) (h : c < 2 ^ 32) : crcBit c < 2 ^ 32 := by
  unfold crcBit
  split
  · exact Nat.xor_lt_two_pow (by omega) (by omega)
  · omega

theorem crcOctet_lt (c : Nat) (b : Byte) (h : c < 2 ^ 32) : crcOctet c b < 2 ^ 32 :=
  crcBit_lt _ (crcBit_lt _ (crcBit_lt _ (crcBit_lt _ (crcBit_lt _ (crcBit_lt _ (crcBit_lt _ (crcBit_lt _
    (Nat.xor_lt_two_pow h (by have := b.isLt; omega)))))))))

/-- A CRC-32 has 32 bits. -/
theorem crc32_lt (l : List Byte) : crc32 l < 2 ^ 32 := by
  have : ∀ (l : List Byte) (c : Nat), c < 2 ^ 32 → l.foldl crcOctet c < 2 ^ 32 := by
    intro l
    induction l with
    | nil => intro c h; exact h
    | cons b r ih => intro c h; exact ih _ (crcOctet_lt c b h)
  exact Nat.xor_lt_two_pow (this l _ (by omega)) (by omega)

end Sys2Proof.Laws
end

