-- ==== Sys2Proof/Laws/Drain.lean ====
section
/-! SUPPORT. The drain order (R34): what transmission selection reads is nothing of a later stage. -/

namespace Sys2Proof.Laws

open Sys2Proof Sys2Proof.Machine

variable (s v : State)

theorem clauseWalk_behind (p b x n i d) : (Safety.behind s v).clauseWalk p b x n i d = s.clauseWalk p b x n i d := by
  induction n generalizing i d with
  | zero => rfl
  | succ n ih => unfold State.clauseWalk; simp only [ih]; rfl
theorem senPos_behind (p t) : (Safety.behind s v).senPos p t = s.senPos p t := by
  unfold State.senPos
  rw [show (Safety.behind s v).sentAt p t = s.sentAt p t from rfl]
  cases s.sentAt p t with
  | none => rfl
  | some x =>
    have : (Safety.behind s v).swapAfter p t = s.swapAfter p t := rfl
    simp only [clauseWalk_behind, this]; rfl
theorem senSegs_behind (p l k t) : (Safety.behind s v).senSegs p l k t = s.senSegs p l k t := by
  induction k generalizing t with
  | zero => rfl
  | succ n ih => unfold State.senSegs; simp only [ih, senPos_behind]
theorem ahead_behind (p t l) : (Safety.behind s v).ahead p t l = s.ahead p t l := senSegs_behind ..
theorem lastOp_behind (p b d l) : (Safety.behind s v).lastOp p b d l = s.lastOp p b d l := by
  induction l with
  | nil => rfl
  | cons i r ih => unfold State.lastOp; rw [ih]; rfl
theorem portNt_behind (p t) : (Safety.behind s v).portNt p t = s.portNt p t := rfl
theorem gatesAt_behind (p t) : (Safety.behind s v).gatesAt p t = s.gatesAt p t := by
  unfold State.gatesAt; simp only [senPos_behind]; rfl
theorem holdClauses_behind (p t) : (Safety.behind s v).holdClauses p t = s.holdClauses p t := by
  unfold State.holdClauses
  rw [show (Safety.behind s v).sentAt p t = s.sentAt p t from rfl]
  cases s.sentAt p t with
  | none => rfl
  | some x => simp only [senPos_behind, lastOp_behind]
theorem holdAt_behind (p t) : (Safety.behind s v).holdAt p t = s.holdAt p t := by
  unfold State.holdAt; simp only [holdClauses_behind, State.nextSetHold, ahead_behind]; rfl
theorem nextClose_behind (p c t l) : (Safety.behind s v).nextClose p c t l = s.nextClose p c t l := by
  unfold State.nextClose; simp only [ahead_behind]
theorem nextHold_behind (p t l) : (Safety.behind s v).nextHold p t l = s.nextHold p t l := by
  unfold State.nextHold State.nextSetHold State.nextHeld; simp only [ahead_behind, holdClauses_behind]; rfl
theorem closePre_behind (p c t l) : (Safety.behind s v).closePre p c t l = s.closePre p c t l := by
  unfold State.closePre; simp only [nextClose_behind, nextHold_behind]
theorem gateNs_behind (p t) : (Safety.behind s v).gateNs p t = s.gateNs p t := rfl
theorem lookLimit_behind (p t) : (Safety.behind s v).lookLimit p t = s.lookLimit p t := rfl
theorem shedStop_behind (p) : (Safety.behind s v).shedStop p = s.shedStop p := rfl
theorem ringSpan_behind (p t) : (Safety.behind s v).ringSpan p t = s.ringSpan p t := rfl
theorem octetLt_behind (p) : (Safety.behind s v).octetLt p = s.octetLt p := rfl
theorem ltWithin_behind (t) : (Safety.behind s v).ltWithin t = s.ltWithin t := rfl
theorem cutBefore_behind (p) : (Safety.behind s v).cutBefore p = s.cutBefore p := rfl
theorem fitAs_behind (p c l t b) : (Safety.behind s v).fitAs p c l t b = s.fitAs p c l t b := by
  unfold State.fitAs; simp only [portNt_behind, lookLimit_behind, shedStop_behind, ringSpan_behind, octetLt_behind, ltWithin_behind,
    cutBefore_behind, nextClose_behind, closePre_behind, gateNs_behind]; rfl
theorem fit_behind (p c l t) : (Safety.behind s v).fit p c l t = s.fit p c l t := fitAs_behind ..
theorem fcHeld_behind (p c t) : (Safety.behind s v).fcHeld p c t = s.fcHeld p c t := rfl
theorem preempts_behind (p c) : (Safety.behind s v).preempts p c = s.preempts p c := rfl
theorem fbit_behind (f c p) : (Safety.behind s v).fbit f c p = s.fbit f c p := rfl
theorem fld_behind (f c p) : (Safety.behind s v).fld f c p = s.fld f c p := rfl
theorem creditAt_behind (p c t) : (Safety.behind s v).creditAt p c t = s.creditAt p c t := rfl
theorem classOpen_behind (p c t) : (Safety.behind s v).classOpen p c t = s.classOpen p c t := by
  unfold State.classOpen; simp only [portNt_behind, gatesAt_behind, holdAt_behind, fcHeld_behind, preempts_behind, fbit_behind, fld_behind,
    creditAt_behind]; rfl
theorem headAt_behind (p k t x) : (Safety.behind s v).headAt p k t x = s.headAt p k t x := rfl
theorem port_behind (p) : (Safety.behind s v).port p = s.port p := rfl
theorem pick_behind (p c t) : (Safety.behind s v).pick p c t = s.pick p c t := by
  unfold State.pick; simp only [classOpen_behind, headAt_behind, fit_behind, port_behind]
theorem pickClass_behind (p t g) : (Safety.behind s v).pickClass p t g = s.pickClass p t g := by
  unfold State.pickClass; simp only [pick_behind]
theorem dataMay_behind (p) : (Safety.behind s v).dataMay p = s.dataMay p := rfl
theorem express_behind (p c) : (Safety.behind s v).express p c = s.express p c := rfl
theorem pickExpress_behind (p t) : (Safety.behind s v).pickExpress p t = s.pickExpress p t := by
  unfold State.pickExpress; simp only [pickClass_behind, dataMay_behind, express_behind]
theorem calEnd_behind (p t) : (Safety.behind s v).calEnd p t = s.calEnd p t := by
  unfold State.calEnd; simp only [ahead_behind, portNt_behind, lookLimit_behind]
theorem beforeSegment_behind (p t o) : (Safety.behind s v).beforeSegment p t o = s.beforeSegment p t o := rfl
theorem beforeShed_behind (p t o) : (Safety.behind s v).beforeShed p t o = s.beforeShed p t o := rfl
theorem concordMay_behind (p t o) : (Safety.behind s v).concordMay p t o = s.concordMay p t o := rfl
theorem gain_behind (t) : (Safety.behind s v).gain t = s.gain t := rfl
theorem dueMay_behind (p t c) : (Safety.behind s v).dueMay p t c = s.dueMay p t c := by
  unfold State.dueMay; simp only [beforeSegment_behind, beforeShed_behind, concordMay_behind, gain_behind, calEnd_behind,
    pickExpress_behind, portNt_behind, octetLt_behind]; rfl
theorem pickDue_behind (p t) : (Safety.behind s v).pickDue p t = s.pickDue p t := by
  unfold State.pickDue
  have : (Safety.behind s v).dueMay p t = s.dueMay p t := funext (dueMay_behind s v p t)
  have h : (Safety.behind s v).controlMay = s.controlMay := rfl
  simp only [this, port_behind, h]
theorem pickControl_behind (p t) : (Safety.behind s v).pickControl p t = s.pickControl p t := by
  unfold State.pickControl
  have h : ∀ x, (Safety.behind s v).controlOpen p t x = s.controlOpen p t x := by
    intro x; unfold State.controlOpen; simp only [gatesAt_behind]; rfl
  simp only [port_behind, h, fitAs_behind]
theorem pickResume_behind (p t) : (Safety.behind s v).pickResume p t = s.pickResume p t := by
  unfold State.pickResume; simp only [port_behind, fit_behind, gatesAt_behind, holdAt_behind, portNt_behind, dataMay_behind]
theorem pickPreemptable_behind (p t) : (Safety.behind s v).pickPreemptable p t = s.pickPreemptable p t := by
  unfold State.pickPreemptable; simp only [pickClass_behind, dataMay_behind, express_behind, port_behind]

end Sys2Proof.Laws
end

