-- ==== Sys2Proof/Laws/State.lean ====
section
/-! SUPPORT. What each update of a record leaves as it was, one lemma for each field and update, and what it puts into the
field that it changes. -/

namespace Sys2Proof.Laws

open Sys2Proof Sys2Proof.Machine

variable (s : State)

/-! ### setf -/

@[simp] theorem setf_pending (f : Field) (v u i : Nat) : (s.setf f v u i).pending = s.pending := rfl
@[simp] theorem setf_fuses (f : Field) (v u i : Nat) : (s.setf f v u i).fuses = s.fuses := rfl
@[simp] theorem setf_lifecycle (f : Field) (v u i : Nat) : (s.setf f v u i).lifecycle = s.lifecycle := rfl
@[simp] theorem setf_owner (f : Field) (v u i : Nat) : (s.setf f v u i).owner = s.owner := rfl
@[simp] theorem setf_op (f : Field) (v u i : Nat) : (s.setf f v u i).op = s.op := rfl
@[simp] theorem setf_phase (f : Field) (v u i : Nat) : (s.setf f v u i).phase = s.phase := rfl
@[simp] theorem setf_porLow (f : Field) (v u i : Nat) : (s.setf f v u i).porLow = s.porLow := rfl
@[simp] theorem setf_lt (f : Field) (v u i : Nat) : (s.setf f v u i).lt = s.lt := rfl
@[simp] theorem setf_time (f : Field) (v u i : Nat) : (s.setf f v u i).time = s.time := rfl
@[simp] theorem setf_regs (f : Field) (v u i : Nat) : (s.setf f v u i).regs = SMap.putD s.regs (f.key u i) (v % 2 ^ f.width) f.rst := rfl
@[simp] theorem setf_tabs (f : Field) (v u i : Nat) : (s.setf f v u i).tabs = s.tabs := rfl
@[simp] theorem setf_sidCol (f : Field) (v u i : Nat) : (s.setf f v u i).sidCol = s.sidCol := rfl
@[simp] theorem setf_mixCol (f : Field) (v u i : Nat) : (s.setf f v u i).mixCol = s.mixCol := rfl
@[simp] theorem setf_conCol (f : Field) (v u i : Nat) : (s.setf f v u i).conCol = s.conCol := rfl
@[simp] theorem setf_cxmCol (f : Field) (v u i : Nat) : (s.setf f v u i).cxmCol = s.cxmCol := rfl
@[simp] theorem setf_bad (f : Field) (v u i : Nat) : (s.setf f v u i).bad = s.bad := rfl
@[simp] theorem setf_flt (f : Field) (v u i : Nat) : (s.setf f v u i).flt = s.flt := rfl
@[simp] theorem setf_host (f : Field) (v u i : Nat) : (s.setf f v u i).host = s.host := rfl
@[simp] theorem setf_wide (f : Field) (v u i : Nat) : (s.setf f v u i).wide = s.wide := rfl
@[simp] theorem setf_frames (f : Field) (v u i : Nat) : (s.setf f v u i).frames = s.frames := rfl
@[simp] theorem setf_nextId (f : Field) (v u i : Nat) : (s.setf f v u i).nextId = s.nextId := rfl
@[simp] theorem setf_xing (f : Field) (v u i : Nat) : (s.setf f v u i).xing = s.xing := rfl
@[simp] theorem setf_inbox (f : Field) (v u i : Nat) : (s.setf f v u i).inbox = s.inbox := rfl
@[simp] theorem setf_arrived (f : Field) (v u i : Nat) : (s.setf f v u i).arrived = s.arrived := rfl
@[simp] theorem setf_ports (f : Field) (v u i : Nat) : (s.setf f v u i).ports = s.ports := rfl
@[simp] theorem setf_islands (f : Field) (v u i : Nat) : (s.setf f v u i).islands = s.islands := rfl
@[simp] theorem setf_panels (f : Field) (v u i : Nat) : (s.setf f v u i).panels = s.panels := rfl
@[simp] theorem setf_meters (f : Field) (v u i : Nat) : (s.setf f v u i).meters = s.meters := rfl
@[simp] theorem setf_recs (f : Field) (v u i : Nat) : (s.setf f v u i).recs = s.recs := rfl
@[simp] theorem setf_captures (f : Field) (v u i : Nat) : (s.setf f v u i).captures = s.captures := rfl
@[simp] theorem setf_lines (f : Field) (v u i : Nat) : (s.setf f v u i).lines = s.lines := rfl
@[simp] theorem setf_mix (f : Field) (v u i : Nat) : (s.setf f v u i).mix = s.mix := rfl
@[simp] theorem setf_con (f : Field) (v u i : Nat) : (s.setf f v u i).con = s.con := rfl
@[simp] theorem setf_cxl (f : Field) (v u i : Nat) : (s.setf f v u i).cxl = s.cxl := rfl
@[simp] theorem setf_raw (f : Field) (v u i : Nat) : (s.setf f v u i).raw = s.raw := rfl
@[simp] theorem setf_chans (f : Field) (v u i : Nat) : (s.setf f v u i).chans = s.chans := rfl
@[simp] theorem setf_lastCh (f : Field) (v u i : Nat) : (s.setf f v u i).lastCh = s.lastCh := rfl
@[simp] theorem setf_pwr (f : Field) (v u i : Nat) : (s.setf f v u i).pwr = s.pwr := rfl
@[simp] theorem setf_pair (f : Field) (v u i : Nat) : (s.setf f v u i).pair = s.pair := rfl
@[simp] theorem setf_bst (f : Field) (v u i : Nat) : (s.setf f v u i).bst = s.bst := rfl
@[simp] theorem setf_draws (f : Field) (v u i : Nat) : (s.setf f v u i).draws = s.draws := rfl
@[simp] theorem setf_board (f : Field) (v u i : Nat) : (s.setf f v u i).board = s.board := rfl
@[simp] theorem setf_copies (f : Field) (v u i : Nat) : (s.setf f v u i).copies = s.copies := rfl
@[simp] theorem setf_unblocks (f : Field) (v u i : Nat) : (s.setf f v u i).unblocks = s.unblocks := rfl

/-! ### bump -/

@[simp] theorem bump_pending (f : Field) (u i n : Nat) : (s.bump f u i n).pending = s.pending := rfl
@[simp] theorem bump_fuses (f : Field) (u i n : Nat) : (s.bump f u i n).fuses = s.fuses := rfl
@[simp] theorem bump_lifecycle (f : Field) (u i n : Nat) : (s.bump f u i n).lifecycle = s.lifecycle := rfl
@[simp] theorem bump_owner (f : Field) (u i n : Nat) : (s.bump f u i n).owner = s.owner := rfl
@[simp] theorem bump_op (f : Field) (u i n : Nat) : (s.bump f u i n).op = s.op := rfl
@[simp] theorem bump_phase (f : Field) (u i n : Nat) : (s.bump f u i n).phase = s.phase := rfl
@[simp] theorem bump_porLow (f : Field) (u i n : Nat) : (s.bump f u i n).porLow = s.porLow := rfl
@[simp] theorem bump_lt (f : Field) (u i n : Nat) : (s.bump f u i n).lt = s.lt := rfl
@[simp] theorem bump_time (f : Field) (u i n : Nat) : (s.bump f u i n).time = s.time := rfl
@[simp] theorem bump_tabs (f : Field) (u i n : Nat) : (s.bump f u i n).tabs = s.tabs := rfl
@[simp] theorem bump_sidCol (f : Field) (u i n : Nat) : (s.bump f u i n).sidCol = s.sidCol := rfl
@[simp] theorem bump_mixCol (f : Field) (u i n : Nat) : (s.bump f u i n).mixCol = s.mixCol := rfl
@[simp] theorem bump_conCol (f : Field) (u i n : Nat) : (s.bump f u i n).conCol = s.conCol := rfl
@[simp] theorem bump_cxmCol (f : Field) (u i n : Nat) : (s.bump f u i n).cxmCol = s.cxmCol := rfl
@[simp] theorem bump_bad (f : Field) (u i n : Nat) : (s.bump f u i n).bad = s.bad := rfl
@[simp] theorem bump_flt (f : Field) (u i n : Nat) : (s.bump f u i n).flt = s.flt := rfl
@[simp] theorem bump_host (f : Field) (u i n : Nat) : (s.bump f u i n).host = s.host := rfl
@[simp] theorem bump_wide (f : Field) (u i n : Nat) : (s.bump f u i n).wide = s.wide := rfl
@[simp] theorem bump_frames (f : Field) (u i n : Nat) : (s.bump f u i n).frames = s.frames := rfl
@[simp] theorem bump_nextId (f : Field) (u i n : Nat) : (s.bump f u i n).nextId = s.nextId := rfl
@[simp] theorem bump_xing (f : Field) (u i n : Nat) : (s.bump f u i n).xing = s.xing := rfl
@[simp] theorem bump_inbox (f : Field) (u i n : Nat) : (s.bump f u i n).inbox = s.inbox := rfl
@[simp] theorem bump_arrived (f : Field) (u i n : Nat) : (s.bump f u i n).arrived = s.arrived := rfl
@[simp] theorem bump_ports (f : Field) (u i n : Nat) : (s.bump f u i n).ports = s.ports := rfl
@[simp] theorem bump_islands (f : Field) (u i n : Nat) : (s.bump f u i n).islands = s.islands := rfl
@[simp] theorem bump_panels (f : Field) (u i n : Nat) : (s.bump f u i n).panels = s.panels := rfl
@[simp] theorem bump_meters (f : Field) (u i n : Nat) : (s.bump f u i n).meters = s.meters := rfl
@[simp] theorem bump_recs (f : Field) (u i n : Nat) : (s.bump f u i n).recs = s.recs := rfl
@[simp] theorem bump_captures (f : Field) (u i n : Nat) : (s.bump f u i n).captures = s.captures := rfl
@[simp] theorem bump_lines (f : Field) (u i n : Nat) : (s.bump f u i n).lines = s.lines := rfl
@[simp] theorem bump_mix (f : Field) (u i n : Nat) : (s.bump f u i n).mix = s.mix := rfl
@[simp] theorem bump_con (f : Field) (u i n : Nat) : (s.bump f u i n).con = s.con := rfl
@[simp] theorem bump_cxl (f : Field) (u i n : Nat) : (s.bump f u i n).cxl = s.cxl := rfl
@[simp] theorem bump_raw (f : Field) (u i n : Nat) : (s.bump f u i n).raw = s.raw := rfl
@[simp] theorem bump_chans (f : Field) (u i n : Nat) : (s.bump f u i n).chans = s.chans := rfl
@[simp] theorem bump_lastCh (f : Field) (u i n : Nat) : (s.bump f u i n).lastCh = s.lastCh := rfl
@[simp] theorem bump_pwr (f : Field) (u i n : Nat) : (s.bump f u i n).pwr = s.pwr := rfl
@[simp] theorem bump_pair (f : Field) (u i n : Nat) : (s.bump f u i n).pair = s.pair := rfl
@[simp] theorem bump_bst (f : Field) (u i n : Nat) : (s.bump f u i n).bst = s.bst := rfl
@[simp] theorem bump_draws (f : Field) (u i n : Nat) : (s.bump f u i n).draws = s.draws := rfl
@[simp] theorem bump_board (f : Field) (u i n : Nat) : (s.bump f u i n).board = s.board := rfl
@[simp] theorem bump_copies (f : Field) (u i n : Nat) : (s.bump f u i n).copies = s.copies := rfl
@[simp] theorem bump_unblocks (f : Field) (u i n : Nat) : (s.bump f u i n).unblocks = s.unblocks := rfl

/-! ### setBit -/

@[simp] theorem setBit_pending (f : Field) (b : Nat) (x : Bool) (u i : Nat) : (s.setBit f b x u i).pending = s.pending := rfl
@[simp] theorem setBit_fuses (f : Field) (b : Nat) (x : Bool) (u i : Nat) : (s.setBit f b x u i).fuses = s.fuses := rfl
@[simp] theorem setBit_lifecycle (f : Field) (b : Nat) (x : Bool) (u i : Nat) : (s.setBit f b x u i).lifecycle = s.lifecycle := rfl
@[simp] theorem setBit_owner (f : Field) (b : Nat) (x : Bool) (u i : Nat) : (s.setBit f b x u i).owner = s.owner := rfl
@[simp] theorem setBit_op (f : Field) (b : Nat) (x : Bool) (u i : Nat) : (s.setBit f b x u i).op = s.op := rfl
@[simp] theorem setBit_phase (f : Field) (b : Nat) (x : Bool) (u i : Nat) : (s.setBit f b x u i).phase = s.phase := rfl
@[simp] theorem setBit_porLow (f : Field) (b : Nat) (x : Bool) (u i : Nat) : (s.setBit f b x u i).porLow = s.porLow := rfl
@[simp] theorem setBit_lt (f : Field) (b : Nat) (x : Bool) (u i : Nat) : (s.setBit f b x u i).lt = s.lt := rfl
@[simp] theorem setBit_time (f : Field) (b : Nat) (x : Bool) (u i : Nat) : (s.setBit f b x u i).time = s.time := rfl
@[simp] theorem setBit_tabs (f : Field) (b : Nat) (x : Bool) (u i : Nat) : (s.setBit f b x u i).tabs = s.tabs := rfl
@[simp] theorem setBit_sidCol (f : Field) (b : Nat) (x : Bool) (u i : Nat) : (s.setBit f b x u i).sidCol = s.sidCol := rfl
@[simp] theorem setBit_mixCol (f : Field) (b : Nat) (x : Bool) (u i : Nat) : (s.setBit f b x u i).mixCol = s.mixCol := rfl
@[simp] theorem setBit_conCol (f : Field) (b : Nat) (x : Bool) (u i : Nat) : (s.setBit f b x u i).conCol = s.conCol := rfl
@[simp] theorem setBit_cxmCol (f : Field) (b : Nat) (x : Bool) (u i : Nat) : (s.setBit f b x u i).cxmCol = s.cxmCol := rfl
@[simp] theorem setBit_bad (f : Field) (b : Nat) (x : Bool) (u i : Nat) : (s.setBit f b x u i).bad = s.bad := rfl
@[simp] theorem setBit_flt (f : Field) (b : Nat) (x : Bool) (u i : Nat) : (s.setBit f b x u i).flt = s.flt := rfl
@[simp] theorem setBit_host (f : Field) (b : Nat) (x : Bool) (u i : Nat) : (s.setBit f b x u i).host = s.host := rfl
@[simp] theorem setBit_wide (f : Field) (b : Nat) (x : Bool) (u i : Nat) : (s.setBit f b x u i).wide = s.wide := rfl
@[simp] theorem setBit_frames (f : Field) (b : Nat) (x : Bool) (u i : Nat) : (s.setBit f b x u i).frames = s.frames := rfl
@[simp] theorem setBit_nextId (f : Field) (b : Nat) (x : Bool) (u i : Nat) : (s.setBit f b x u i).nextId = s.nextId := rfl
@[simp] theorem setBit_xing (f : Field) (b : Nat) (x : Bool) (u i : Nat) : (s.setBit f b x u i).xing = s.xing := rfl
@[simp] theorem setBit_inbox (f : Field) (b : Nat) (x : Bool) (u i : Nat) : (s.setBit f b x u i).inbox = s.inbox := rfl
@[simp] theorem setBit_arrived (f : Field) (b : Nat) (x : Bool) (u i : Nat) : (s.setBit f b x u i).arrived = s.arrived := rfl
@[simp] theorem setBit_ports (f : Field) (b : Nat) (x : Bool) (u i : Nat) : (s.setBit f b x u i).ports = s.ports := rfl
@[simp] theorem setBit_islands (f : Field) (b : Nat) (x : Bool) (u i : Nat) : (s.setBit f b x u i).islands = s.islands := rfl
@[simp] theorem setBit_panels (f : Field) (b : Nat) (x : Bool) (u i : Nat) : (s.setBit f b x u i).panels = s.panels := rfl
@[simp] theorem setBit_meters (f : Field) (b : Nat) (x : Bool) (u i : Nat) : (s.setBit f b x u i).meters = s.meters := rfl
@[simp] theorem setBit_recs (f : Field) (b : Nat) (x : Bool) (u i : Nat) : (s.setBit f b x u i).recs = s.recs := rfl
@[simp] theorem setBit_captures (f : Field) (b : Nat) (x : Bool) (u i : Nat) : (s.setBit f b x u i).captures = s.captures := rfl
@[simp] theorem setBit_lines (f : Field) (b : Nat) (x : Bool) (u i : Nat) : (s.setBit f b x u i).lines = s.lines := rfl
@[simp] theorem setBit_mix (f : Field) (b : Nat) (x : Bool) (u i : Nat) : (s.setBit f b x u i).mix = s.mix := rfl
@[simp] theorem setBit_con (f : Field) (b : Nat) (x : Bool) (u i : Nat) : (s.setBit f b x u i).con = s.con := rfl
@[simp] theorem setBit_cxl (f : Field) (b : Nat) (x : Bool) (u i : Nat) : (s.setBit f b x u i).cxl = s.cxl := rfl
@[simp] theorem setBit_raw (f : Field) (b : Nat) (x : Bool) (u i : Nat) : (s.setBit f b x u i).raw = s.raw := rfl
@[simp] theorem setBit_chans (f : Field) (b : Nat) (x : Bool) (u i : Nat) : (s.setBit f b x u i).chans = s.chans := rfl
@[simp] theorem setBit_lastCh (f : Field) (b : Nat) (x : Bool) (u i : Nat) : (s.setBit f b x u i).lastCh = s.lastCh := rfl
@[simp] theorem setBit_pwr (f : Field) (b : Nat) (x : Bool) (u i : Nat) : (s.setBit f b x u i).pwr = s.pwr := rfl
@[simp] theorem setBit_pair (f : Field) (b : Nat) (x : Bool) (u i : Nat) : (s.setBit f b x u i).pair = s.pair := rfl
@[simp] theorem setBit_bst (f : Field) (b : Nat) (x : Bool) (u i : Nat) : (s.setBit f b x u i).bst = s.bst := rfl
@[simp] theorem setBit_draws (f : Field) (b : Nat) (x : Bool) (u i : Nat) : (s.setBit f b x u i).draws = s.draws := rfl
@[simp] theorem setBit_board (f : Field) (b : Nat) (x : Bool) (u i : Nat) : (s.setBit f b x u i).board = s.board := rfl
@[simp] theorem setBit_copies (f : Field) (b : Nat) (x : Bool) (u i : Nat) : (s.setBit f b x u i).copies = s.copies := rfl
@[simp] theorem setBit_unblocks (f : Field) (b : Nat) (x : Bool) (u i : Nat) : (s.setBit f b x u i).unblocks = s.unblocks := rfl

/-! ### setTab -/

@[simp] theorem setTab_pending (k v : Nat) : (s.setTab k v).pending = s.pending := rfl
@[simp] theorem setTab_fuses (k v : Nat) : (s.setTab k v).fuses = s.fuses := rfl
@[simp] theorem setTab_lifecycle (k v : Nat) : (s.setTab k v).lifecycle = s.lifecycle := rfl
@[simp] theorem setTab_owner (k v : Nat) : (s.setTab k v).owner = s.owner := rfl
@[simp] theorem setTab_op (k v : Nat) : (s.setTab k v).op = s.op := rfl
@[simp] theorem setTab_phase (k v : Nat) : (s.setTab k v).phase = s.phase := rfl
@[simp] theorem setTab_porLow (k v : Nat) : (s.setTab k v).porLow = s.porLow := rfl
@[simp] theorem setTab_lt (k v : Nat) : (s.setTab k v).lt = s.lt := rfl
@[simp] theorem setTab_time (k v : Nat) : (s.setTab k v).time = s.time := rfl
@[simp] theorem setTab_regs (k v : Nat) : (s.setTab k v).regs = s.regs := rfl
@[simp] theorem setTab_tabs (k v : Nat) : (s.setTab k v).tabs = SMap.putD s.tabs k (BitVec.ofNat 32 v) 0#32 := rfl
@[simp] theorem setTab_sidCol (k v : Nat) : (s.setTab k v).sidCol = s.sidCol := rfl
@[simp] theorem setTab_mixCol (k v : Nat) : (s.setTab k v).mixCol = s.mixCol := rfl
@[simp] theorem setTab_conCol (k v : Nat) : (s.setTab k v).conCol = s.conCol := rfl
@[simp] theorem setTab_cxmCol (k v : Nat) : (s.setTab k v).cxmCol = s.cxmCol := rfl
@[simp] theorem setTab_bad (k v : Nat) : (s.setTab k v).bad = s.bad := rfl
@[simp] theorem setTab_flt (k v : Nat) : (s.setTab k v).flt = s.flt := rfl
@[simp] theorem setTab_host (k v : Nat) : (s.setTab k v).host = s.host := rfl
@[simp] theorem setTab_wide (k v : Nat) : (s.setTab k v).wide = s.wide := rfl
@[simp] theorem setTab_frames (k v : Nat) : (s.setTab k v).frames = s.frames := rfl
@[simp] theorem setTab_nextId (k v : Nat) : (s.setTab k v).nextId = s.nextId := rfl
@[simp] theorem setTab_xing (k v : Nat) : (s.setTab k v).xing = s.xing := rfl
@[simp] theorem setTab_inbox (k v : Nat) : (s.setTab k v).inbox = s.inbox := rfl
@[simp] theorem setTab_arrived (k v : Nat) : (s.setTab k v).arrived = s.arrived := rfl
@[simp] theorem setTab_ports (k v : Nat) : (s.setTab k v).ports = s.ports := rfl
@[simp] theorem setTab_islands (k v : Nat) : (s.setTab k v).islands = s.islands := rfl
@[simp] theorem setTab_panels (k v : Nat) : (s.setTab k v).panels = s.panels := rfl
@[simp] theorem setTab_meters (k v : Nat) : (s.setTab k v).meters = s.meters := rfl
@[simp] theorem setTab_recs (k v : Nat) : (s.setTab k v).recs = s.recs := rfl
@[simp] theorem setTab_captures (k v : Nat) : (s.setTab k v).captures = s.captures := rfl
@[simp] theorem setTab_lines (k v : Nat) : (s.setTab k v).lines = s.lines := rfl
@[simp] theorem setTab_mix (k v : Nat) : (s.setTab k v).mix = s.mix := rfl
@[simp] theorem setTab_con (k v : Nat) : (s.setTab k v).con = s.con := rfl
@[simp] theorem setTab_cxl (k v : Nat) : (s.setTab k v).cxl = s.cxl := rfl
@[simp] theorem setTab_raw (k v : Nat) : (s.setTab k v).raw = s.raw := rfl
@[simp] theorem setTab_chans (k v : Nat) : (s.setTab k v).chans = s.chans := rfl
@[simp] theorem setTab_lastCh (k v : Nat) : (s.setTab k v).lastCh = s.lastCh := rfl
@[simp] theorem setTab_pwr (k v : Nat) : (s.setTab k v).pwr = s.pwr := rfl
@[simp] theorem setTab_pair (k v : Nat) : (s.setTab k v).pair = s.pair := rfl
@[simp] theorem setTab_bst (k v : Nat) : (s.setTab k v).bst = s.bst := rfl
@[simp] theorem setTab_draws (k v : Nat) : (s.setTab k v).draws = s.draws := rfl
@[simp] theorem setTab_board (k v : Nat) : (s.setTab k v).board = s.board := rfl
@[simp] theorem setTab_copies (k v : Nat) : (s.setTab k v).copies = s.copies := rfl
@[simp] theorem setTab_unblocks (k v : Nat) : (s.setTab k v).unblocks = s.unblocks := rfl
@[simp] theorem setTab_fld (k v : Nat) (g : Field) (w j : Nat) : (s.setTab k v).fld g w j = s.fld g w j := rfl
@[simp] theorem setTab_on (k v : Nat) (g : Field) (w j : Nat) : (s.setTab k v).on g w j = s.on g w j := rfl
@[simp] theorem setTab_fbit (k v : Nat) (g : Field) (c w j : Nat) : (s.setTab k v).fbit g c w j = s.fbit g c w j := rfl

/-! ### clearBad -/

@[simp] theorem clearBad_pending (a b : Nat) : (s.clearBad a b).pending = s.pending := rfl
@[simp] theorem clearBad_fuses (a b : Nat) : (s.clearBad a b).fuses = s.fuses := rfl
@[simp] theorem clearBad_lifecycle (a b : Nat) : (s.clearBad a b).lifecycle = s.lifecycle := rfl
@[simp] theorem clearBad_owner (a b : Nat) : (s.clearBad a b).owner = s.owner := rfl
@[simp] theorem clearBad_op (a b : Nat) : (s.clearBad a b).op = s.op := rfl
@[simp] theorem clearBad_phase (a b : Nat) : (s.clearBad a b).phase = s.phase := rfl
@[simp] theorem clearBad_porLow (a b : Nat) : (s.clearBad a b).porLow = s.porLow := rfl
@[simp] theorem clearBad_lt (a b : Nat) : (s.clearBad a b).lt = s.lt := rfl
@[simp] theorem clearBad_time (a b : Nat) : (s.clearBad a b).time = s.time := rfl
@[simp] theorem clearBad_regs (a b : Nat) : (s.clearBad a b).regs = s.regs := rfl
@[simp] theorem clearBad_tabs (a b : Nat) : (s.clearBad a b).tabs = s.tabs := rfl
@[simp] theorem clearBad_sidCol (a b : Nat) : (s.clearBad a b).sidCol = s.sidCol := rfl
@[simp] theorem clearBad_mixCol (a b : Nat) : (s.clearBad a b).mixCol = s.mixCol := rfl
@[simp] theorem clearBad_conCol (a b : Nat) : (s.clearBad a b).conCol = s.conCol := rfl
@[simp] theorem clearBad_cxmCol (a b : Nat) : (s.clearBad a b).cxmCol = s.cxmCol := rfl
@[simp] theorem clearBad_flt (a b : Nat) : (s.clearBad a b).flt = s.flt := rfl
@[simp] theorem clearBad_host (a b : Nat) : (s.clearBad a b).host = s.host := rfl
@[simp] theorem clearBad_wide (a b : Nat) : (s.clearBad a b).wide = s.wide := rfl
@[simp] theorem clearBad_frames (a b : Nat) : (s.clearBad a b).frames = s.frames := rfl
@[simp] theorem clearBad_nextId (a b : Nat) : (s.clearBad a b).nextId = s.nextId := rfl
@[simp] theorem clearBad_xing (a b : Nat) : (s.clearBad a b).xing = s.xing := rfl
@[simp] theorem clearBad_inbox (a b : Nat) : (s.clearBad a b).inbox = s.inbox := rfl
@[simp] theorem clearBad_arrived (a b : Nat) : (s.clearBad a b).arrived = s.arrived := rfl
@[simp] theorem clearBad_ports (a b : Nat) : (s.clearBad a b).ports = s.ports := rfl
@[simp] theorem clearBad_islands (a b : Nat) : (s.clearBad a b).islands = s.islands := rfl
@[simp] theorem clearBad_panels (a b : Nat) : (s.clearBad a b).panels = s.panels := rfl
@[simp] theorem clearBad_meters (a b : Nat) : (s.clearBad a b).meters = s.meters := rfl
@[simp] theorem clearBad_recs (a b : Nat) : (s.clearBad a b).recs = s.recs := rfl
@[simp] theorem clearBad_captures (a b : Nat) : (s.clearBad a b).captures = s.captures := rfl
@[simp] theorem clearBad_lines (a b : Nat) : (s.clearBad a b).lines = s.lines := rfl
@[simp] theorem clearBad_mix (a b : Nat) : (s.clearBad a b).mix = s.mix := rfl
@[simp] theorem clearBad_con (a b : Nat) : (s.clearBad a b).con = s.con := rfl
@[simp] theorem clearBad_cxl (a b : Nat) : (s.clearBad a b).cxl = s.cxl := rfl
@[simp] theorem clearBad_raw (a b : Nat) : (s.clearBad a b).raw = s.raw := rfl
@[simp] theorem clearBad_chans (a b : Nat) : (s.clearBad a b).chans = s.chans := rfl
@[simp] theorem clearBad_lastCh (a b : Nat) : (s.clearBad a b).lastCh = s.lastCh := rfl
@[simp] theorem clearBad_pwr (a b : Nat) : (s.clearBad a b).pwr = s.pwr := rfl
@[simp] theorem clearBad_pair (a b : Nat) : (s.clearBad a b).pair = s.pair := rfl
@[simp] theorem clearBad_bst (a b : Nat) : (s.clearBad a b).bst = s.bst := rfl
@[simp] theorem clearBad_draws (a b : Nat) : (s.clearBad a b).draws = s.draws := rfl
@[simp] theorem clearBad_board (a b : Nat) : (s.clearBad a b).board = s.board := rfl
@[simp] theorem clearBad_copies (a b : Nat) : (s.clearBad a b).copies = s.copies := rfl
@[simp] theorem clearBad_unblocks (a b : Nat) : (s.clearBad a b).unblocks = s.unblocks := rfl
@[simp] theorem clearBad_fld (a b : Nat) (g : Field) (w j : Nat) : (s.clearBad a b).fld g w j = s.fld g w j := rfl
@[simp] theorem clearBad_on (a b : Nat) (g : Field) (w j : Nat) : (s.clearBad a b).on g w j = s.on g w j := rfl
@[simp] theorem clearBad_fbit (a b : Nat) (g : Field) (c w j : Nat) : (s.clearBad a b).fbit g c w j = s.fbit g c w j := rfl

/-! ### setPort -/

@[simp] theorem setPort_pending (p : Nat) (d : PortDyn) : (s.setPort p d).pending = s.pending := rfl
@[simp] theorem setPort_fuses (p : Nat) (d : PortDyn) : (s.setPort p d).fuses = s.fuses := rfl
@[simp] theorem setPort_lifecycle (p : Nat) (d : PortDyn) : (s.setPort p d).lifecycle = s.lifecycle := rfl
@[simp] theorem setPort_owner (p : Nat) (d : PortDyn) : (s.setPort p d).owner = s.owner := rfl
@[simp] theorem setPort_op (p : Nat) (d : PortDyn) : (s.setPort p d).op = s.op := rfl
@[simp] theorem setPort_phase (p : Nat) (d : PortDyn) : (s.setPort p d).phase = s.phase := rfl
@[simp] theorem setPort_porLow (p : Nat) (d : PortDyn) : (s.setPort p d).porLow = s.porLow := rfl
@[simp] theorem setPort_lt (p : Nat) (d : PortDyn) : (s.setPort p d).lt = s.lt := rfl
@[simp] theorem setPort_time (p : Nat) (d : PortDyn) : (s.setPort p d).time = s.time := rfl
@[simp] theorem setPort_regs (p : Nat) (d : PortDyn) : (s.setPort p d).regs = s.regs := rfl
@[simp] theorem setPort_tabs (p : Nat) (d : PortDyn) : (s.setPort p d).tabs = s.tabs := rfl
@[simp] theorem setPort_sidCol (p : Nat) (d : PortDyn) : (s.setPort p d).sidCol = s.sidCol := rfl
@[simp] theorem setPort_mixCol (p : Nat) (d : PortDyn) : (s.setPort p d).mixCol = s.mixCol := rfl
@[simp] theorem setPort_conCol (p : Nat) (d : PortDyn) : (s.setPort p d).conCol = s.conCol := rfl
@[simp] theorem setPort_cxmCol (p : Nat) (d : PortDyn) : (s.setPort p d).cxmCol = s.cxmCol := rfl
@[simp] theorem setPort_bad (p : Nat) (d : PortDyn) : (s.setPort p d).bad = s.bad := rfl
@[simp] theorem setPort_flt (p : Nat) (d : PortDyn) : (s.setPort p d).flt = s.flt := rfl
@[simp] theorem setPort_host (p : Nat) (d : PortDyn) : (s.setPort p d).host = s.host := rfl
@[simp] theorem setPort_wide (p : Nat) (d : PortDyn) : (s.setPort p d).wide = s.wide := rfl
@[simp] theorem setPort_frames (p : Nat) (d : PortDyn) : (s.setPort p d).frames = s.frames := rfl
@[simp] theorem setPort_nextId (p : Nat) (d : PortDyn) : (s.setPort p d).nextId = s.nextId := rfl
@[simp] theorem setPort_xing (p : Nat) (d : PortDyn) : (s.setPort p d).xing = s.xing := rfl
@[simp] theorem setPort_inbox (p : Nat) (d : PortDyn) : (s.setPort p d).inbox = s.inbox := rfl
@[simp] theorem setPort_arrived (p : Nat) (d : PortDyn) : (s.setPort p d).arrived = s.arrived := rfl
@[simp] theorem setPort_islands (p : Nat) (d : PortDyn) : (s.setPort p d).islands = s.islands := rfl
@[simp] theorem setPort_panels (p : Nat) (d : PortDyn) : (s.setPort p d).panels = s.panels := rfl
@[simp] theorem setPort_meters (p : Nat) (d : PortDyn) : (s.setPort p d).meters = s.meters := rfl
@[simp] theorem setPort_recs (p : Nat) (d : PortDyn) : (s.setPort p d).recs = s.recs := rfl
@[simp] theorem setPort_captures (p : Nat) (d : PortDyn) : (s.setPort p d).captures = s.captures := rfl
@[simp] theorem setPort_lines (p : Nat) (d : PortDyn) : (s.setPort p d).lines = s.lines := rfl
@[simp] theorem setPort_mix (p : Nat) (d : PortDyn) : (s.setPort p d).mix = s.mix := rfl
@[simp] theorem setPort_con (p : Nat) (d : PortDyn) : (s.setPort p d).con = s.con := rfl
@[simp] theorem setPort_cxl (p : Nat) (d : PortDyn) : (s.setPort p d).cxl = s.cxl := rfl
@[simp] theorem setPort_raw (p : Nat) (d : PortDyn) : (s.setPort p d).raw = s.raw := rfl
@[simp] theorem setPort_chans (p : Nat) (d : PortDyn) : (s.setPort p d).chans = s.chans := rfl
@[simp] theorem setPort_lastCh (p : Nat) (d : PortDyn) : (s.setPort p d).lastCh = s.lastCh := rfl
@[simp] theorem setPort_pwr (p : Nat) (d : PortDyn) : (s.setPort p d).pwr = s.pwr := rfl
@[simp] theorem setPort_pair (p : Nat) (d : PortDyn) : (s.setPort p d).pair = s.pair := rfl
@[simp] theorem setPort_bst (p : Nat) (d : PortDyn) : (s.setPort p d).bst = s.bst := rfl
@[simp] theorem setPort_draws (p : Nat) (d : PortDyn) : (s.setPort p d).draws = s.draws := rfl
@[simp] theorem setPort_board (p : Nat) (d : PortDyn) : (s.setPort p d).board = s.board := rfl
@[simp] theorem setPort_copies (p : Nat) (d : PortDyn) : (s.setPort p d).copies = s.copies := rfl
@[simp] theorem setPort_unblocks (p : Nat) (d : PortDyn) : (s.setPort p d).unblocks = s.unblocks := rfl
@[simp] theorem setPort_fld (p : Nat) (d : PortDyn) (g : Field) (w j : Nat) : (s.setPort p d).fld g w j = s.fld g w j := rfl
@[simp] theorem setPort_on (p : Nat) (d : PortDyn) (g : Field) (w j : Nat) : (s.setPort p d).on g w j = s.on g w j := rfl
@[simp] theorem setPort_fbit (p : Nat) (d : PortDyn) (g : Field) (c w j : Nat) : (s.setPort p d).fbit g c w j = s.fbit g c w j := rfl

/-! ### modPort -/

@[simp] theorem modPort_pending (p : Nat) (f : PortDyn → PortDyn) : (s.modPort p f).pending = s.pending := rfl
@[simp] theorem modPort_fuses (p : Nat) (f : PortDyn → PortDyn) : (s.modPort p f).fuses = s.fuses := rfl
@[simp] theorem modPort_lifecycle (p : Nat) (f : PortDyn → PortDyn) : (s.modPort p f).lifecycle = s.lifecycle := rfl
@[simp] theorem modPort_owner (p : Nat) (f : PortDyn → PortDyn) : (s.modPort p f).owner = s.owner := rfl
@[simp] theorem modPort_op (p : Nat) (f : PortDyn → PortDyn) : (s.modPort p f).op = s.op := rfl
@[simp] theorem modPort_phase (p : Nat) (f : PortDyn → PortDyn) : (s.modPort p f).phase = s.phase := rfl
@[simp] theorem modPort_porLow (p : Nat) (f : PortDyn → PortDyn) : (s.modPort p f).porLow = s.porLow := rfl
@[simp] theorem modPort_lt (p : Nat) (f : PortDyn → PortDyn) : (s.modPort p f).lt = s.lt := rfl
@[simp] theorem modPort_time (p : Nat) (f : PortDyn → PortDyn) : (s.modPort p f).time = s.time := rfl
@[simp] theorem modPort_regs (p : Nat) (f : PortDyn → PortDyn) : (s.modPort p f).regs = s.regs := rfl
@[simp] theorem modPort_tabs (p : Nat) (f : PortDyn → PortDyn) : (s.modPort p f).tabs = s.tabs := rfl
@[simp] theorem modPort_sidCol (p : Nat) (f : PortDyn → PortDyn) : (s.modPort p f).sidCol = s.sidCol := rfl
@[simp] theorem modPort_mixCol (p : Nat) (f : PortDyn → PortDyn) : (s.modPort p f).mixCol = s.mixCol := rfl
@[simp] theorem modPort_conCol (p : Nat) (f : PortDyn → PortDyn) : (s.modPort p f).conCol = s.conCol := rfl
@[simp] theorem modPort_cxmCol (p : Nat) (f : PortDyn → PortDyn) : (s.modPort p f).cxmCol = s.cxmCol := rfl
@[simp] theorem modPort_bad (p : Nat) (f : PortDyn → PortDyn) : (s.modPort p f).bad = s.bad := rfl
@[simp] theorem modPort_flt (p : Nat) (f : PortDyn → PortDyn) : (s.modPort p f).flt = s.flt := rfl
@[simp] theorem modPort_host (p : Nat) (f : PortDyn → PortDyn) : (s.modPort p f).host = s.host := rfl
@[simp] theorem modPort_wide (p : Nat) (f : PortDyn → PortDyn) : (s.modPort p f).wide = s.wide := rfl
@[simp] theorem modPort_frames (p : Nat) (f : PortDyn → PortDyn) : (s.modPort p f).frames = s.frames := rfl
@[simp] theorem modPort_nextId (p : Nat) (f : PortDyn → PortDyn) : (s.modPort p f).nextId = s.nextId := rfl
@[simp] theorem modPort_xing (p : Nat) (f : PortDyn → PortDyn) : (s.modPort p f).xing = s.xing := rfl
@[simp] theorem modPort_inbox (p : Nat) (f : PortDyn → PortDyn) : (s.modPort p f).inbox = s.inbox := rfl
@[simp] theorem modPort_arrived (p : Nat) (f : PortDyn → PortDyn) : (s.modPort p f).arrived = s.arrived := rfl
@[simp] theorem modPort_islands (p : Nat) (f : PortDyn → PortDyn) : (s.modPort p f).islands = s.islands := rfl
@[simp] theorem modPort_panels (p : Nat) (f : PortDyn → PortDyn) : (s.modPort p f).panels = s.panels := rfl
@[simp] theorem modPort_meters (p : Nat) (f : PortDyn → PortDyn) : (s.modPort p f).meters = s.meters := rfl
@[simp] theorem modPort_recs (p : Nat) (f : PortDyn → PortDyn) : (s.modPort p f).recs = s.recs := rfl
@[simp] theorem modPort_captures (p : Nat) (f : PortDyn → PortDyn) : (s.modPort p f).captures = s.captures := rfl
@[simp] theorem modPort_lines (p : Nat) (f : PortDyn → PortDyn) : (s.modPort p f).lines = s.lines := rfl
@[simp] theorem modPort_mix (p : Nat) (f : PortDyn → PortDyn) : (s.modPort p f).mix = s.mix := rfl
@[simp] theorem modPort_con (p : Nat) (f : PortDyn → PortDyn) : (s.modPort p f).con = s.con := rfl
@[simp] theorem modPort_cxl (p : Nat) (f : PortDyn → PortDyn) : (s.modPort p f).cxl = s.cxl := rfl
@[simp] theorem modPort_raw (p : Nat) (f : PortDyn → PortDyn) : (s.modPort p f).raw = s.raw := rfl
@[simp] theorem modPort_chans (p : Nat) (f : PortDyn → PortDyn) : (s.modPort p f).chans = s.chans := rfl
@[simp] theorem modPort_lastCh (p : Nat) (f : PortDyn → PortDyn) : (s.modPort p f).lastCh = s.lastCh := rfl
@[simp] theorem modPort_pwr (p : Nat) (f : PortDyn → PortDyn) : (s.modPort p f).pwr = s.pwr := rfl
@[simp] theorem modPort_pair (p : Nat) (f : PortDyn → PortDyn) : (s.modPort p f).pair = s.pair := rfl
@[simp] theorem modPort_bst (p : Nat) (f : PortDyn → PortDyn) : (s.modPort p f).bst = s.bst := rfl
@[simp] theorem modPort_draws (p : Nat) (f : PortDyn → PortDyn) : (s.modPort p f).draws = s.draws := rfl
@[simp] theorem modPort_board (p : Nat) (f : PortDyn → PortDyn) : (s.modPort p f).board = s.board := rfl
@[simp] theorem modPort_copies (p : Nat) (f : PortDyn → PortDyn) : (s.modPort p f).copies = s.copies := rfl
@[simp] theorem modPort_unblocks (p : Nat) (f : PortDyn → PortDyn) : (s.modPort p f).unblocks = s.unblocks := rfl
@[simp] theorem modPort_fld (p : Nat) (f : PortDyn → PortDyn) (g : Field) (w j : Nat) : (s.modPort p f).fld g w j = s.fld g w j := rfl
@[simp] theorem modPort_on (p : Nat) (f : PortDyn → PortDyn) (g : Field) (w j : Nat) : (s.modPort p f).on g w j = s.on g w j := rfl
@[simp] theorem modPort_fbit (p : Nat) (f : PortDyn → PortDyn) (g : Field) (c w j : Nat) : (s.modPort p f).fbit g c w j = s.fbit g c w j := rfl

/-! ### modTsu -/

@[simp] theorem modTsu_pending (p : Nat) (f : TsuDyn → TsuDyn) : (s.modTsu p f).pending = s.pending := rfl
@[simp] theorem modTsu_fuses (p : Nat) (f : TsuDyn → TsuDyn) : (s.modTsu p f).fuses = s.fuses := rfl
@[simp] theorem modTsu_lifecycle (p : Nat) (f : TsuDyn → TsuDyn) : (s.modTsu p f).lifecycle = s.lifecycle := rfl
@[simp] theorem modTsu_owner (p : Nat) (f : TsuDyn → TsuDyn) : (s.modTsu p f).owner = s.owner := rfl
@[simp] theorem modTsu_op (p : Nat) (f : TsuDyn → TsuDyn) : (s.modTsu p f).op = s.op := rfl
@[simp] theorem modTsu_phase (p : Nat) (f : TsuDyn → TsuDyn) : (s.modTsu p f).phase = s.phase := rfl
@[simp] theorem modTsu_porLow (p : Nat) (f : TsuDyn → TsuDyn) : (s.modTsu p f).porLow = s.porLow := rfl
@[simp] theorem modTsu_lt (p : Nat) (f : TsuDyn → TsuDyn) : (s.modTsu p f).lt = s.lt := rfl
@[simp] theorem modTsu_time (p : Nat) (f : TsuDyn → TsuDyn) : (s.modTsu p f).time = s.time := rfl
@[simp] theorem modTsu_regs (p : Nat) (f : TsuDyn → TsuDyn) : (s.modTsu p f).regs = s.regs := rfl
@[simp] theorem modTsu_tabs (p : Nat) (f : TsuDyn → TsuDyn) : (s.modTsu p f).tabs = s.tabs := rfl
@[simp] theorem modTsu_sidCol (p : Nat) (f : TsuDyn → TsuDyn) : (s.modTsu p f).sidCol = s.sidCol := rfl
@[simp] theorem modTsu_mixCol (p : Nat) (f : TsuDyn → TsuDyn) : (s.modTsu p f).mixCol = s.mixCol := rfl
@[simp] theorem modTsu_conCol (p : Nat) (f : TsuDyn → TsuDyn) : (s.modTsu p f).conCol = s.conCol := rfl
@[simp] theorem modTsu_cxmCol (p : Nat) (f : TsuDyn → TsuDyn) : (s.modTsu p f).cxmCol = s.cxmCol := rfl
@[simp] theorem modTsu_bad (p : Nat) (f : TsuDyn → TsuDyn) : (s.modTsu p f).bad = s.bad := rfl
@[simp] theorem modTsu_flt (p : Nat) (f : TsuDyn → TsuDyn) : (s.modTsu p f).flt = s.flt := rfl
@[simp] theorem modTsu_host (p : Nat) (f : TsuDyn → TsuDyn) : (s.modTsu p f).host = s.host := rfl
@[simp] theorem modTsu_wide (p : Nat) (f : TsuDyn → TsuDyn) : (s.modTsu p f).wide = s.wide := rfl
@[simp] theorem modTsu_frames (p : Nat) (f : TsuDyn → TsuDyn) : (s.modTsu p f).frames = s.frames := rfl
@[simp] theorem modTsu_nextId (p : Nat) (f : TsuDyn → TsuDyn) : (s.modTsu p f).nextId = s.nextId := rfl
@[simp] theorem modTsu_xing (p : Nat) (f : TsuDyn → TsuDyn) : (s.modTsu p f).xing = s.xing := rfl
@[simp] theorem modTsu_inbox (p : Nat) (f : TsuDyn → TsuDyn) : (s.modTsu p f).inbox = s.inbox := rfl
@[simp] theorem modTsu_arrived (p : Nat) (f : TsuDyn → TsuDyn) : (s.modTsu p f).arrived = s.arrived := rfl
@[simp] theorem modTsu_islands (p : Nat) (f : TsuDyn → TsuDyn) : (s.modTsu p f).islands = s.islands := rfl
@[simp] theorem modTsu_panels (p : Nat) (f : TsuDyn → TsuDyn) : (s.modTsu p f).panels = s.panels := rfl
@[simp] theorem modTsu_meters (p : Nat) (f : TsuDyn → TsuDyn) : (s.modTsu p f).meters = s.meters := rfl
@[simp] theorem modTsu_recs (p : Nat) (f : TsuDyn → TsuDyn) : (s.modTsu p f).recs = s.recs := rfl
@[simp] theorem modTsu_captures (p : Nat) (f : TsuDyn → TsuDyn) : (s.modTsu p f).captures = s.captures := rfl
@[simp] theorem modTsu_lines (p : Nat) (f : TsuDyn → TsuDyn) : (s.modTsu p f).lines = s.lines := rfl
@[simp] theorem modTsu_mix (p : Nat) (f : TsuDyn → TsuDyn) : (s.modTsu p f).mix = s.mix := rfl
@[simp] theorem modTsu_con (p : Nat) (f : TsuDyn → TsuDyn) : (s.modTsu p f).con = s.con := rfl
@[simp] theorem modTsu_cxl (p : Nat) (f : TsuDyn → TsuDyn) : (s.modTsu p f).cxl = s.cxl := rfl
@[simp] theorem modTsu_raw (p : Nat) (f : TsuDyn → TsuDyn) : (s.modTsu p f).raw = s.raw := rfl
@[simp] theorem modTsu_chans (p : Nat) (f : TsuDyn → TsuDyn) : (s.modTsu p f).chans = s.chans := rfl
@[simp] theorem modTsu_lastCh (p : Nat) (f : TsuDyn → TsuDyn) : (s.modTsu p f).lastCh = s.lastCh := rfl
@[simp] theorem modTsu_pwr (p : Nat) (f : TsuDyn → TsuDyn) : (s.modTsu p f).pwr = s.pwr := rfl
@[simp] theorem modTsu_pair (p : Nat) (f : TsuDyn → TsuDyn) : (s.modTsu p f).pair = s.pair := rfl
@[simp] theorem modTsu_bst (p : Nat) (f : TsuDyn → TsuDyn) : (s.modTsu p f).bst = s.bst := rfl
@[simp] theorem modTsu_draws (p : Nat) (f : TsuDyn → TsuDyn) : (s.modTsu p f).draws = s.draws := rfl
@[simp] theorem modTsu_board (p : Nat) (f : TsuDyn → TsuDyn) : (s.modTsu p f).board = s.board := rfl
@[simp] theorem modTsu_copies (p : Nat) (f : TsuDyn → TsuDyn) : (s.modTsu p f).copies = s.copies := rfl
@[simp] theorem modTsu_unblocks (p : Nat) (f : TsuDyn → TsuDyn) : (s.modTsu p f).unblocks = s.unblocks := rfl
@[simp] theorem modTsu_fld (p : Nat) (f : TsuDyn → TsuDyn) (g : Field) (w j : Nat) : (s.modTsu p f).fld g w j = s.fld g w j := rfl
@[simp] theorem modTsu_on (p : Nat) (f : TsuDyn → TsuDyn) (g : Field) (w j : Nat) : (s.modTsu p f).on g w j = s.on g w j := rfl
@[simp] theorem modTsu_fbit (p : Nat) (f : TsuDyn → TsuDyn) (g : Field) (c w j : Nat) : (s.modTsu p f).fbit g c w j = s.fbit g c w j := rfl

/-! ### modSen -/

@[simp] theorem modSen_pending (p : Nat) (f : SenDyn → SenDyn) : (s.modSen p f).pending = s.pending := rfl
@[simp] theorem modSen_fuses (p : Nat) (f : SenDyn → SenDyn) : (s.modSen p f).fuses = s.fuses := rfl
@[simp] theorem modSen_lifecycle (p : Nat) (f : SenDyn → SenDyn) : (s.modSen p f).lifecycle = s.lifecycle := rfl
@[simp] theorem modSen_owner (p : Nat) (f : SenDyn → SenDyn) : (s.modSen p f).owner = s.owner := rfl
@[simp] theorem modSen_op (p : Nat) (f : SenDyn → SenDyn) : (s.modSen p f).op = s.op := rfl
@[simp] theorem modSen_phase (p : Nat) (f : SenDyn → SenDyn) : (s.modSen p f).phase = s.phase := rfl
@[simp] theorem modSen_porLow (p : Nat) (f : SenDyn → SenDyn) : (s.modSen p f).porLow = s.porLow := rfl
@[simp] theorem modSen_lt (p : Nat) (f : SenDyn → SenDyn) : (s.modSen p f).lt = s.lt := rfl
@[simp] theorem modSen_time (p : Nat) (f : SenDyn → SenDyn) : (s.modSen p f).time = s.time := rfl
@[simp] theorem modSen_regs (p : Nat) (f : SenDyn → SenDyn) : (s.modSen p f).regs = s.regs := rfl
@[simp] theorem modSen_tabs (p : Nat) (f : SenDyn → SenDyn) : (s.modSen p f).tabs = s.tabs := rfl
@[simp] theorem modSen_sidCol (p : Nat) (f : SenDyn → SenDyn) : (s.modSen p f).sidCol = s.sidCol := rfl
@[simp] theorem modSen_mixCol (p : Nat) (f : SenDyn → SenDyn) : (s.modSen p f).mixCol = s.mixCol := rfl
@[simp] theorem modSen_conCol (p : Nat) (f : SenDyn → SenDyn) : (s.modSen p f).conCol = s.conCol := rfl
@[simp] theorem modSen_cxmCol (p : Nat) (f : SenDyn → SenDyn) : (s.modSen p f).cxmCol = s.cxmCol := rfl
@[simp] theorem modSen_bad (p : Nat) (f : SenDyn → SenDyn) : (s.modSen p f).bad = s.bad := rfl
@[simp] theorem modSen_flt (p : Nat) (f : SenDyn → SenDyn) : (s.modSen p f).flt = s.flt := rfl
@[simp] theorem modSen_host (p : Nat) (f : SenDyn → SenDyn) : (s.modSen p f).host = s.host := rfl
@[simp] theorem modSen_wide (p : Nat) (f : SenDyn → SenDyn) : (s.modSen p f).wide = s.wide := rfl
@[simp] theorem modSen_frames (p : Nat) (f : SenDyn → SenDyn) : (s.modSen p f).frames = s.frames := rfl
@[simp] theorem modSen_nextId (p : Nat) (f : SenDyn → SenDyn) : (s.modSen p f).nextId = s.nextId := rfl
@[simp] theorem modSen_xing (p : Nat) (f : SenDyn → SenDyn) : (s.modSen p f).xing = s.xing := rfl
@[simp] theorem modSen_inbox (p : Nat) (f : SenDyn → SenDyn) : (s.modSen p f).inbox = s.inbox := rfl
@[simp] theorem modSen_arrived (p : Nat) (f : SenDyn → SenDyn) : (s.modSen p f).arrived = s.arrived := rfl
@[simp] theorem modSen_islands (p : Nat) (f : SenDyn → SenDyn) : (s.modSen p f).islands = s.islands := rfl
@[simp] theorem modSen_panels (p : Nat) (f : SenDyn → SenDyn) : (s.modSen p f).panels = s.panels := rfl
@[simp] theorem modSen_meters (p : Nat) (f : SenDyn → SenDyn) : (s.modSen p f).meters = s.meters := rfl
@[simp] theorem modSen_recs (p : Nat) (f : SenDyn → SenDyn) : (s.modSen p f).recs = s.recs := rfl
@[simp] theorem modSen_captures (p : Nat) (f : SenDyn → SenDyn) : (s.modSen p f).captures = s.captures := rfl
@[simp] theorem modSen_lines (p : Nat) (f : SenDyn → SenDyn) : (s.modSen p f).lines = s.lines := rfl
@[simp] theorem modSen_mix (p : Nat) (f : SenDyn → SenDyn) : (s.modSen p f).mix = s.mix := rfl
@[simp] theorem modSen_con (p : Nat) (f : SenDyn → SenDyn) : (s.modSen p f).con = s.con := rfl
@[simp] theorem modSen_cxl (p : Nat) (f : SenDyn → SenDyn) : (s.modSen p f).cxl = s.cxl := rfl
@[simp] theorem modSen_raw (p : Nat) (f : SenDyn → SenDyn) : (s.modSen p f).raw = s.raw := rfl
@[simp] theorem modSen_chans (p : Nat) (f : SenDyn → SenDyn) : (s.modSen p f).chans = s.chans := rfl
@[simp] theorem modSen_lastCh (p : Nat) (f : SenDyn → SenDyn) : (s.modSen p f).lastCh = s.lastCh := rfl
@[simp] theorem modSen_pwr (p : Nat) (f : SenDyn → SenDyn) : (s.modSen p f).pwr = s.pwr := rfl
@[simp] theorem modSen_pair (p : Nat) (f : SenDyn → SenDyn) : (s.modSen p f).pair = s.pair := rfl
@[simp] theorem modSen_bst (p : Nat) (f : SenDyn → SenDyn) : (s.modSen p f).bst = s.bst := rfl
@[simp] theorem modSen_draws (p : Nat) (f : SenDyn → SenDyn) : (s.modSen p f).draws = s.draws := rfl
@[simp] theorem modSen_board (p : Nat) (f : SenDyn → SenDyn) : (s.modSen p f).board = s.board := rfl
@[simp] theorem modSen_copies (p : Nat) (f : SenDyn → SenDyn) : (s.modSen p f).copies = s.copies := rfl
@[simp] theorem modSen_unblocks (p : Nat) (f : SenDyn → SenDyn) : (s.modSen p f).unblocks = s.unblocks := rfl
@[simp] theorem modSen_fld (p : Nat) (f : SenDyn → SenDyn) (g : Field) (w j : Nat) : (s.modSen p f).fld g w j = s.fld g w j := rfl
@[simp] theorem modSen_on (p : Nat) (f : SenDyn → SenDyn) (g : Field) (w j : Nat) : (s.modSen p f).on g w j = s.on g w j := rfl
@[simp] theorem modSen_fbit (p : Nat) (f : SenDyn → SenDyn) (g : Field) (c w j : Nat) : (s.modSen p f).fbit g c w j = s.fbit g c w j := rfl

/-! ### setIsland -/

@[simp] theorem setIsland_pending (p : Nat) (d : IslandDyn) : (s.setIsland p d).pending = s.pending := rfl
@[simp] theorem setIsland_fuses (p : Nat) (d : IslandDyn) : (s.setIsland p d).fuses = s.fuses := rfl
@[simp] theorem setIsland_lifecycle (p : Nat) (d : IslandDyn) : (s.setIsland p d).lifecycle = s.lifecycle := rfl
@[simp] theorem setIsland_owner (p : Nat) (d : IslandDyn) : (s.setIsland p d).owner = s.owner := rfl
@[simp] theorem setIsland_op (p : Nat) (d : IslandDyn) : (s.setIsland p d).op = s.op := rfl
@[simp] theorem setIsland_phase (p : Nat) (d : IslandDyn) : (s.setIsland p d).phase = s.phase := rfl
@[simp] theorem setIsland_porLow (p : Nat) (d : IslandDyn) : (s.setIsland p d).porLow = s.porLow := rfl
@[simp] theorem setIsland_lt (p : Nat) (d : IslandDyn) : (s.setIsland p d).lt = s.lt := rfl
@[simp] theorem setIsland_time (p : Nat) (d : IslandDyn) : (s.setIsland p d).time = s.time := rfl
@[simp] theorem setIsland_regs (p : Nat) (d : IslandDyn) : (s.setIsland p d).regs = s.regs := rfl
@[simp] theorem setIsland_tabs (p : Nat) (d : IslandDyn) : (s.setIsland p d).tabs = s.tabs := rfl
@[simp] theorem setIsland_sidCol (p : Nat) (d : IslandDyn) : (s.setIsland p d).sidCol = s.sidCol := rfl
@[simp] theorem setIsland_mixCol (p : Nat) (d : IslandDyn) : (s.setIsland p d).mixCol = s.mixCol := rfl
@[simp] theorem setIsland_conCol (p : Nat) (d : IslandDyn) : (s.setIsland p d).conCol = s.conCol := rfl
@[simp] theorem setIsland_cxmCol (p : Nat) (d : IslandDyn) : (s.setIsland p d).cxmCol = s.cxmCol := rfl
@[simp] theorem setIsland_bad (p : Nat) (d : IslandDyn) : (s.setIsland p d).bad = s.bad := rfl
@[simp] theorem setIsland_flt (p : Nat) (d : IslandDyn) : (s.setIsland p d).flt = s.flt := rfl
@[simp] theorem setIsland_host (p : Nat) (d : IslandDyn) : (s.setIsland p d).host = s.host := rfl
@[simp] theorem setIsland_wide (p : Nat) (d : IslandDyn) : (s.setIsland p d).wide = s.wide := rfl
@[simp] theorem setIsland_frames (p : Nat) (d : IslandDyn) : (s.setIsland p d).frames = s.frames := rfl
@[simp] theorem setIsland_nextId (p : Nat) (d : IslandDyn) : (s.setIsland p d).nextId = s.nextId := rfl
@[simp] theorem setIsland_xing (p : Nat) (d : IslandDyn) : (s.setIsland p d).xing = s.xing := rfl
@[simp] theorem setIsland_inbox (p : Nat) (d : IslandDyn) : (s.setIsland p d).inbox = s.inbox := rfl
@[simp] theorem setIsland_arrived (p : Nat) (d : IslandDyn) : (s.setIsland p d).arrived = s.arrived := rfl
@[simp] theorem setIsland_ports (p : Nat) (d : IslandDyn) : (s.setIsland p d).ports = s.ports := rfl
@[simp] theorem setIsland_panels (p : Nat) (d : IslandDyn) : (s.setIsland p d).panels = s.panels := rfl
@[simp] theorem setIsland_meters (p : Nat) (d : IslandDyn) : (s.setIsland p d).meters = s.meters := rfl
@[simp] theorem setIsland_recs (p : Nat) (d : IslandDyn) : (s.setIsland p d).recs = s.recs := rfl
@[simp] theorem setIsland_captures (p : Nat) (d : IslandDyn) : (s.setIsland p d).captures = s.captures := rfl
@[simp] theorem setIsland_lines (p : Nat) (d : IslandDyn) : (s.setIsland p d).lines = s.lines := rfl
@[simp] theorem setIsland_mix (p : Nat) (d : IslandDyn) : (s.setIsland p d).mix = s.mix := rfl
@[simp] theorem setIsland_con (p : Nat) (d : IslandDyn) : (s.setIsland p d).con = s.con := rfl
@[simp] theorem setIsland_cxl (p : Nat) (d : IslandDyn) : (s.setIsland p d).cxl = s.cxl := rfl
@[simp] theorem setIsland_raw (p : Nat) (d : IslandDyn) : (s.setIsland p d).raw = s.raw := rfl
@[simp] theorem setIsland_chans (p : Nat) (d : IslandDyn) : (s.setIsland p d).chans = s.chans := rfl
@[simp] theorem setIsland_lastCh (p : Nat) (d : IslandDyn) : (s.setIsland p d).lastCh = s.lastCh := rfl
@[simp] theorem setIsland_pwr (p : Nat) (d : IslandDyn) : (s.setIsland p d).pwr = s.pwr := rfl
@[simp] theorem setIsland_pair (p : Nat) (d : IslandDyn) : (s.setIsland p d).pair = s.pair := rfl
@[simp] theorem setIsland_bst (p : Nat) (d : IslandDyn) : (s.setIsland p d).bst = s.bst := rfl
@[simp] theorem setIsland_draws (p : Nat) (d : IslandDyn) : (s.setIsland p d).draws = s.draws := rfl
@[simp] theorem setIsland_board (p : Nat) (d : IslandDyn) : (s.setIsland p d).board = s.board := rfl
@[simp] theorem setIsland_copies (p : Nat) (d : IslandDyn) : (s.setIsland p d).copies = s.copies := rfl
@[simp] theorem setIsland_unblocks (p : Nat) (d : IslandDyn) : (s.setIsland p d).unblocks = s.unblocks := rfl
@[simp] theorem setIsland_fld (p : Nat) (d : IslandDyn) (g : Field) (w j : Nat) : (s.setIsland p d).fld g w j = s.fld g w j := rfl
@[simp] theorem setIsland_on (p : Nat) (d : IslandDyn) (g : Field) (w j : Nat) : (s.setIsland p d).on g w j = s.on g w j := rfl
@[simp] theorem setIsland_fbit (p : Nat) (d : IslandDyn) (g : Field) (c w j : Nat) : (s.setIsland p d).fbit g c w j = s.fbit g c w j := rfl

/-! ### setPanel -/

@[simp] theorem setPanel_pending (p : Nat) (d : PanelDyn) : (s.setPanel p d).pending = s.pending := rfl
@[simp] theorem setPanel_fuses (p : Nat) (d : PanelDyn) : (s.setPanel p d).fuses = s.fuses := rfl
@[simp] theorem setPanel_lifecycle (p : Nat) (d : PanelDyn) : (s.setPanel p d).lifecycle = s.lifecycle := rfl
@[simp] theorem setPanel_owner (p : Nat) (d : PanelDyn) : (s.setPanel p d).owner = s.owner := rfl
@[simp] theorem setPanel_op (p : Nat) (d : PanelDyn) : (s.setPanel p d).op = s.op := rfl
@[simp] theorem setPanel_phase (p : Nat) (d : PanelDyn) : (s.setPanel p d).phase = s.phase := rfl
@[simp] theorem setPanel_porLow (p : Nat) (d : PanelDyn) : (s.setPanel p d).porLow = s.porLow := rfl
@[simp] theorem setPanel_lt (p : Nat) (d : PanelDyn) : (s.setPanel p d).lt = s.lt := rfl
@[simp] theorem setPanel_time (p : Nat) (d : PanelDyn) : (s.setPanel p d).time = s.time := rfl
@[simp] theorem setPanel_regs (p : Nat) (d : PanelDyn) : (s.setPanel p d).regs = s.regs := rfl
@[simp] theorem setPanel_tabs (p : Nat) (d : PanelDyn) : (s.setPanel p d).tabs = s.tabs := rfl
@[simp] theorem setPanel_sidCol (p : Nat) (d : PanelDyn) : (s.setPanel p d).sidCol = s.sidCol := rfl
@[simp] theorem setPanel_mixCol (p : Nat) (d : PanelDyn) : (s.setPanel p d).mixCol = s.mixCol := rfl
@[simp] theorem setPanel_conCol (p : Nat) (d : PanelDyn) : (s.setPanel p d).conCol = s.conCol := rfl
@[simp] theorem setPanel_cxmCol (p : Nat) (d : PanelDyn) : (s.setPanel p d).cxmCol = s.cxmCol := rfl
@[simp] theorem setPanel_bad (p : Nat) (d : PanelDyn) : (s.setPanel p d).bad = s.bad := rfl
@[simp] theorem setPanel_flt (p : Nat) (d : PanelDyn) : (s.setPanel p d).flt = s.flt := rfl
@[simp] theorem setPanel_host (p : Nat) (d : PanelDyn) : (s.setPanel p d).host = s.host := rfl
@[simp] theorem setPanel_wide (p : Nat) (d : PanelDyn) : (s.setPanel p d).wide = s.wide := rfl
@[simp] theorem setPanel_frames (p : Nat) (d : PanelDyn) : (s.setPanel p d).frames = s.frames := rfl
@[simp] theorem setPanel_nextId (p : Nat) (d : PanelDyn) : (s.setPanel p d).nextId = s.nextId := rfl
@[simp] theorem setPanel_xing (p : Nat) (d : PanelDyn) : (s.setPanel p d).xing = s.xing := rfl
@[simp] theorem setPanel_inbox (p : Nat) (d : PanelDyn) : (s.setPanel p d).inbox = s.inbox := rfl
@[simp] theorem setPanel_arrived (p : Nat) (d : PanelDyn) : (s.setPanel p d).arrived = s.arrived := rfl
@[simp] theorem setPanel_ports (p : Nat) (d : PanelDyn) : (s.setPanel p d).ports = s.ports := rfl
@[simp] theorem setPanel_islands (p : Nat) (d : PanelDyn) : (s.setPanel p d).islands = s.islands := rfl
@[simp] theorem setPanel_meters (p : Nat) (d : PanelDyn) : (s.setPanel p d).meters = s.meters := rfl
@[simp] theorem setPanel_recs (p : Nat) (d : PanelDyn) : (s.setPanel p d).recs = s.recs := rfl
@[simp] theorem setPanel_captures (p : Nat) (d : PanelDyn) : (s.setPanel p d).captures = s.captures := rfl
@[simp] theorem setPanel_lines (p : Nat) (d : PanelDyn) : (s.setPanel p d).lines = s.lines := rfl
@[simp] theorem setPanel_mix (p : Nat) (d : PanelDyn) : (s.setPanel p d).mix = s.mix := rfl
@[simp] theorem setPanel_con (p : Nat) (d : PanelDyn) : (s.setPanel p d).con = s.con := rfl
@[simp] theorem setPanel_cxl (p : Nat) (d : PanelDyn) : (s.setPanel p d).cxl = s.cxl := rfl
@[simp] theorem setPanel_raw (p : Nat) (d : PanelDyn) : (s.setPanel p d).raw = s.raw := rfl
@[simp] theorem setPanel_chans (p : Nat) (d : PanelDyn) : (s.setPanel p d).chans = s.chans := rfl
@[simp] theorem setPanel_lastCh (p : Nat) (d : PanelDyn) : (s.setPanel p d).lastCh = s.lastCh := rfl
@[simp] theorem setPanel_pwr (p : Nat) (d : PanelDyn) : (s.setPanel p d).pwr = s.pwr := rfl
@[simp] theorem setPanel_pair (p : Nat) (d : PanelDyn) : (s.setPanel p d).pair = s.pair := rfl
@[simp] theorem setPanel_bst (p : Nat) (d : PanelDyn) : (s.setPanel p d).bst = s.bst := rfl
@[simp] theorem setPanel_draws (p : Nat) (d : PanelDyn) : (s.setPanel p d).draws = s.draws := rfl
@[simp] theorem setPanel_board (p : Nat) (d : PanelDyn) : (s.setPanel p d).board = s.board := rfl
@[simp] theorem setPanel_copies (p : Nat) (d : PanelDyn) : (s.setPanel p d).copies = s.copies := rfl
@[simp] theorem setPanel_unblocks (p : Nat) (d : PanelDyn) : (s.setPanel p d).unblocks = s.unblocks := rfl
@[simp] theorem setPanel_fld (p : Nat) (d : PanelDyn) (g : Field) (w j : Nat) : (s.setPanel p d).fld g w j = s.fld g w j := rfl
@[simp] theorem setPanel_on (p : Nat) (d : PanelDyn) (g : Field) (w j : Nat) : (s.setPanel p d).on g w j = s.on g w j := rfl
@[simp] theorem setPanel_fbit (p : Nat) (d : PanelDyn) (g : Field) (c w j : Nat) : (s.setPanel p d).fbit g c w j = s.fbit g c w j := rfl

/-! ### setChan -/

@[simp] theorem setChan_pending (p : Nat) (d : ChDyn) : (s.setChan p d).pending = s.pending := rfl
@[simp] theorem setChan_fuses (p : Nat) (d : ChDyn) : (s.setChan p d).fuses = s.fuses := rfl
@[simp] theorem setChan_lifecycle (p : Nat) (d : ChDyn) : (s.setChan p d).lifecycle = s.lifecycle := rfl
@[simp] theorem setChan_owner (p : Nat) (d : ChDyn) : (s.setChan p d).owner = s.owner := rfl
@[simp] theorem setChan_op (p : Nat) (d : ChDyn) : (s.setChan p d).op = s.op := rfl
@[simp] theorem setChan_phase (p : Nat) (d : ChDyn) : (s.setChan p d).phase = s.phase := rfl
@[simp] theorem setChan_porLow (p : Nat) (d : ChDyn) : (s.setChan p d).porLow = s.porLow := rfl
@[simp] theorem setChan_lt (p : Nat) (d : ChDyn) : (s.setChan p d).lt = s.lt := rfl
@[simp] theorem setChan_time (p : Nat) (d : ChDyn) : (s.setChan p d).time = s.time := rfl
@[simp] theorem setChan_regs (p : Nat) (d : ChDyn) : (s.setChan p d).regs = s.regs := rfl
@[simp] theorem setChan_tabs (p : Nat) (d : ChDyn) : (s.setChan p d).tabs = s.tabs := rfl
@[simp] theorem setChan_sidCol (p : Nat) (d : ChDyn) : (s.setChan p d).sidCol = s.sidCol := rfl
@[simp] theorem setChan_mixCol (p : Nat) (d : ChDyn) : (s.setChan p d).mixCol = s.mixCol := rfl
@[simp] theorem setChan_conCol (p : Nat) (d : ChDyn) : (s.setChan p d).conCol = s.conCol := rfl
@[simp] theorem setChan_cxmCol (p : Nat) (d : ChDyn) : (s.setChan p d).cxmCol = s.cxmCol := rfl
@[simp] theorem setChan_bad (p : Nat) (d : ChDyn) : (s.setChan p d).bad = s.bad := rfl
@[simp] theorem setChan_flt (p : Nat) (d : ChDyn) : (s.setChan p d).flt = s.flt := rfl
@[simp] theorem setChan_host (p : Nat) (d : ChDyn) : (s.setChan p d).host = s.host := rfl
@[simp] theorem setChan_wide (p : Nat) (d : ChDyn) : (s.setChan p d).wide = s.wide := rfl
@[simp] theorem setChan_frames (p : Nat) (d : ChDyn) : (s.setChan p d).frames = s.frames := rfl
@[simp] theorem setChan_nextId (p : Nat) (d : ChDyn) : (s.setChan p d).nextId = s.nextId := rfl
@[simp] theorem setChan_xing (p : Nat) (d : ChDyn) : (s.setChan p d).xing = s.xing := rfl
@[simp] theorem setChan_inbox (p : Nat) (d : ChDyn) : (s.setChan p d).inbox = s.inbox := rfl
@[simp] theorem setChan_arrived (p : Nat) (d : ChDyn) : (s.setChan p d).arrived = s.arrived := rfl
@[simp] theorem setChan_ports (p : Nat) (d : ChDyn) : (s.setChan p d).ports = s.ports := rfl
@[simp] theorem setChan_islands (p : Nat) (d : ChDyn) : (s.setChan p d).islands = s.islands := rfl
@[simp] theorem setChan_panels (p : Nat) (d : ChDyn) : (s.setChan p d).panels = s.panels := rfl
@[simp] theorem setChan_meters (p : Nat) (d : ChDyn) : (s.setChan p d).meters = s.meters := rfl
@[simp] theorem setChan_recs (p : Nat) (d : ChDyn) : (s.setChan p d).recs = s.recs := rfl
@[simp] theorem setChan_captures (p : Nat) (d : ChDyn) : (s.setChan p d).captures = s.captures := rfl
@[simp] theorem setChan_lines (p : Nat) (d : ChDyn) : (s.setChan p d).lines = s.lines := rfl
@[simp] theorem setChan_mix (p : Nat) (d : ChDyn) : (s.setChan p d).mix = s.mix := rfl
@[simp] theorem setChan_con (p : Nat) (d : ChDyn) : (s.setChan p d).con = s.con := rfl
@[simp] theorem setChan_cxl (p : Nat) (d : ChDyn) : (s.setChan p d).cxl = s.cxl := rfl
@[simp] theorem setChan_raw (p : Nat) (d : ChDyn) : (s.setChan p d).raw = s.raw := rfl
@[simp] theorem setChan_lastCh (p : Nat) (d : ChDyn) : (s.setChan p d).lastCh = s.lastCh := rfl
@[simp] theorem setChan_pwr (p : Nat) (d : ChDyn) : (s.setChan p d).pwr = s.pwr := rfl
@[simp] theorem setChan_pair (p : Nat) (d : ChDyn) : (s.setChan p d).pair = s.pair := rfl
@[simp] theorem setChan_bst (p : Nat) (d : ChDyn) : (s.setChan p d).bst = s.bst := rfl
@[simp] theorem setChan_draws (p : Nat) (d : ChDyn) : (s.setChan p d).draws = s.draws := rfl
@[simp] theorem setChan_board (p : Nat) (d : ChDyn) : (s.setChan p d).board = s.board := rfl
@[simp] theorem setChan_copies (p : Nat) (d : ChDyn) : (s.setChan p d).copies = s.copies := rfl
@[simp] theorem setChan_unblocks (p : Nat) (d : ChDyn) : (s.setChan p d).unblocks = s.unblocks := rfl
@[simp] theorem setChan_fld (p : Nat) (d : ChDyn) (g : Field) (w j : Nat) : (s.setChan p d).fld g w j = s.fld g w j := rfl
@[simp] theorem setChan_on (p : Nat) (d : ChDyn) (g : Field) (w j : Nat) : (s.setChan p d).on g w j = s.on g w j := rfl
@[simp] theorem setChan_fbit (p : Nat) (d : ChDyn) (g : Field) (c w j : Nat) : (s.setChan p d).fbit g c w j = s.fbit g c w j := rfl

/-! ### setCxl -/

@[simp] theorem setCxl_pending (p : Nat) (d : CxlPort) : (s.setCxl p d).pending = s.pending := rfl
@[simp] theorem setCxl_fuses (p : Nat) (d : CxlPort) : (s.setCxl p d).fuses = s.fuses := rfl
@[simp] theorem setCxl_lifecycle (p : Nat) (d : CxlPort) : (s.setCxl p d).lifecycle = s.lifecycle := rfl
@[simp] theorem setCxl_owner (p : Nat) (d : CxlPort) : (s.setCxl p d).owner = s.owner := rfl
@[simp] theorem setCxl_op (p : Nat) (d : CxlPort) : (s.setCxl p d).op = s.op := rfl
@[simp] theorem setCxl_phase (p : Nat) (d : CxlPort) : (s.setCxl p d).phase = s.phase := rfl
@[simp] theorem setCxl_porLow (p : Nat) (d : CxlPort) : (s.setCxl p d).porLow = s.porLow := rfl
@[simp] theorem setCxl_lt (p : Nat) (d : CxlPort) : (s.setCxl p d).lt = s.lt := rfl
@[simp] theorem setCxl_time (p : Nat) (d : CxlPort) : (s.setCxl p d).time = s.time := rfl
@[simp] theorem setCxl_regs (p : Nat) (d : CxlPort) : (s.setCxl p d).regs = s.regs := rfl
@[simp] theorem setCxl_tabs (p : Nat) (d : CxlPort) : (s.setCxl p d).tabs = s.tabs := rfl
@[simp] theorem setCxl_sidCol (p : Nat) (d : CxlPort) : (s.setCxl p d).sidCol = s.sidCol := rfl
@[simp] theorem setCxl_mixCol (p : Nat) (d : CxlPort) : (s.setCxl p d).mixCol = s.mixCol := rfl
@[simp] theorem setCxl_conCol (p : Nat) (d : CxlPort) : (s.setCxl p d).conCol = s.conCol := rfl
@[simp] theorem setCxl_cxmCol (p : Nat) (d : CxlPort) : (s.setCxl p d).cxmCol = s.cxmCol := rfl
@[simp] theorem setCxl_bad (p : Nat) (d : CxlPort) : (s.setCxl p d).bad = s.bad := rfl
@[simp] theorem setCxl_flt (p : Nat) (d : CxlPort) : (s.setCxl p d).flt = s.flt := rfl
@[simp] theorem setCxl_host (p : Nat) (d : CxlPort) : (s.setCxl p d).host = s.host := rfl
@[simp] theorem setCxl_wide (p : Nat) (d : CxlPort) : (s.setCxl p d).wide = s.wide := rfl
@[simp] theorem setCxl_frames (p : Nat) (d : CxlPort) : (s.setCxl p d).frames = s.frames := rfl
@[simp] theorem setCxl_nextId (p : Nat) (d : CxlPort) : (s.setCxl p d).nextId = s.nextId := rfl
@[simp] theorem setCxl_xing (p : Nat) (d : CxlPort) : (s.setCxl p d).xing = s.xing := rfl
@[simp] theorem setCxl_inbox (p : Nat) (d : CxlPort) : (s.setCxl p d).inbox = s.inbox := rfl
@[simp] theorem setCxl_arrived (p : Nat) (d : CxlPort) : (s.setCxl p d).arrived = s.arrived := rfl
@[simp] theorem setCxl_ports (p : Nat) (d : CxlPort) : (s.setCxl p d).ports = s.ports := rfl
@[simp] theorem setCxl_islands (p : Nat) (d : CxlPort) : (s.setCxl p d).islands = s.islands := rfl
@[simp] theorem setCxl_panels (p : Nat) (d : CxlPort) : (s.setCxl p d).panels = s.panels := rfl
@[simp] theorem setCxl_meters (p : Nat) (d : CxlPort) : (s.setCxl p d).meters = s.meters := rfl
@[simp] theorem setCxl_recs (p : Nat) (d : CxlPort) : (s.setCxl p d).recs = s.recs := rfl
@[simp] theorem setCxl_captures (p : Nat) (d : CxlPort) : (s.setCxl p d).captures = s.captures := rfl
@[simp] theorem setCxl_lines (p : Nat) (d : CxlPort) : (s.setCxl p d).lines = s.lines := rfl
@[simp] theorem setCxl_mix (p : Nat) (d : CxlPort) : (s.setCxl p d).mix = s.mix := rfl
@[simp] theorem setCxl_con (p : Nat) (d : CxlPort) : (s.setCxl p d).con = s.con := rfl
@[simp] theorem setCxl_raw (p : Nat) (d : CxlPort) : (s.setCxl p d).raw = s.raw := rfl
@[simp] theorem setCxl_chans (p : Nat) (d : CxlPort) : (s.setCxl p d).chans = s.chans := rfl
@[simp] theorem setCxl_lastCh (p : Nat) (d : CxlPort) : (s.setCxl p d).lastCh = s.lastCh := rfl
@[simp] theorem setCxl_pwr (p : Nat) (d : CxlPort) : (s.setCxl p d).pwr = s.pwr := rfl
@[simp] theorem setCxl_pair (p : Nat) (d : CxlPort) : (s.setCxl p d).pair = s.pair := rfl
@[simp] theorem setCxl_bst (p : Nat) (d : CxlPort) : (s.setCxl p d).bst = s.bst := rfl
@[simp] theorem setCxl_draws (p : Nat) (d : CxlPort) : (s.setCxl p d).draws = s.draws := rfl
@[simp] theorem setCxl_board (p : Nat) (d : CxlPort) : (s.setCxl p d).board = s.board := rfl
@[simp] theorem setCxl_copies (p : Nat) (d : CxlPort) : (s.setCxl p d).copies = s.copies := rfl
@[simp] theorem setCxl_unblocks (p : Nat) (d : CxlPort) : (s.setCxl p d).unblocks = s.unblocks := rfl
@[simp] theorem setCxl_fld (p : Nat) (d : CxlPort) (g : Field) (w j : Nat) : (s.setCxl p d).fld g w j = s.fld g w j := rfl
@[simp] theorem setCxl_on (p : Nat) (d : CxlPort) (g : Field) (w j : Nat) : (s.setCxl p d).on g w j = s.on g w j := rfl
@[simp] theorem setCxl_fbit (p : Nat) (d : CxlPort) (g : Field) (c w j : Nat) : (s.setCxl p d).fbit g c w j = s.fbit g c w j := rfl

/-! ### setLine -/

@[simp] theorem setLine_pending (p : Nat) (d : LineDyn) : (s.setLine p d).pending = s.pending := rfl
@[simp] theorem setLine_fuses (p : Nat) (d : LineDyn) : (s.setLine p d).fuses = s.fuses := rfl
@[simp] theorem setLine_lifecycle (p : Nat) (d : LineDyn) : (s.setLine p d).lifecycle = s.lifecycle := rfl
@[simp] theorem setLine_owner (p : Nat) (d : LineDyn) : (s.setLine p d).owner = s.owner := rfl
@[simp] theorem setLine_op (p : Nat) (d : LineDyn) : (s.setLine p d).op = s.op := rfl
@[simp] theorem setLine_phase (p : Nat) (d : LineDyn) : (s.setLine p d).phase = s.phase := rfl
@[simp] theorem setLine_porLow (p : Nat) (d : LineDyn) : (s.setLine p d).porLow = s.porLow := rfl
@[simp] theorem setLine_lt (p : Nat) (d : LineDyn) : (s.setLine p d).lt = s.lt := rfl
@[simp] theorem setLine_time (p : Nat) (d : LineDyn) : (s.setLine p d).time = s.time := rfl
@[simp] theorem setLine_regs (p : Nat) (d : LineDyn) : (s.setLine p d).regs = s.regs := rfl
@[simp] theorem setLine_tabs (p : Nat) (d : LineDyn) : (s.setLine p d).tabs = s.tabs := rfl
@[simp] theorem setLine_sidCol (p : Nat) (d : LineDyn) : (s.setLine p d).sidCol = s.sidCol := rfl
@[simp] theorem setLine_mixCol (p : Nat) (d : LineDyn) : (s.setLine p d).mixCol = s.mixCol := rfl
@[simp] theorem setLine_conCol (p : Nat) (d : LineDyn) : (s.setLine p d).conCol = s.conCol := rfl
@[simp] theorem setLine_cxmCol (p : Nat) (d : LineDyn) : (s.setLine p d).cxmCol = s.cxmCol := rfl
@[simp] theorem setLine_bad (p : Nat) (d : LineDyn) : (s.setLine p d).bad = s.bad := rfl
@[simp] theorem setLine_flt (p : Nat) (d : LineDyn) : (s.setLine p d).flt = s.flt := rfl
@[simp] theorem setLine_host (p : Nat) (d : LineDyn) : (s.setLine p d).host = s.host := rfl
@[simp] theorem setLine_wide (p : Nat) (d : LineDyn) : (s.setLine p d).wide = s.wide := rfl
@[simp] theorem setLine_frames (p : Nat) (d : LineDyn) : (s.setLine p d).frames = s.frames := rfl
@[simp] theorem setLine_nextId (p : Nat) (d : LineDyn) : (s.setLine p d).nextId = s.nextId := rfl
@[simp] theorem setLine_xing (p : Nat) (d : LineDyn) : (s.setLine p d).xing = s.xing := rfl
@[simp] theorem setLine_inbox (p : Nat) (d : LineDyn) : (s.setLine p d).inbox = s.inbox := rfl
@[simp] theorem setLine_arrived (p : Nat) (d : LineDyn) : (s.setLine p d).arrived = s.arrived := rfl
@[simp] theorem setLine_ports (p : Nat) (d : LineDyn) : (s.setLine p d).ports = s.ports := rfl
@[simp] theorem setLine_islands (p : Nat) (d : LineDyn) : (s.setLine p d).islands = s.islands := rfl
@[simp] theorem setLine_panels (p : Nat) (d : LineDyn) : (s.setLine p d).panels = s.panels := rfl
@[simp] theorem setLine_meters (p : Nat) (d : LineDyn) : (s.setLine p d).meters = s.meters := rfl
@[simp] theorem setLine_recs (p : Nat) (d : LineDyn) : (s.setLine p d).recs = s.recs := rfl
@[simp] theorem setLine_captures (p : Nat) (d : LineDyn) : (s.setLine p d).captures = s.captures := rfl
@[simp] theorem setLine_mix (p : Nat) (d : LineDyn) : (s.setLine p d).mix = s.mix := rfl
@[simp] theorem setLine_con (p : Nat) (d : LineDyn) : (s.setLine p d).con = s.con := rfl
@[simp] theorem setLine_cxl (p : Nat) (d : LineDyn) : (s.setLine p d).cxl = s.cxl := rfl
@[simp] theorem setLine_raw (p : Nat) (d : LineDyn) : (s.setLine p d).raw = s.raw := rfl
@[simp] theorem setLine_chans (p : Nat) (d : LineDyn) : (s.setLine p d).chans = s.chans := rfl
@[simp] theorem setLine_lastCh (p : Nat) (d : LineDyn) : (s.setLine p d).lastCh = s.lastCh := rfl
@[simp] theorem setLine_pwr (p : Nat) (d : LineDyn) : (s.setLine p d).pwr = s.pwr := rfl
@[simp] theorem setLine_pair (p : Nat) (d : LineDyn) : (s.setLine p d).pair = s.pair := rfl
@[simp] theorem setLine_bst (p : Nat) (d : LineDyn) : (s.setLine p d).bst = s.bst := rfl
@[simp] theorem setLine_draws (p : Nat) (d : LineDyn) : (s.setLine p d).draws = s.draws := rfl
@[simp] theorem setLine_board (p : Nat) (d : LineDyn) : (s.setLine p d).board = s.board := rfl
@[simp] theorem setLine_copies (p : Nat) (d : LineDyn) : (s.setLine p d).copies = s.copies := rfl
@[simp] theorem setLine_unblocks (p : Nat) (d : LineDyn) : (s.setLine p d).unblocks = s.unblocks := rfl
@[simp] theorem setLine_fld (p : Nat) (d : LineDyn) (g : Field) (w j : Nat) : (s.setLine p d).fld g w j = s.fld g w j := rfl
@[simp] theorem setLine_on (p : Nat) (d : LineDyn) (g : Field) (w j : Nat) : (s.setLine p d).on g w j = s.on g w j := rfl
@[simp] theorem setLine_fbit (p : Nat) (d : LineDyn) (g : Field) (c w j : Nat) : (s.setLine p d).fbit g c w j = s.fbit g c w j := rfl

/-! ### setMeter -/

@[simp] theorem setMeter_pending (p : Nat) (d : MeterDyn) : (s.setMeter p d).pending = s.pending := rfl
@[simp] theorem setMeter_fuses (p : Nat) (d : MeterDyn) : (s.setMeter p d).fuses = s.fuses := rfl
@[simp] theorem setMeter_lifecycle (p : Nat) (d : MeterDyn) : (s.setMeter p d).lifecycle = s.lifecycle := rfl
@[simp] theorem setMeter_owner (p : Nat) (d : MeterDyn) : (s.setMeter p d).owner = s.owner := rfl
@[simp] theorem setMeter_op (p : Nat) (d : MeterDyn) : (s.setMeter p d).op = s.op := rfl
@[simp] theorem setMeter_phase (p : Nat) (d : MeterDyn) : (s.setMeter p d).phase = s.phase := rfl
@[simp] theorem setMeter_porLow (p : Nat) (d : MeterDyn) : (s.setMeter p d).porLow = s.porLow := rfl
@[simp] theorem setMeter_lt (p : Nat) (d : MeterDyn) : (s.setMeter p d).lt = s.lt := rfl
@[simp] theorem setMeter_time (p : Nat) (d : MeterDyn) : (s.setMeter p d).time = s.time := rfl
@[simp] theorem setMeter_regs (p : Nat) (d : MeterDyn) : (s.setMeter p d).regs = s.regs := rfl
@[simp] theorem setMeter_tabs (p : Nat) (d : MeterDyn) : (s.setMeter p d).tabs = s.tabs := rfl
@[simp] theorem setMeter_sidCol (p : Nat) (d : MeterDyn) : (s.setMeter p d).sidCol = s.sidCol := rfl
@[simp] theorem setMeter_mixCol (p : Nat) (d : MeterDyn) : (s.setMeter p d).mixCol = s.mixCol := rfl
@[simp] theorem setMeter_conCol (p : Nat) (d : MeterDyn) : (s.setMeter p d).conCol = s.conCol := rfl
@[simp] theorem setMeter_cxmCol (p : Nat) (d : MeterDyn) : (s.setMeter p d).cxmCol = s.cxmCol := rfl
@[simp] theorem setMeter_bad (p : Nat) (d : MeterDyn) : (s.setMeter p d).bad = s.bad := rfl
@[simp] theorem setMeter_flt (p : Nat) (d : MeterDyn) : (s.setMeter p d).flt = s.flt := rfl
@[simp] theorem setMeter_host (p : Nat) (d : MeterDyn) : (s.setMeter p d).host = s.host := rfl
@[simp] theorem setMeter_wide (p : Nat) (d : MeterDyn) : (s.setMeter p d).wide = s.wide := rfl
@[simp] theorem setMeter_frames (p : Nat) (d : MeterDyn) : (s.setMeter p d).frames = s.frames := rfl
@[simp] theorem setMeter_nextId (p : Nat) (d : MeterDyn) : (s.setMeter p d).nextId = s.nextId := rfl
@[simp] theorem setMeter_xing (p : Nat) (d : MeterDyn) : (s.setMeter p d).xing = s.xing := rfl
@[simp] theorem setMeter_inbox (p : Nat) (d : MeterDyn) : (s.setMeter p d).inbox = s.inbox := rfl
@[simp] theorem setMeter_arrived (p : Nat) (d : MeterDyn) : (s.setMeter p d).arrived = s.arrived := rfl
@[simp] theorem setMeter_ports (p : Nat) (d : MeterDyn) : (s.setMeter p d).ports = s.ports := rfl
@[simp] theorem setMeter_islands (p : Nat) (d : MeterDyn) : (s.setMeter p d).islands = s.islands := rfl
@[simp] theorem setMeter_panels (p : Nat) (d : MeterDyn) : (s.setMeter p d).panels = s.panels := rfl
@[simp] theorem setMeter_recs (p : Nat) (d : MeterDyn) : (s.setMeter p d).recs = s.recs := rfl
@[simp] theorem setMeter_captures (p : Nat) (d : MeterDyn) : (s.setMeter p d).captures = s.captures := rfl
@[simp] theorem setMeter_lines (p : Nat) (d : MeterDyn) : (s.setMeter p d).lines = s.lines := rfl
@[simp] theorem setMeter_mix (p : Nat) (d : MeterDyn) : (s.setMeter p d).mix = s.mix := rfl
@[simp] theorem setMeter_con (p : Nat) (d : MeterDyn) : (s.setMeter p d).con = s.con := rfl
@[simp] theorem setMeter_cxl (p : Nat) (d : MeterDyn) : (s.setMeter p d).cxl = s.cxl := rfl
@[simp] theorem setMeter_raw (p : Nat) (d : MeterDyn) : (s.setMeter p d).raw = s.raw := rfl
@[simp] theorem setMeter_chans (p : Nat) (d : MeterDyn) : (s.setMeter p d).chans = s.chans := rfl
@[simp] theorem setMeter_lastCh (p : Nat) (d : MeterDyn) : (s.setMeter p d).lastCh = s.lastCh := rfl
@[simp] theorem setMeter_pwr (p : Nat) (d : MeterDyn) : (s.setMeter p d).pwr = s.pwr := rfl
@[simp] theorem setMeter_pair (p : Nat) (d : MeterDyn) : (s.setMeter p d).pair = s.pair := rfl
@[simp] theorem setMeter_bst (p : Nat) (d : MeterDyn) : (s.setMeter p d).bst = s.bst := rfl
@[simp] theorem setMeter_draws (p : Nat) (d : MeterDyn) : (s.setMeter p d).draws = s.draws := rfl
@[simp] theorem setMeter_board (p : Nat) (d : MeterDyn) : (s.setMeter p d).board = s.board := rfl
@[simp] theorem setMeter_copies (p : Nat) (d : MeterDyn) : (s.setMeter p d).copies = s.copies := rfl
@[simp] theorem setMeter_unblocks (p : Nat) (d : MeterDyn) : (s.setMeter p d).unblocks = s.unblocks := rfl
@[simp] theorem setMeter_fld (p : Nat) (d : MeterDyn) (g : Field) (w j : Nat) : (s.setMeter p d).fld g w j = s.fld g w j := rfl
@[simp] theorem setMeter_on (p : Nat) (d : MeterDyn) (g : Field) (w j : Nat) : (s.setMeter p d).on g w j = s.on g w j := rfl
@[simp] theorem setMeter_fbit (p : Nat) (d : MeterDyn) (g : Field) (c w j : Nat) : (s.setMeter p d).fbit g c w j = s.fbit g c w j := rfl

/-! ### setRecov -/

@[simp] theorem setRecov_pending (p : Nat) (d : RecDyn) : (s.setRecov p d).pending = s.pending := rfl
@[simp] theorem setRecov_fuses (p : Nat) (d : RecDyn) : (s.setRecov p d).fuses = s.fuses := rfl
@[simp] theorem setRecov_lifecycle (p : Nat) (d : RecDyn) : (s.setRecov p d).lifecycle = s.lifecycle := rfl
@[simp] theorem setRecov_owner (p : Nat) (d : RecDyn) : (s.setRecov p d).owner = s.owner := rfl
@[simp] theorem setRecov_op (p : Nat) (d : RecDyn) : (s.setRecov p d).op = s.op := rfl
@[simp] theorem setRecov_phase (p : Nat) (d : RecDyn) : (s.setRecov p d).phase = s.phase := rfl
@[simp] theorem setRecov_porLow (p : Nat) (d : RecDyn) : (s.setRecov p d).porLow = s.porLow := rfl
@[simp] theorem setRecov_lt (p : Nat) (d : RecDyn) : (s.setRecov p d).lt = s.lt := rfl
@[simp] theorem setRecov_time (p : Nat) (d : RecDyn) : (s.setRecov p d).time = s.time := rfl
@[simp] theorem setRecov_regs (p : Nat) (d : RecDyn) : (s.setRecov p d).regs = s.regs := rfl
@[simp] theorem setRecov_tabs (p : Nat) (d : RecDyn) : (s.setRecov p d).tabs = s.tabs := rfl
@[simp] theorem setRecov_sidCol (p : Nat) (d : RecDyn) : (s.setRecov p d).sidCol = s.sidCol := rfl
@[simp] theorem setRecov_mixCol (p : Nat) (d : RecDyn) : (s.setRecov p d).mixCol = s.mixCol := rfl
@[simp] theorem setRecov_conCol (p : Nat) (d : RecDyn) : (s.setRecov p d).conCol = s.conCol := rfl
@[simp] theorem setRecov_cxmCol (p : Nat) (d : RecDyn) : (s.setRecov p d).cxmCol = s.cxmCol := rfl
@[simp] theorem setRecov_bad (p : Nat) (d : RecDyn) : (s.setRecov p d).bad = s.bad := rfl
@[simp] theorem setRecov_flt (p : Nat) (d : RecDyn) : (s.setRecov p d).flt = s.flt := rfl
@[simp] theorem setRecov_host (p : Nat) (d : RecDyn) : (s.setRecov p d).host = s.host := rfl
@[simp] theorem setRecov_wide (p : Nat) (d : RecDyn) : (s.setRecov p d).wide = s.wide := rfl
@[simp] theorem setRecov_frames (p : Nat) (d : RecDyn) : (s.setRecov p d).frames = s.frames := rfl
@[simp] theorem setRecov_nextId (p : Nat) (d : RecDyn) : (s.setRecov p d).nextId = s.nextId := rfl
@[simp] theorem setRecov_xing (p : Nat) (d : RecDyn) : (s.setRecov p d).xing = s.xing := rfl
@[simp] theorem setRecov_inbox (p : Nat) (d : RecDyn) : (s.setRecov p d).inbox = s.inbox := rfl
@[simp] theorem setRecov_arrived (p : Nat) (d : RecDyn) : (s.setRecov p d).arrived = s.arrived := rfl
@[simp] theorem setRecov_ports (p : Nat) (d : RecDyn) : (s.setRecov p d).ports = s.ports := rfl
@[simp] theorem setRecov_islands (p : Nat) (d : RecDyn) : (s.setRecov p d).islands = s.islands := rfl
@[simp] theorem setRecov_panels (p : Nat) (d : RecDyn) : (s.setRecov p d).panels = s.panels := rfl
@[simp] theorem setRecov_meters (p : Nat) (d : RecDyn) : (s.setRecov p d).meters = s.meters := rfl
@[simp] theorem setRecov_captures (p : Nat) (d : RecDyn) : (s.setRecov p d).captures = s.captures := rfl
@[simp] theorem setRecov_lines (p : Nat) (d : RecDyn) : (s.setRecov p d).lines = s.lines := rfl
@[simp] theorem setRecov_mix (p : Nat) (d : RecDyn) : (s.setRecov p d).mix = s.mix := rfl
@[simp] theorem setRecov_con (p : Nat) (d : RecDyn) : (s.setRecov p d).con = s.con := rfl
@[simp] theorem setRecov_cxl (p : Nat) (d : RecDyn) : (s.setRecov p d).cxl = s.cxl := rfl
@[simp] theorem setRecov_raw (p : Nat) (d : RecDyn) : (s.setRecov p d).raw = s.raw := rfl
@[simp] theorem setRecov_chans (p : Nat) (d : RecDyn) : (s.setRecov p d).chans = s.chans := rfl
@[simp] theorem setRecov_lastCh (p : Nat) (d : RecDyn) : (s.setRecov p d).lastCh = s.lastCh := rfl
@[simp] theorem setRecov_pwr (p : Nat) (d : RecDyn) : (s.setRecov p d).pwr = s.pwr := rfl
@[simp] theorem setRecov_pair (p : Nat) (d : RecDyn) : (s.setRecov p d).pair = s.pair := rfl
@[simp] theorem setRecov_bst (p : Nat) (d : RecDyn) : (s.setRecov p d).bst = s.bst := rfl
@[simp] theorem setRecov_draws (p : Nat) (d : RecDyn) : (s.setRecov p d).draws = s.draws := rfl
@[simp] theorem setRecov_board (p : Nat) (d : RecDyn) : (s.setRecov p d).board = s.board := rfl
@[simp] theorem setRecov_copies (p : Nat) (d : RecDyn) : (s.setRecov p d).copies = s.copies := rfl
@[simp] theorem setRecov_unblocks (p : Nat) (d : RecDyn) : (s.setRecov p d).unblocks = s.unblocks := rfl
@[simp] theorem setRecov_fld (p : Nat) (d : RecDyn) (g : Field) (w j : Nat) : (s.setRecov p d).fld g w j = s.fld g w j := rfl
@[simp] theorem setRecov_on (p : Nat) (d : RecDyn) (g : Field) (w j : Nat) : (s.setRecov p d).on g w j = s.on g w j := rfl
@[simp] theorem setRecov_fbit (p : Nat) (d : RecDyn) (g : Field) (c w j : Nat) : (s.setRecov p d).fbit g c w j = s.fbit g c w j := rfl

/-! ### modMix -/

@[simp] theorem modMix_pending (f : MixS → MixS) : (s.modMix f).pending = s.pending := rfl
@[simp] theorem modMix_fuses (f : MixS → MixS) : (s.modMix f).fuses = s.fuses := rfl
@[simp] theorem modMix_lifecycle (f : MixS → MixS) : (s.modMix f).lifecycle = s.lifecycle := rfl
@[simp] theorem modMix_owner (f : MixS → MixS) : (s.modMix f).owner = s.owner := rfl
@[simp] theorem modMix_op (f : MixS → MixS) : (s.modMix f).op = s.op := rfl
@[simp] theorem modMix_phase (f : MixS → MixS) : (s.modMix f).phase = s.phase := rfl
@[simp] theorem modMix_porLow (f : MixS → MixS) : (s.modMix f).porLow = s.porLow := rfl
@[simp] theorem modMix_lt (f : MixS → MixS) : (s.modMix f).lt = s.lt := rfl
@[simp] theorem modMix_time (f : MixS → MixS) : (s.modMix f).time = s.time := rfl
@[simp] theorem modMix_regs (f : MixS → MixS) : (s.modMix f).regs = s.regs := rfl
@[simp] theorem modMix_tabs (f : MixS → MixS) : (s.modMix f).tabs = s.tabs := rfl
@[simp] theorem modMix_sidCol (f : MixS → MixS) : (s.modMix f).sidCol = s.sidCol := rfl
@[simp] theorem modMix_mixCol (f : MixS → MixS) : (s.modMix f).mixCol = s.mixCol := rfl
@[simp] theorem modMix_conCol (f : MixS → MixS) : (s.modMix f).conCol = s.conCol := rfl
@[simp] theorem modMix_cxmCol (f : MixS → MixS) : (s.modMix f).cxmCol = s.cxmCol := rfl
@[simp] theorem modMix_bad (f : MixS → MixS) : (s.modMix f).bad = s.bad := rfl
@[simp] theorem modMix_flt (f : MixS → MixS) : (s.modMix f).flt = s.flt := rfl
@[simp] theorem modMix_host (f : MixS → MixS) : (s.modMix f).host = s.host := rfl
@[simp] theorem modMix_wide (f : MixS → MixS) : (s.modMix f).wide = s.wide := rfl
@[simp] theorem modMix_frames (f : MixS → MixS) : (s.modMix f).frames = s.frames := rfl
@[simp] theorem modMix_nextId (f : MixS → MixS) : (s.modMix f).nextId = s.nextId := rfl
@[simp] theorem modMix_xing (f : MixS → MixS) : (s.modMix f).xing = s.xing := rfl
@[simp] theorem modMix_inbox (f : MixS → MixS) : (s.modMix f).inbox = s.inbox := rfl
@[simp] theorem modMix_arrived (f : MixS → MixS) : (s.modMix f).arrived = s.arrived := rfl
@[simp] theorem modMix_ports (f : MixS → MixS) : (s.modMix f).ports = s.ports := rfl
@[simp] theorem modMix_islands (f : MixS → MixS) : (s.modMix f).islands = s.islands := rfl
@[simp] theorem modMix_panels (f : MixS → MixS) : (s.modMix f).panels = s.panels := rfl
@[simp] theorem modMix_meters (f : MixS → MixS) : (s.modMix f).meters = s.meters := rfl
@[simp] theorem modMix_recs (f : MixS → MixS) : (s.modMix f).recs = s.recs := rfl
@[simp] theorem modMix_captures (f : MixS → MixS) : (s.modMix f).captures = s.captures := rfl
@[simp] theorem modMix_lines (f : MixS → MixS) : (s.modMix f).lines = s.lines := rfl
@[simp] theorem modMix_mix (f : MixS → MixS) : (s.modMix f).mix = f s.mix := rfl
@[simp] theorem modMix_con (f : MixS → MixS) : (s.modMix f).con = s.con := rfl
@[simp] theorem modMix_cxl (f : MixS → MixS) : (s.modMix f).cxl = s.cxl := rfl
@[simp] theorem modMix_raw (f : MixS → MixS) : (s.modMix f).raw = s.raw := rfl
@[simp] theorem modMix_chans (f : MixS → MixS) : (s.modMix f).chans = s.chans := rfl
@[simp] theorem modMix_lastCh (f : MixS → MixS) : (s.modMix f).lastCh = s.lastCh := rfl
@[simp] theorem modMix_pwr (f : MixS → MixS) : (s.modMix f).pwr = s.pwr := rfl
@[simp] theorem modMix_pair (f : MixS → MixS) : (s.modMix f).pair = s.pair := rfl
@[simp] theorem modMix_bst (f : MixS → MixS) : (s.modMix f).bst = s.bst := rfl
@[simp] theorem modMix_draws (f : MixS → MixS) : (s.modMix f).draws = s.draws := rfl
@[simp] theorem modMix_board (f : MixS → MixS) : (s.modMix f).board = s.board := rfl
@[simp] theorem modMix_copies (f : MixS → MixS) : (s.modMix f).copies = s.copies := rfl
@[simp] theorem modMix_unblocks (f : MixS → MixS) : (s.modMix f).unblocks = s.unblocks := rfl
@[simp] theorem modMix_fld (f : MixS → MixS) (g : Field) (w j : Nat) : (s.modMix f).fld g w j = s.fld g w j := rfl
@[simp] theorem modMix_on (f : MixS → MixS) (g : Field) (w j : Nat) : (s.modMix f).on g w j = s.on g w j := rfl
@[simp] theorem modMix_fbit (f : MixS → MixS) (g : Field) (c w j : Nat) : (s.modMix f).fbit g c w j = s.fbit g c w j := rfl

/-! ### modCon -/

@[simp] theorem modCon_pending (f : ConS → ConS) : (s.modCon f).pending = s.pending := rfl
@[simp] theorem modCon_fuses (f : ConS → ConS) : (s.modCon f).fuses = s.fuses := rfl
@[simp] theorem modCon_lifecycle (f : ConS → ConS) : (s.modCon f).lifecycle = s.lifecycle := rfl
@[simp] theorem modCon_owner (f : ConS → ConS) : (s.modCon f).owner = s.owner := rfl
@[simp] theorem modCon_op (f : ConS → ConS) : (s.modCon f).op = s.op := rfl
@[simp] theorem modCon_phase (f : ConS → ConS) : (s.modCon f).phase = s.phase := rfl
@[simp] theorem modCon_porLow (f : ConS → ConS) : (s.modCon f).porLow = s.porLow := rfl
@[simp] theorem modCon_lt (f : ConS → ConS) : (s.modCon f).lt = s.lt := rfl
@[simp] theorem modCon_time (f : ConS → ConS) : (s.modCon f).time = s.time := rfl
@[simp] theorem modCon_regs (f : ConS → ConS) : (s.modCon f).regs = s.regs := rfl
@[simp] theorem modCon_tabs (f : ConS → ConS) : (s.modCon f).tabs = s.tabs := rfl
@[simp] theorem modCon_sidCol (f : ConS → ConS) : (s.modCon f).sidCol = s.sidCol := rfl
@[simp] theorem modCon_mixCol (f : ConS → ConS) : (s.modCon f).mixCol = s.mixCol := rfl
@[simp] theorem modCon_conCol (f : ConS → ConS) : (s.modCon f).conCol = s.conCol := rfl
@[simp] theorem modCon_cxmCol (f : ConS → ConS) : (s.modCon f).cxmCol = s.cxmCol := rfl
@[simp] theorem modCon_bad (f : ConS → ConS) : (s.modCon f).bad = s.bad := rfl
@[simp] theorem modCon_flt (f : ConS → ConS) : (s.modCon f).flt = s.flt := rfl
@[simp] theorem modCon_host (f : ConS → ConS) : (s.modCon f).host = s.host := rfl
@[simp] theorem modCon_wide (f : ConS → ConS) : (s.modCon f).wide = s.wide := rfl
@[simp] theorem modCon_frames (f : ConS → ConS) : (s.modCon f).frames = s.frames := rfl
@[simp] theorem modCon_nextId (f : ConS → ConS) : (s.modCon f).nextId = s.nextId := rfl
@[simp] theorem modCon_xing (f : ConS → ConS) : (s.modCon f).xing = s.xing := rfl
@[simp] theorem modCon_inbox (f : ConS → ConS) : (s.modCon f).inbox = s.inbox := rfl
@[simp] theorem modCon_arrived (f : ConS → ConS) : (s.modCon f).arrived = s.arrived := rfl
@[simp] theorem modCon_ports (f : ConS → ConS) : (s.modCon f).ports = s.ports := rfl
@[simp] theorem modCon_islands (f : ConS → ConS) : (s.modCon f).islands = s.islands := rfl
@[simp] theorem modCon_panels (f : ConS → ConS) : (s.modCon f).panels = s.panels := rfl
@[simp] theorem modCon_meters (f : ConS → ConS) : (s.modCon f).meters = s.meters := rfl
@[simp] theorem modCon_recs (f : ConS → ConS) : (s.modCon f).recs = s.recs := rfl
@[simp] theorem modCon_captures (f : ConS → ConS) : (s.modCon f).captures = s.captures := rfl
@[simp] theorem modCon_lines (f : ConS → ConS) : (s.modCon f).lines = s.lines := rfl
@[simp] theorem modCon_mix (f : ConS → ConS) : (s.modCon f).mix = s.mix := rfl
@[simp] theorem modCon_con (f : ConS → ConS) : (s.modCon f).con = f s.con := rfl
@[simp] theorem modCon_cxl (f : ConS → ConS) : (s.modCon f).cxl = s.cxl := rfl
@[simp] theorem modCon_raw (f : ConS → ConS) : (s.modCon f).raw = s.raw := rfl
@[simp] theorem modCon_chans (f : ConS → ConS) : (s.modCon f).chans = s.chans := rfl
@[simp] theorem modCon_lastCh (f : ConS → ConS) : (s.modCon f).lastCh = s.lastCh := rfl
@[simp] theorem modCon_pwr (f : ConS → ConS) : (s.modCon f).pwr = s.pwr := rfl
@[simp] theorem modCon_pair (f : ConS → ConS) : (s.modCon f).pair = s.pair := rfl
@[simp] theorem modCon_bst (f : ConS → ConS) : (s.modCon f).bst = s.bst := rfl
@[simp] theorem modCon_draws (f : ConS → ConS) : (s.modCon f).draws = s.draws := rfl
@[simp] theorem modCon_board (f : ConS → ConS) : (s.modCon f).board = s.board := rfl
@[simp] theorem modCon_copies (f : ConS → ConS) : (s.modCon f).copies = s.copies := rfl
@[simp] theorem modCon_unblocks (f : ConS → ConS) : (s.modCon f).unblocks = s.unblocks := rfl
@[simp] theorem modCon_fld (f : ConS → ConS) (g : Field) (w j : Nat) : (s.modCon f).fld g w j = s.fld g w j := rfl
@[simp] theorem modCon_on (f : ConS → ConS) (g : Field) (w j : Nat) : (s.modCon f).on g w j = s.on g w j := rfl
@[simp] theorem modCon_fbit (f : ConS → ConS) (g : Field) (c w j : Nat) : (s.modCon f).fbit g c w j = s.fbit g c w j := rfl

/-! ### modTime -/

@[simp] theorem modTime_pending (f : TimeS → TimeS) : (s.modTime f).pending = s.pending := rfl
@[simp] theorem modTime_fuses (f : TimeS → TimeS) : (s.modTime f).fuses = s.fuses := rfl
@[simp] theorem modTime_lifecycle (f : TimeS → TimeS) : (s.modTime f).lifecycle = s.lifecycle := rfl
@[simp] theorem modTime_owner (f : TimeS → TimeS) : (s.modTime f).owner = s.owner := rfl
@[simp] theorem modTime_op (f : TimeS → TimeS) : (s.modTime f).op = s.op := rfl
@[simp] theorem modTime_phase (f : TimeS → TimeS) : (s.modTime f).phase = s.phase := rfl
@[simp] theorem modTime_porLow (f : TimeS → TimeS) : (s.modTime f).porLow = s.porLow := rfl
@[simp] theorem modTime_lt (f : TimeS → TimeS) : (s.modTime f).lt = s.lt := rfl
@[simp] theorem modTime_time (f : TimeS → TimeS) : (s.modTime f).time = f s.time := rfl
@[simp] theorem modTime_regs (f : TimeS → TimeS) : (s.modTime f).regs = s.regs := rfl
@[simp] theorem modTime_tabs (f : TimeS → TimeS) : (s.modTime f).tabs = s.tabs := rfl
@[simp] theorem modTime_sidCol (f : TimeS → TimeS) : (s.modTime f).sidCol = s.sidCol := rfl
@[simp] theorem modTime_mixCol (f : TimeS → TimeS) : (s.modTime f).mixCol = s.mixCol := rfl
@[simp] theorem modTime_conCol (f : TimeS → TimeS) : (s.modTime f).conCol = s.conCol := rfl
@[simp] theorem modTime_cxmCol (f : TimeS → TimeS) : (s.modTime f).cxmCol = s.cxmCol := rfl
@[simp] theorem modTime_bad (f : TimeS → TimeS) : (s.modTime f).bad = s.bad := rfl
@[simp] theorem modTime_flt (f : TimeS → TimeS) : (s.modTime f).flt = s.flt := rfl
@[simp] theorem modTime_host (f : TimeS → TimeS) : (s.modTime f).host = s.host := rfl
@[simp] theorem modTime_wide (f : TimeS → TimeS) : (s.modTime f).wide = s.wide := rfl
@[simp] theorem modTime_frames (f : TimeS → TimeS) : (s.modTime f).frames = s.frames := rfl
@[simp] theorem modTime_nextId (f : TimeS → TimeS) : (s.modTime f).nextId = s.nextId := rfl
@[simp] theorem modTime_xing (f : TimeS → TimeS) : (s.modTime f).xing = s.xing := rfl
@[simp] theorem modTime_inbox (f : TimeS → TimeS) : (s.modTime f).inbox = s.inbox := rfl
@[simp] theorem modTime_arrived (f : TimeS → TimeS) : (s.modTime f).arrived = s.arrived := rfl
@[simp] theorem modTime_ports (f : TimeS → TimeS) : (s.modTime f).ports = s.ports := rfl
@[simp] theorem modTime_islands (f : TimeS → TimeS) : (s.modTime f).islands = s.islands := rfl
@[simp] theorem modTime_panels (f : TimeS → TimeS) : (s.modTime f).panels = s.panels := rfl
@[simp] theorem modTime_meters (f : TimeS → TimeS) : (s.modTime f).meters = s.meters := rfl
@[simp] theorem modTime_recs (f : TimeS → TimeS) : (s.modTime f).recs = s.recs := rfl
@[simp] theorem modTime_captures (f : TimeS → TimeS) : (s.modTime f).captures = s.captures := rfl
@[simp] theorem modTime_lines (f : TimeS → TimeS) : (s.modTime f).lines = s.lines := rfl
@[simp] theorem modTime_mix (f : TimeS → TimeS) : (s.modTime f).mix = s.mix := rfl
@[simp] theorem modTime_con (f : TimeS → TimeS) : (s.modTime f).con = s.con := rfl
@[simp] theorem modTime_cxl (f : TimeS → TimeS) : (s.modTime f).cxl = s.cxl := rfl
@[simp] theorem modTime_raw (f : TimeS → TimeS) : (s.modTime f).raw = s.raw := rfl
@[simp] theorem modTime_chans (f : TimeS → TimeS) : (s.modTime f).chans = s.chans := rfl
@[simp] theorem modTime_lastCh (f : TimeS → TimeS) : (s.modTime f).lastCh = s.lastCh := rfl
@[simp] theorem modTime_pwr (f : TimeS → TimeS) : (s.modTime f).pwr = s.pwr := rfl
@[simp] theorem modTime_pair (f : TimeS → TimeS) : (s.modTime f).pair = s.pair := rfl
@[simp] theorem modTime_bst (f : TimeS → TimeS) : (s.modTime f).bst = s.bst := rfl
@[simp] theorem modTime_draws (f : TimeS → TimeS) : (s.modTime f).draws = s.draws := rfl
@[simp] theorem modTime_board (f : TimeS → TimeS) : (s.modTime f).board = s.board := rfl
@[simp] theorem modTime_copies (f : TimeS → TimeS) : (s.modTime f).copies = s.copies := rfl
@[simp] theorem modTime_unblocks (f : TimeS → TimeS) : (s.modTime f).unblocks = s.unblocks := rfl
@[simp] theorem modTime_fld (f : TimeS → TimeS) (g : Field) (w j : Nat) : (s.modTime f).fld g w j = s.fld g w j := rfl
@[simp] theorem modTime_on (f : TimeS → TimeS) (g : Field) (w j : Nat) : (s.modTime f).on g w j = s.on g w j := rfl
@[simp] theorem modTime_fbit (f : TimeS → TimeS) (g : Field) (c w j : Nat) : (s.modTime f).fbit g c w j = s.fbit g c w j := rfl

/-! ### modHost -/

@[simp] theorem modHost_pending (f : HostS → HostS) : (s.modHost f).pending = s.pending := rfl
@[simp] theorem modHost_fuses (f : HostS → HostS) : (s.modHost f).fuses = s.fuses := rfl
@[simp] theorem modHost_lifecycle (f : HostS → HostS) : (s.modHost f).lifecycle = s.lifecycle := rfl
@[simp] theorem modHost_owner (f : HostS → HostS) : (s.modHost f).owner = s.owner := rfl
@[simp] theorem modHost_op (f : HostS → HostS) : (s.modHost f).op = s.op := rfl
@[simp] theorem modHost_phase (f : HostS → HostS) : (s.modHost f).phase = s.phase := rfl
@[simp] theorem modHost_porLow (f : HostS → HostS) : (s.modHost f).porLow = s.porLow := rfl
@[simp] theorem modHost_lt (f : HostS → HostS) : (s.modHost f).lt = s.lt := rfl
@[simp] theorem modHost_time (f : HostS → HostS) : (s.modHost f).time = s.time := rfl
@[simp] theorem modHost_regs (f : HostS → HostS) : (s.modHost f).regs = s.regs := rfl
@[simp] theorem modHost_tabs (f : HostS → HostS) : (s.modHost f).tabs = s.tabs := rfl
@[simp] theorem modHost_sidCol (f : HostS → HostS) : (s.modHost f).sidCol = s.sidCol := rfl
@[simp] theorem modHost_mixCol (f : HostS → HostS) : (s.modHost f).mixCol = s.mixCol := rfl
@[simp] theorem modHost_conCol (f : HostS → HostS) : (s.modHost f).conCol = s.conCol := rfl
@[simp] theorem modHost_cxmCol (f : HostS → HostS) : (s.modHost f).cxmCol = s.cxmCol := rfl
@[simp] theorem modHost_bad (f : HostS → HostS) : (s.modHost f).bad = s.bad := rfl
@[simp] theorem modHost_flt (f : HostS → HostS) : (s.modHost f).flt = s.flt := rfl
@[simp] theorem modHost_host (f : HostS → HostS) : (s.modHost f).host = f s.host := rfl
@[simp] theorem modHost_wide (f : HostS → HostS) : (s.modHost f).wide = s.wide := rfl
@[simp] theorem modHost_frames (f : HostS → HostS) : (s.modHost f).frames = s.frames := rfl
@[simp] theorem modHost_nextId (f : HostS → HostS) : (s.modHost f).nextId = s.nextId := rfl
@[simp] theorem modHost_xing (f : HostS → HostS) : (s.modHost f).xing = s.xing := rfl
@[simp] theorem modHost_inbox (f : HostS → HostS) : (s.modHost f).inbox = s.inbox := rfl
@[simp] theorem modHost_arrived (f : HostS → HostS) : (s.modHost f).arrived = s.arrived := rfl
@[simp] theorem modHost_ports (f : HostS → HostS) : (s.modHost f).ports = s.ports := rfl
@[simp] theorem modHost_islands (f : HostS → HostS) : (s.modHost f).islands = s.islands := rfl
@[simp] theorem modHost_panels (f : HostS → HostS) : (s.modHost f).panels = s.panels := rfl
@[simp] theorem modHost_meters (f : HostS → HostS) : (s.modHost f).meters = s.meters := rfl
@[simp] theorem modHost_recs (f : HostS → HostS) : (s.modHost f).recs = s.recs := rfl
@[simp] theorem modHost_captures (f : HostS → HostS) : (s.modHost f).captures = s.captures := rfl
@[simp] theorem modHost_lines (f : HostS → HostS) : (s.modHost f).lines = s.lines := rfl
@[simp] theorem modHost_mix (f : HostS → HostS) : (s.modHost f).mix = s.mix := rfl
@[simp] theorem modHost_con (f : HostS → HostS) : (s.modHost f).con = s.con := rfl
@[simp] theorem modHost_cxl (f : HostS → HostS) : (s.modHost f).cxl = s.cxl := rfl
@[simp] theorem modHost_raw (f : HostS → HostS) : (s.modHost f).raw = s.raw := rfl
@[simp] theorem modHost_chans (f : HostS → HostS) : (s.modHost f).chans = s.chans := rfl
@[simp] theorem modHost_lastCh (f : HostS → HostS) : (s.modHost f).lastCh = s.lastCh := rfl
@[simp] theorem modHost_pwr (f : HostS → HostS) : (s.modHost f).pwr = s.pwr := rfl
@[simp] theorem modHost_pair (f : HostS → HostS) : (s.modHost f).pair = s.pair := rfl
@[simp] theorem modHost_bst (f : HostS → HostS) : (s.modHost f).bst = s.bst := rfl
@[simp] theorem modHost_draws (f : HostS → HostS) : (s.modHost f).draws = s.draws := rfl
@[simp] theorem modHost_board (f : HostS → HostS) : (s.modHost f).board = s.board := rfl
@[simp] theorem modHost_copies (f : HostS → HostS) : (s.modHost f).copies = s.copies := rfl
@[simp] theorem modHost_unblocks (f : HostS → HostS) : (s.modHost f).unblocks = s.unblocks := rfl
@[simp] theorem modHost_fld (f : HostS → HostS) (g : Field) (w j : Nat) : (s.modHost f).fld g w j = s.fld g w j := rfl
@[simp] theorem modHost_on (f : HostS → HostS) (g : Field) (w j : Nat) : (s.modHost f).on g w j = s.on g w j := rfl
@[simp] theorem modHost_fbit (f : HostS → HostS) (g : Field) (c w j : Nat) : (s.modHost f).fbit g c w j = s.fbit g c w j := rfl

/-! ### modPwr -/

@[simp] theorem modPwr_pending (f : PwrS → PwrS) : (s.modPwr f).pending = s.pending := rfl
@[simp] theorem modPwr_fuses (f : PwrS → PwrS) : (s.modPwr f).fuses = s.fuses := rfl
@[simp] theorem modPwr_lifecycle (f : PwrS → PwrS) : (s.modPwr f).lifecycle = s.lifecycle := rfl
@[simp] theorem modPwr_owner (f : PwrS → PwrS) : (s.modPwr f).owner = s.owner := rfl
@[simp] theorem modPwr_op (f : PwrS → PwrS) : (s.modPwr f).op = s.op := rfl
@[simp] theorem modPwr_phase (f : PwrS → PwrS) : (s.modPwr f).phase = s.phase := rfl
@[simp] theorem modPwr_porLow (f : PwrS → PwrS) : (s.modPwr f).porLow = s.porLow := rfl
@[simp] theorem modPwr_lt (f : PwrS → PwrS) : (s.modPwr f).lt = s.lt := rfl
@[simp] theorem modPwr_time (f : PwrS → PwrS) : (s.modPwr f).time = s.time := rfl
@[simp] theorem modPwr_regs (f : PwrS → PwrS) : (s.modPwr f).regs = s.regs := rfl
@[simp] theorem modPwr_tabs (f : PwrS → PwrS) : (s.modPwr f).tabs = s.tabs := rfl
@[simp] theorem modPwr_sidCol (f : PwrS → PwrS) : (s.modPwr f).sidCol = s.sidCol := rfl
@[simp] theorem modPwr_mixCol (f : PwrS → PwrS) : (s.modPwr f).mixCol = s.mixCol := rfl
@[simp] theorem modPwr_conCol (f : PwrS → PwrS) : (s.modPwr f).conCol = s.conCol := rfl
@[simp] theorem modPwr_cxmCol (f : PwrS → PwrS) : (s.modPwr f).cxmCol = s.cxmCol := rfl
@[simp] theorem modPwr_bad (f : PwrS → PwrS) : (s.modPwr f).bad = s.bad := rfl
@[simp] theorem modPwr_flt (f : PwrS → PwrS) : (s.modPwr f).flt = s.flt := rfl
@[simp] theorem modPwr_host (f : PwrS → PwrS) : (s.modPwr f).host = s.host := rfl
@[simp] theorem modPwr_wide (f : PwrS → PwrS) : (s.modPwr f).wide = s.wide := rfl
@[simp] theorem modPwr_frames (f : PwrS → PwrS) : (s.modPwr f).frames = s.frames := rfl
@[simp] theorem modPwr_nextId (f : PwrS → PwrS) : (s.modPwr f).nextId = s.nextId := rfl
@[simp] theorem modPwr_xing (f : PwrS → PwrS) : (s.modPwr f).xing = s.xing := rfl
@[simp] theorem modPwr_inbox (f : PwrS → PwrS) : (s.modPwr f).inbox = s.inbox := rfl
@[simp] theorem modPwr_arrived (f : PwrS → PwrS) : (s.modPwr f).arrived = s.arrived := rfl
@[simp] theorem modPwr_ports (f : PwrS → PwrS) : (s.modPwr f).ports = s.ports := rfl
@[simp] theorem modPwr_islands (f : PwrS → PwrS) : (s.modPwr f).islands = s.islands := rfl
@[simp] theorem modPwr_panels (f : PwrS → PwrS) : (s.modPwr f).panels = s.panels := rfl
@[simp] theorem modPwr_meters (f : PwrS → PwrS) : (s.modPwr f).meters = s.meters := rfl
@[simp] theorem modPwr_recs (f : PwrS → PwrS) : (s.modPwr f).recs = s.recs := rfl
@[simp] theorem modPwr_captures (f : PwrS → PwrS) : (s.modPwr f).captures = s.captures := rfl
@[simp] theorem modPwr_lines (f : PwrS → PwrS) : (s.modPwr f).lines = s.lines := rfl
@[simp] theorem modPwr_mix (f : PwrS → PwrS) : (s.modPwr f).mix = s.mix := rfl
@[simp] theorem modPwr_con (f : PwrS → PwrS) : (s.modPwr f).con = s.con := rfl
@[simp] theorem modPwr_cxl (f : PwrS → PwrS) : (s.modPwr f).cxl = s.cxl := rfl
@[simp] theorem modPwr_raw (f : PwrS → PwrS) : (s.modPwr f).raw = s.raw := rfl
@[simp] theorem modPwr_chans (f : PwrS → PwrS) : (s.modPwr f).chans = s.chans := rfl
@[simp] theorem modPwr_lastCh (f : PwrS → PwrS) : (s.modPwr f).lastCh = s.lastCh := rfl
@[simp] theorem modPwr_pwr (f : PwrS → PwrS) : (s.modPwr f).pwr = f s.pwr := rfl
@[simp] theorem modPwr_pair (f : PwrS → PwrS) : (s.modPwr f).pair = s.pair := rfl
@[simp] theorem modPwr_bst (f : PwrS → PwrS) : (s.modPwr f).bst = s.bst := rfl
@[simp] theorem modPwr_draws (f : PwrS → PwrS) : (s.modPwr f).draws = s.draws := rfl
@[simp] theorem modPwr_board (f : PwrS → PwrS) : (s.modPwr f).board = s.board := rfl
@[simp] theorem modPwr_copies (f : PwrS → PwrS) : (s.modPwr f).copies = s.copies := rfl
@[simp] theorem modPwr_unblocks (f : PwrS → PwrS) : (s.modPwr f).unblocks = s.unblocks := rfl
@[simp] theorem modPwr_fld (f : PwrS → PwrS) (g : Field) (w j : Nat) : (s.modPwr f).fld g w j = s.fld g w j := rfl
@[simp] theorem modPwr_on (f : PwrS → PwrS) (g : Field) (w j : Nat) : (s.modPwr f).on g w j = s.on g w j := rfl
@[simp] theorem modPwr_fbit (f : PwrS → PwrS) (g : Field) (c w j : Nat) : (s.modPwr f).fbit g c w j = s.fbit g c w j := rfl

/-! ### modPair -/

@[simp] theorem modPair_pending (f : PairS → PairS) : (s.modPair f).pending = s.pending := rfl
@[simp] theorem modPair_fuses (f : PairS → PairS) : (s.modPair f).fuses = s.fuses := rfl
@[simp] theorem modPair_lifecycle (f : PairS → PairS) : (s.modPair f).lifecycle = s.lifecycle := rfl
@[simp] theorem modPair_owner (f : PairS → PairS) : (s.modPair f).owner = s.owner := rfl
@[simp] theorem modPair_op (f : PairS → PairS) : (s.modPair f).op = s.op := rfl
@[simp] theorem modPair_phase (f : PairS → PairS) : (s.modPair f).phase = s.phase := rfl
@[simp] theorem modPair_porLow (f : PairS → PairS) : (s.modPair f).porLow = s.porLow := rfl
@[simp] theorem modPair_lt (f : PairS → PairS) : (s.modPair f).lt = s.lt := rfl
@[simp] theorem modPair_time (f : PairS → PairS) : (s.modPair f).time = s.time := rfl
@[simp] theorem modPair_regs (f : PairS → PairS) : (s.modPair f).regs = s.regs := rfl
@[simp] theorem modPair_tabs (f : PairS → PairS) : (s.modPair f).tabs = s.tabs := rfl
@[simp] theorem modPair_sidCol (f : PairS → PairS) : (s.modPair f).sidCol = s.sidCol := rfl
@[simp] theorem modPair_mixCol (f : PairS → PairS) : (s.modPair f).mixCol = s.mixCol := rfl
@[simp] theorem modPair_conCol (f : PairS → PairS) : (s.modPair f).conCol = s.conCol := rfl
@[simp] theorem modPair_cxmCol (f : PairS → PairS) : (s.modPair f).cxmCol = s.cxmCol := rfl
@[simp] theorem modPair_bad (f : PairS → PairS) : (s.modPair f).bad = s.bad := rfl
@[simp] theorem modPair_flt (f : PairS → PairS) : (s.modPair f).flt = s.flt := rfl
@[simp] theorem modPair_host (f : PairS → PairS) : (s.modPair f).host = s.host := rfl
@[simp] theorem modPair_wide (f : PairS → PairS) : (s.modPair f).wide = s.wide := rfl
@[simp] theorem modPair_frames (f : PairS → PairS) : (s.modPair f).frames = s.frames := rfl
@[simp] theorem modPair_nextId (f : PairS → PairS) : (s.modPair f).nextId = s.nextId := rfl
@[simp] theorem modPair_xing (f : PairS → PairS) : (s.modPair f).xing = s.xing := rfl
@[simp] theorem modPair_inbox (f : PairS → PairS) : (s.modPair f).inbox = s.inbox := rfl
@[simp] theorem modPair_arrived (f : PairS → PairS) : (s.modPair f).arrived = s.arrived := rfl
@[simp] theorem modPair_ports (f : PairS → PairS) : (s.modPair f).ports = s.ports := rfl
@[simp] theorem modPair_islands (f : PairS → PairS) : (s.modPair f).islands = s.islands := rfl
@[simp] theorem modPair_panels (f : PairS → PairS) : (s.modPair f).panels = s.panels := rfl
@[simp] theorem modPair_meters (f : PairS → PairS) : (s.modPair f).meters = s.meters := rfl
@[simp] theorem modPair_recs (f : PairS → PairS) : (s.modPair f).recs = s.recs := rfl
@[simp] theorem modPair_captures (f : PairS → PairS) : (s.modPair f).captures = s.captures := rfl
@[simp] theorem modPair_lines (f : PairS → PairS) : (s.modPair f).lines = s.lines := rfl
@[simp] theorem modPair_mix (f : PairS → PairS) : (s.modPair f).mix = s.mix := rfl
@[simp] theorem modPair_con (f : PairS → PairS) : (s.modPair f).con = s.con := rfl
@[simp] theorem modPair_cxl (f : PairS → PairS) : (s.modPair f).cxl = s.cxl := rfl
@[simp] theorem modPair_raw (f : PairS → PairS) : (s.modPair f).raw = s.raw := rfl
@[simp] theorem modPair_chans (f : PairS → PairS) : (s.modPair f).chans = s.chans := rfl
@[simp] theorem modPair_lastCh (f : PairS → PairS) : (s.modPair f).lastCh = s.lastCh := rfl
@[simp] theorem modPair_pwr (f : PairS → PairS) : (s.modPair f).pwr = s.pwr := rfl
@[simp] theorem modPair_pair (f : PairS → PairS) : (s.modPair f).pair = f s.pair := rfl
@[simp] theorem modPair_bst (f : PairS → PairS) : (s.modPair f).bst = s.bst := rfl
@[simp] theorem modPair_draws (f : PairS → PairS) : (s.modPair f).draws = s.draws := rfl
@[simp] theorem modPair_board (f : PairS → PairS) : (s.modPair f).board = s.board := rfl
@[simp] theorem modPair_copies (f : PairS → PairS) : (s.modPair f).copies = s.copies := rfl
@[simp] theorem modPair_unblocks (f : PairS → PairS) : (s.modPair f).unblocks = s.unblocks := rfl
@[simp] theorem modPair_fld (f : PairS → PairS) (g : Field) (w j : Nat) : (s.modPair f).fld g w j = s.fld g w j := rfl
@[simp] theorem modPair_on (f : PairS → PairS) (g : Field) (w j : Nat) : (s.modPair f).on g w j = s.on g w j := rfl
@[simp] theorem modPair_fbit (f : PairS → PairS) (g : Field) (c w j : Nat) : (s.modPair f).fbit g c w j = s.fbit g c w j := rfl

/-! ### modBst -/

@[simp] theorem modBst_pending (f : BstS → BstS) : (s.modBst f).pending = s.pending := rfl
@[simp] theorem modBst_fuses (f : BstS → BstS) : (s.modBst f).fuses = s.fuses := rfl
@[simp] theorem modBst_lifecycle (f : BstS → BstS) : (s.modBst f).lifecycle = s.lifecycle := rfl
@[simp] theorem modBst_owner (f : BstS → BstS) : (s.modBst f).owner = s.owner := rfl
@[simp] theorem modBst_op (f : BstS → BstS) : (s.modBst f).op = s.op := rfl
@[simp] theorem modBst_phase (f : BstS → BstS) : (s.modBst f).phase = s.phase := rfl
@[simp] theorem modBst_porLow (f : BstS → BstS) : (s.modBst f).porLow = s.porLow := rfl
@[simp] theorem modBst_lt (f : BstS → BstS) : (s.modBst f).lt = s.lt := rfl
@[simp] theorem modBst_time (f : BstS → BstS) : (s.modBst f).time = s.time := rfl
@[simp] theorem modBst_regs (f : BstS → BstS) : (s.modBst f).regs = s.regs := rfl
@[simp] theorem modBst_tabs (f : BstS → BstS) : (s.modBst f).tabs = s.tabs := rfl
@[simp] theorem modBst_sidCol (f : BstS → BstS) : (s.modBst f).sidCol = s.sidCol := rfl
@[simp] theorem modBst_mixCol (f : BstS → BstS) : (s.modBst f).mixCol = s.mixCol := rfl
@[simp] theorem modBst_conCol (f : BstS → BstS) : (s.modBst f).conCol = s.conCol := rfl
@[simp] theorem modBst_cxmCol (f : BstS → BstS) : (s.modBst f).cxmCol = s.cxmCol := rfl
@[simp] theorem modBst_bad (f : BstS → BstS) : (s.modBst f).bad = s.bad := rfl
@[simp] theorem modBst_flt (f : BstS → BstS) : (s.modBst f).flt = s.flt := rfl
@[simp] theorem modBst_host (f : BstS → BstS) : (s.modBst f).host = s.host := rfl
@[simp] theorem modBst_wide (f : BstS → BstS) : (s.modBst f).wide = s.wide := rfl
@[simp] theorem modBst_frames (f : BstS → BstS) : (s.modBst f).frames = s.frames := rfl
@[simp] theorem modBst_nextId (f : BstS → BstS) : (s.modBst f).nextId = s.nextId := rfl
@[simp] theorem modBst_xing (f : BstS → BstS) : (s.modBst f).xing = s.xing := rfl
@[simp] theorem modBst_inbox (f : BstS → BstS) : (s.modBst f).inbox = s.inbox := rfl
@[simp] theorem modBst_arrived (f : BstS → BstS) : (s.modBst f).arrived = s.arrived := rfl
@[simp] theorem modBst_ports (f : BstS → BstS) : (s.modBst f).ports = s.ports := rfl
@[simp] theorem modBst_islands (f : BstS → BstS) : (s.modBst f).islands = s.islands := rfl
@[simp] theorem modBst_panels (f : BstS → BstS) : (s.modBst f).panels = s.panels := rfl
@[simp] theorem modBst_meters (f : BstS → BstS) : (s.modBst f).meters = s.meters := rfl
@[simp] theorem modBst_recs (f : BstS → BstS) : (s.modBst f).recs = s.recs := rfl
@[simp] theorem modBst_captures (f : BstS → BstS) : (s.modBst f).captures = s.captures := rfl
@[simp] theorem modBst_lines (f : BstS → BstS) : (s.modBst f).lines = s.lines := rfl
@[simp] theorem modBst_mix (f : BstS → BstS) : (s.modBst f).mix = s.mix := rfl
@[simp] theorem modBst_con (f : BstS → BstS) : (s.modBst f).con = s.con := rfl
@[simp] theorem modBst_cxl (f : BstS → BstS) : (s.modBst f).cxl = s.cxl := rfl
@[simp] theorem modBst_raw (f : BstS → BstS) : (s.modBst f).raw = s.raw := rfl
@[simp] theorem modBst_chans (f : BstS → BstS) : (s.modBst f).chans = s.chans := rfl
@[simp] theorem modBst_lastCh (f : BstS → BstS) : (s.modBst f).lastCh = s.lastCh := rfl
@[simp] theorem modBst_pwr (f : BstS → BstS) : (s.modBst f).pwr = s.pwr := rfl
@[simp] theorem modBst_pair (f : BstS → BstS) : (s.modBst f).pair = s.pair := rfl
@[simp] theorem modBst_bst (f : BstS → BstS) : (s.modBst f).bst = f s.bst := rfl
@[simp] theorem modBst_draws (f : BstS → BstS) : (s.modBst f).draws = s.draws := rfl
@[simp] theorem modBst_board (f : BstS → BstS) : (s.modBst f).board = s.board := rfl
@[simp] theorem modBst_copies (f : BstS → BstS) : (s.modBst f).copies = s.copies := rfl
@[simp] theorem modBst_unblocks (f : BstS → BstS) : (s.modBst f).unblocks = s.unblocks := rfl
@[simp] theorem modBst_fld (f : BstS → BstS) (g : Field) (w j : Nat) : (s.modBst f).fld g w j = s.fld g w j := rfl
@[simp] theorem modBst_on (f : BstS → BstS) (g : Field) (w j : Nat) : (s.modBst f).on g w j = s.on g w j := rfl
@[simp] theorem modBst_fbit (f : BstS → BstS) (g : Field) (c w j : Nat) : (s.modBst f).fbit g c w j = s.fbit g c w j := rfl

/-! ### run -/

@[simp] theorem run_pending (dt : Nat) : (s.run dt).pending = s.pending := rfl
@[simp] theorem run_fuses (dt : Nat) : (s.run dt).fuses = s.fuses := rfl
@[simp] theorem run_lifecycle (dt : Nat) : (s.run dt).lifecycle = s.lifecycle := rfl
@[simp] theorem run_owner (dt : Nat) : (s.run dt).owner = s.owner := rfl
@[simp] theorem run_op (dt : Nat) : (s.run dt).op = s.op := rfl
@[simp] theorem run_phase (dt : Nat) : (s.run dt).phase = s.phase := rfl
@[simp] theorem run_porLow (dt : Nat) : (s.run dt).porLow = s.porLow := rfl
@[simp] theorem run_regs (dt : Nat) : (s.run dt).regs = s.regs := rfl
@[simp] theorem run_tabs (dt : Nat) : (s.run dt).tabs = s.tabs := rfl
@[simp] theorem run_sidCol (dt : Nat) : (s.run dt).sidCol = s.sidCol := rfl
@[simp] theorem run_mixCol (dt : Nat) : (s.run dt).mixCol = s.mixCol := rfl
@[simp] theorem run_conCol (dt : Nat) : (s.run dt).conCol = s.conCol := rfl
@[simp] theorem run_cxmCol (dt : Nat) : (s.run dt).cxmCol = s.cxmCol := rfl
@[simp] theorem run_bad (dt : Nat) : (s.run dt).bad = s.bad := rfl
@[simp] theorem run_flt (dt : Nat) : (s.run dt).flt = s.flt := rfl
@[simp] theorem run_host (dt : Nat) : (s.run dt).host = s.host := rfl
@[simp] theorem run_wide (dt : Nat) : (s.run dt).wide = s.wide := rfl
@[simp] theorem run_frames (dt : Nat) : (s.run dt).frames = s.frames := rfl
@[simp] theorem run_nextId (dt : Nat) : (s.run dt).nextId = s.nextId := rfl
@[simp] theorem run_xing (dt : Nat) : (s.run dt).xing = s.xing := rfl
@[simp] theorem run_inbox (dt : Nat) : (s.run dt).inbox = s.inbox := rfl
@[simp] theorem run_arrived (dt : Nat) : (s.run dt).arrived = s.arrived := rfl
@[simp] theorem run_ports (dt : Nat) : (s.run dt).ports = s.ports := rfl
@[simp] theorem run_islands (dt : Nat) : (s.run dt).islands = s.islands := rfl
@[simp] theorem run_panels (dt : Nat) : (s.run dt).panels = s.panels := rfl
@[simp] theorem run_meters (dt : Nat) : (s.run dt).meters = s.meters := rfl
@[simp] theorem run_recs (dt : Nat) : (s.run dt).recs = s.recs := rfl
@[simp] theorem run_captures (dt : Nat) : (s.run dt).captures = s.captures := rfl
@[simp] theorem run_lines (dt : Nat) : (s.run dt).lines = s.lines := rfl
@[simp] theorem run_mix (dt : Nat) : (s.run dt).mix = s.mix := rfl
@[simp] theorem run_cxl (dt : Nat) : (s.run dt).cxl = s.cxl := rfl
@[simp] theorem run_raw (dt : Nat) : (s.run dt).raw = s.raw := rfl
@[simp] theorem run_chans (dt : Nat) : (s.run dt).chans = s.chans := rfl
@[simp] theorem run_lastCh (dt : Nat) : (s.run dt).lastCh = s.lastCh := rfl
@[simp] theorem run_pwr (dt : Nat) : (s.run dt).pwr = s.pwr := rfl
@[simp] theorem run_pair (dt : Nat) : (s.run dt).pair = s.pair := rfl
@[simp] theorem run_bst (dt : Nat) : (s.run dt).bst = s.bst := rfl
@[simp] theorem run_draws (dt : Nat) : (s.run dt).draws = s.draws := rfl
@[simp] theorem run_board (dt : Nat) : (s.run dt).board = s.board := rfl
@[simp] theorem run_copies (dt : Nat) : (s.run dt).copies = s.copies := rfl
@[simp] theorem run_unblocks (dt : Nat) : (s.run dt).unblocks = s.unblocks := rfl
@[simp] theorem run_fld (dt : Nat) (g : Field) (w j : Nat) : (s.run dt).fld g w j = s.fld g w j := rfl
@[simp] theorem run_on (dt : Nat) (g : Field) (w j : Nat) : (s.run dt).on g w j = s.on g w j := rfl
@[simp] theorem run_fbit (dt : Nat) (g : Field) (c w j : Nat) : (s.run dt).fbit g c w j = s.fbit g c w j := rfl

@[simp] theorem run_lt (dt : Nat) : (s.run dt).lt = s.lt + dt := rfl
@[simp] theorem run_nt (dt : Nat) : (s.run dt).time.nt = (s.time.nt + s.gain dt) % ntMod := rfl

/-! ### Units -/

@[simp] theorem port_setPort_same (p : Nat) (d : PortDyn) : (s.setPort p d).port p = d := val_putD_same ..
theorem port_setPort_ne (p q : Nat) (d : PortDyn) (h : q ≠ p) : (s.setPort p d).port q = s.port q := val_putD_ne _ _ _ _ _ _ h
@[simp] theorem port_modPort_same (p : Nat) (f : PortDyn → PortDyn) : (s.modPort p f).port p = f (s.port p) := val_putD_same ..
theorem port_modPort_ne (p q : Nat) (f : PortDyn → PortDyn) (h : q ≠ p) : (s.modPort p f).port q = s.port q :=
  val_putD_ne _ _ _ _ _ _ h
@[simp] theorem tsu_modTsu_same (p : Nat) (f : TsuDyn → TsuDyn) : ((s.modTsu p f).port p).tsu = f (s.port p).tsu := by
  unfold State.modTsu; simp
@[simp] theorem sen_modSen_same (p : Nat) (f : SenDyn → SenDyn) : ((s.modSen p f).port p).sen = f (s.port p).sen := by
  unfold State.modSen; simp
@[simp] theorem island_setIsland_same (p : Nat) (d : IslandDyn) : (s.setIsland p d).island p = d := val_putD_same ..
@[simp] theorem panel_setPanel_same (p : Nat) (d : PanelDyn) : (s.setPanel p d).panel p = d := val_putD_same ..
@[simp] theorem chan_setChan_same (p : Nat) (d : ChDyn) : (s.setChan p d).chan p = d := val_putD_same ..
@[simp] theorem cxlPort_setCxl_same (p : Nat) (d : CxlPort) : (s.setCxl p d).cxlPort p = d := val_putD_same ..
@[simp] theorem line_setLine_same (p : Nat) (d : LineDyn) : (s.setLine p d).line p = d := val_putD_same ..
@[simp] theorem meter_setMeter_same (p : Nat) (d : MeterDyn) : (s.setMeter p d).meter p = d := val_putD_same ..
@[simp] theorem recov_setRecov_same (p : Nat) (d : RecDyn) : (s.setRecov p d).recov p = d := val_putD_same ..

end Sys2Proof.Laws
end

