-- ==== Sys2Proof/Laws/Fields.lean ====
section
/-! SUPPORT. Laws of register fields: what a field reads after it, or another, is set; and the frames of field updates. -/

namespace Sys2Proof.Laws

open Sys2Proof Sys2Proof.Machine

variable (s : State)

@[simp] theorem fld_setf_same (f : Field) (v u i : Nat) : (s.setf f v u i).fld f u i = v % 2 ^ f.width := val_putD_same ..

theorem fld_setf_ne (f g : Field) (v u i w j : Nat) (h : g.key w j ≠ f.key u i) :
    (s.setf f v u i).fld g w j = s.fld g w j := val_putD_ne _ _ _ _ _ _ h

theorem on_setf_ne (f g : Field) (v u i w j : Nat) (h : g.key w j ≠ f.key u i) :
    (s.setf f v u i).on g w j = s.on g w j := by unfold State.on; rw [fld_setf_ne s f g v u i w j h]

theorem fbit_setf_ne (f g : Field) (v u i c w j : Nat) (h : g.key w j ≠ f.key u i) :
    (s.setf f v u i).fbit g c w j = s.fbit g c w j := by unfold State.fbit; rw [fld_setf_ne s f g v u i w j h]

theorem fld_bump_ne (f g : Field) (u i n w j : Nat) (h : g.key w j ≠ f.key u i) :
    (s.bump f u i n).fld g w j = s.fld g w j := fld_setf_ne _ _ _ _ _ _ _ _ h

theorem fld_setBit_ne (f g : Field) (b : Nat) (x : Bool) (u i w j : Nat) (h : g.key w j ≠ f.key u i) :
    (s.setBit f b x u i).fld g w j = s.fld g w j := fld_setf_ne _ _ _ _ _ _ _ _ h

/-- A saturating counter never exceeds its largest value. -/
theorem fld_bump_same (f : Field) (u i n : Nat) (h : f.width ≠ 64) :
    (s.bump f u i n).fld f u i = min (s.fld f u i + n) (2 ^ f.width - 1) := by
  unfold State.bump
  simp only [h, if_false, fld_setf_same]
  apply Nat.mod_eq_of_lt
  have := Nat.two_pow_pos f.width
  omega

/-- Setting a bit within a field sets that bit. -/
theorem testBit_withBits_one (n b : Nat) : (withBits n b b 1).testBit b = true := by
  unfold withBits bitsOf
  have h2 : b + 1 - b = 1 := by omega
  rw [h2]
  have hp := Nat.two_pow_pos b
  have hq : n = 2 ^ b * (n / 2 ^ b) + n % 2 ^ b := (Nat.div_add_mod n (2 ^ b)).symm
  have hr : n % 2 ^ b < 2 ^ b := Nat.mod_lt _ hp
  have hx : n - n / 2 ^ b % 2 ^ 1 * 2 ^ b + 1 % 2 ^ 1 * 2 ^ b = 2 ^ b * (2 * (n / 2 ^ b / 2) + 1) + n % 2 ^ b := by
    have h3 : n / 2 ^ b % 2 = n / 2 ^ b - 2 * (n / 2 ^ b / 2) := by omega
    have h4 : 2 * (n / 2 ^ b / 2) ≤ n / 2 ^ b := by omega
    have h5 : n / 2 ^ b % 2 ^ 1 = n / 2 ^ b % 2 := by simp
    rw [h5, h3, show (1 : Nat) % 2 ^ 1 = 1 from rfl]
    generalize hA : n / 2 ^ b = A at *
    generalize hB : A / 2 = B at *
    have h6 : (A - 2 * B) * 2 ^ b = A * 2 ^ b - 2 * B * 2 ^ b := Nat.sub_mul ..
    have h7 : 2 * B * 2 ^ b ≤ A * 2 ^ b := Nat.mul_le_mul_right _ h4
    rw [h6, Nat.mul_add, Nat.mul_comm (2 ^ b) (2 * B)]
    rw [Nat.mul_comm (2 ^ b) A] at hq
    omega
  rw [hx, Nat.testBit_eq_decide_div_mod_eq, Nat.add_comm, Nat.add_mul_div_left _ _ hp, Nat.div_eq_of_lt hr]
  simp

/-- The keys of a field of the map are kept rising by every field update. -/
theorem regsWf_setf (f : Field) (v u i : Nat) (h : Safety.regsWf s = true) : Safety.regsWf (s.setf f v u i) = true :=
  wf_putD _ _ _ _ h

theorem tabsWf_setTab (k v : Nat) (h : Safety.tabsWf s = true) : Safety.tabsWf (s.setTab k v) = true := canon_putD _ _ _ _ h

/-- Table dwords: a read after a write, while no test pattern stands in the memory. -/
theorem tab_setTab_same (k v : Nat) (h : s.bst.tested = []) : (s.setTab k v).tab k = v % 2 ^ 32 := by
  simp [State.tab, State.patterned, h]

theorem tab_setTab_ne (k k' v : Nat) (h : k' ≠ k) : (s.setTab k v).tab k' = s.tab k' := by
  have hb : (s.setTab k v).bst = s.bst := rfl
  have ht : (s.setTab k v).tabs = SMap.putD s.tabs k (BitVec.ofNat 32 v) 0#32 := rfl
  simp only [State.tab, State.patterned, hb, ht, val_putD_ne _ _ _ _ _ _ h]
  rfl

end Sys2Proof.Laws
end

