-- ==== Sys2Proof/Laws/Status.lean ====
section
/-! SUPPORT. What the operations of the fault collector, of the refusal record and of the sequencer can do at most: they change
register fields, the collector, the host island and what a change of the operating state brings, and nothing else. -/

namespace Sys2Proof.Laws

open Sys2Proof Sys2Proof.Machine

/-- At most the operating state, the registers, the collector, the host island, the ring's remote command, power, pair and
BIST states differ. -/
@[irreducible] def Status (s t : State) : Prop :=
  t = { s with op := t.op, regs := t.regs, flt := t.flt, host := t.host, con := t.con, pwr := t.pwr, pair := t.pair, bst := t.bst }

theorem Status.refl (s : State) : Status s s := by unfold Status; rfl

theorem Status.trans {s t u : State} (h1 : Status s t) (h2 : Status t u) : Status s u := by
  unfold Status at *
  rw [h2]
  rw [h1]

theorem status_setf (s : State) (f : Field) (v u i : Nat) : Status s (s.setf f v u i) := by unfold Status; rfl
theorem status_setBit (s : State) (f : Field) (b : Nat) (x : Bool) (u i : Nat) : Status s (s.setBit f b x u i) := by unfold Status; rfl
theorem status_bump (s : State) (f : Field) (u i n : Nat) : Status s (s.bump f u i n) := by unfold Status; rfl
theorem status_modHost (s : State) (f : HostS → HostS) : Status s (s.modHost f) := by unfold Status; rfl
theorem status_modPwr (s : State) (f : PwrS → PwrS) : Status s (s.modPwr f) := by unfold Status; rfl
theorem status_modPair (s : State) (f : PairS → PairS) : Status s (s.modPair f) := by unfold Status; rfl
theorem status_modCon (s : State) (f : ConS → ConS) : Status s (s.modCon f) := by unfold Status; rfl
theorem status_modBst (s : State) (f : BstS → BstS) : Status s (s.modBst f) := by unfold Status; rfl

theorem status_flt (s : State) (f : FltS) : Status s { s with flt := f } := by unfold Status; rfl
theorem status_bst (s : State) (f : BstS) : Status s { s with bst := f } := by unfold Status; rfl

theorem status_foldl {α : Type} (f : State → α → State) (h : ∀ s x, Status s (f s x)) (l : List α) (s : State) :
    Status s (l.foldl f s) := by
  induction l generalizing s with
  | nil => exact .refl s
  | cons x r ih => exact (h s x).trans (ih _)

theorem status_sendVec (s : State) (fn v : Nat) : Status s (s.sendVec fn v) := by
  unfold State.sendVec
  split
  · exact .refl s
  · split
    · split
      · exact .refl s
      · exact status_modHost ..
    · split
      · exact .refl s
      · exact status_modHost ..

theorem status_faultIrq (s : State) : Status s s.faultIrq := by
  unfold State.faultIrq
  split
  · exact status_flt ..
  · extract_lets t h
    have ht : Status s t := status_sendVec s 0 1
    split
    · exact ht
    · exact ht.trans (status_flt ..)

theorem status_setCause (s : State) (src : Nat) : Status s (s.setCause src) := by
  unfold State.setCause
  extract_lets f s0 t f' t'
  have h0 : Status s s0 := status_flt ..
  split
  · exact h0
  · have ht : Status s t' := h0.trans ((status_setBit ..).trans (status_flt ..))
    split
    · exact ht.trans (status_faultIrq t')
    · exact ht

theorem status_record (s : State) (src info : Nat) : Status s (s.record src info) := by
  unfold State.record
  extract_lets sev r0 a r f0 f q t t2
  have h1 : Status s t := status_flt ..
  have h2 : Status s t2 := by unfold t2; split; exact h1.trans (status_bump ..); exact h1
  exact (h2.trans (status_bump ..)).trans (status_setCause ..)

theorem status_startExit (s : State) : Status s s.startExit := by
  unfold State.startExit
  split
  · split
    · exact .refl s
    · exact status_modPwr ..
  · split
    · exact (status_modPwr ..).trans (status_setf ..)
    · exact .refl s

theorem status_wake (s : State) (bit : Nat) (port : Option Nat) : Status s (s.wake bit port) := by
  unfold State.wake
  extract_lets t t1 t2 t3
  have h1 : Status s t1 := by unfold t1 t; split; exact (status_setBit ..).trans (status_setf ..); exact status_setBit ..
  have h2 : Status s t2 := h1.trans (status_record ..)
  have h3 : Status s t3 := h2.trans (status_modPwr ..)
  split
  · exact h3.trans (status_startExit ..)
  · exact h3

theorem status_wakeIf (s : State) (bit : Nat) (port : Option Nat) : Status s (s.wakeIf bit port) := by
  unfold State.wakeIf
  split
  · exact status_wake ..
  · exact .refl s

theorem status_setResp (s : State) (fn : Nat) (ws : List Nat) : Status s (s.setResp fn ws) :=
  status_foldl _ (fun _ _ => status_setf ..) _ _

theorem status_answer (s : State) (c : Cmd) (st det : Nat) (ws : List Nat) : Status s (s.answer c st det ws) := by
  unfold State.answer
  split
  · exact (status_modCon ..).trans (status_modHost ..)
  · split
    · exact status_bump ..
    · extract_lets t t1 t2 t3 t4 t5
      have h : Status s t5 := (((((status_setResp ..).trans (status_setf ..)).trans (status_setf ..)).trans
        (status_setf ..)).trans (status_setf ..)).trans (status_bump ..)
      split
      · exact h.trans (status_sendVec ..)
      · exact h

/-- A completed command changes registers of its mailbox and the host island (for the remote source the ring's slot). -/
theorem status_finish (s : State) (st det : Nat) (ws : List Nat) : Status s (s.finish st det ws) := by
  unfold State.finish
  split
  · exact .refl s
  · exact (status_modHost ..).trans (status_answer ..)

theorem status_finishOk (s : State) (ws : List Nat) : Status s (s.finishOk ws) := status_finish ..

theorem status_finishParked (s : State) (op st det : Nat) (ws : List Nat) : Status s (s.finishParked op st det ws) := by
  unfold State.finishParked
  split
  · exact .refl s
  · exact (status_modHost ..).trans (status_answer ..)

theorem status_park (s : State) : Status s s.park := by
  unfold State.park
  split
  · exact .refl s
  · extract_lets t
    split
    · exact ((status_modHost ..).trans (status_setf ..)).trans (status_setf ..)
    · exact status_modHost ..

theorem status_pauseChan (s : State) (c : Nat) : Status s (s.pauseChan c) := by
  unfold State.pauseChan
  extract_lets st t
  have h : Status s t := status_setf ..
  split
  · exact h.trans (status_setf ..)
  · split
    · exact h.trans (status_setf ..)
    · exact h

theorem status_cutOff (s : State) : Status s s.cutOff := by
  unfold State.cutOff
  extract_lets us b
  split
  · exact .refl s
  · exact status_bst ..

theorem status_bistStop (s : State) : Status s s.bistStop := by
  unfold State.bistStop
  split
  · exact .refl s
  · extract_lets s0 us b0 b b' t
    have h : Status s (t.setf F.BST_STATUS.RUNNING 0) := (status_cutOff s).trans ((status_bst ..).trans (status_setf ..))
    exact h.trans (status_finishParked ..)

theorem status_toOp (s : State) (new : OpState) : Status s (s.toOp new) := by unfold Status; rfl

theorem status_toSafe (s : State) : Status s s.toSafe := by
  unfold State.toSafe
  extract_lets t
  have h : Status s t := by
    have h1 : Status s (s.toOp .safe) := status_toOp ..
    have h2 : Status (s.toOp .safe) (s.toOp .safe).pauseAll := status_foldl _ status_pauseChan _ _
    exact (h1.trans h2).trans (status_bistStop ..)
  split
  · exact (h.trans (status_modPair ..)).trans (status_setf ..)
  · exact h

theorem status_reactS3 (s : State) : Status s s.reactS3 := by
  unfold State.reactS3
  split
  · exact .refl s
  · extract_lets t stops t0 t1
    have h : Status s t := status_wake ..
    have h1 : Status s t1 := (h.trans (status_modPwr ..)).trans ((status_modPair ..).trans (status_modPair ..))
    split
    · split
      · exact h1.trans (status_startExit ..)
      · exact h1
    · split
      · exact h
      · split
        · exact (h.trans (status_startExit ..)).trans (status_toSafe ..)
        · exact h.trans (status_toSafe ..)

/-- A fault event changes no clock, no table, no frame and no unit of the data path. -/
theorem status_raise (s : State) (src info : Nat) : Status s (s.raise src info) := by
  unfold State.raise
  extract_lets t
  have h : Status s t := status_record ..
  split
  · exact h.trans (status_reactS3 ..)
  · split
    · exact h.trans (status_wakeIf ..)
    · exact h

theorem status_settleS3 (s : State) : Status s s.settleS3 := by
  unfold State.settleS3
  split
  · extract_lets t
    have h : Status s t := status_modPwr ..
    split
    · exact h
    · split
      · exact (h.trans (status_startExit ..)).trans (status_toSafe ..)
      · exact h.trans (status_toSafe ..)
  · exact .refl s

/-- A refused write changes the refusal record and what raising REG_WRITE_IGNORED changes, and nothing else. -/
theorem status_refuse (s : State) (o : Origin4) (data cause : Nat) : Status s (s.refuse o data cause) := by
  unfold State.refuse
  extract_lets t t1 t2 t3 t4 t5 t6 t7
  split
  · exact (status_bump ..).trans (status_setf ..)
  · have h : Status s t7 := (((((((status_bump ..).trans (status_setf ..)).trans (status_setf ..)).trans (status_setf ..)).trans
      (status_setf ..)).trans (status_setf ..)).trans (status_setf ..)).trans (status_setf ..)
    exact h.trans (status_raise ..)

/-! ### Projections -/

variable {s t : State}

theorem Status.pending (h : Status s t) : t.pending = s.pending := by unfold Status at h; rw [h]
theorem Status.fuses (h : Status s t) : t.fuses = s.fuses := by unfold Status at h; rw [h]
theorem Status.lifecycle (h : Status s t) : t.lifecycle = s.lifecycle := by unfold Status at h; rw [h]
theorem Status.owner (h : Status s t) : t.owner = s.owner := by unfold Status at h; rw [h]
theorem Status.phase (h : Status s t) : t.phase = s.phase := by unfold Status at h; rw [h]
theorem Status.porLow (h : Status s t) : t.porLow = s.porLow := by unfold Status at h; rw [h]
theorem Status.lt (h : Status s t) : t.lt = s.lt := by unfold Status at h; rw [h]
theorem Status.time (h : Status s t) : t.time = s.time := by unfold Status at h; rw [h]
theorem Status.tabs (h : Status s t) : t.tabs = s.tabs := by unfold Status at h; rw [h]
theorem Status.bad (h : Status s t) : t.bad = s.bad := by unfold Status at h; rw [h]
theorem Status.wide (h : Status s t) : t.wide = s.wide := by unfold Status at h; rw [h]
theorem Status.frames (h : Status s t) : t.frames = s.frames := by unfold Status at h; rw [h]
theorem Status.ports (h : Status s t) : t.ports = s.ports := by unfold Status at h; rw [h]
theorem Status.islands (h : Status s t) : t.islands = s.islands := by unfold Status at h; rw [h]
theorem Status.panels (h : Status s t) : t.panels = s.panels := by unfold Status at h; rw [h]
theorem Status.recs (h : Status s t) : t.recs = s.recs := by unfold Status at h; rw [h]
theorem Status.lines (h : Status s t) : t.lines = s.lines := by unfold Status at h; rw [h]
theorem Status.mix (h : Status s t) : t.mix = s.mix := by unfold Status at h; rw [h]
theorem Status.cxl (h : Status s t) : t.cxl = s.cxl := by unfold Status at h; rw [h]
theorem Status.chans (h : Status s t) : t.chans = s.chans := by unfold Status at h; rw [h]
theorem Status.draws (h : Status s t) : t.draws = s.draws := by unfold Status at h; rw [h]

end Sys2Proof.Laws
end

