-- ==== Sys2Proof/Laws/Xci.lean ====
section
/-! SUPPORT. The sequencer's operations: what the mailbox shows once a command has completed. -/

namespace Sys2Proof.Laws

open Sys2Proof Sys2Proof.Machine

theorem fld_sendVec (s : State) (fn v : Nat) (g : Field) (u i : Nat) : (s.sendVec fn v).fld g u i = s.fld g u i := by
  unfold State.sendVec
  split
  · rfl
  · split
    · split <;> rfl
    · split <;> rfl

theorem cur_sendVec (s : State) (fn v : Nat) : (s.sendVec fn v).host.cur = s.host.cur := by
  unfold State.sendVec
  split
  · rfl
  · split
    · split <;> rfl
    · split <;> rfl

theorem host_setResp (s : State) (fn : Nat) (ws : List Nat) : (s.setResp fn ws).host = s.host := by
  have : ∀ (l : List Nat) (t : State), (l.foldl (fun t w => t.setf F.HIF_MB_RESP (ws.getD w 0) fn w) t).host = t.host := by
    intro l
    induction l with
    | nil => intro t; rfl
    | cons x r ih => intro t; exact (ih _).trans rfl
  exact this _ s

theorem key_resp (fn w : Nat) : F.HIF_MB_RESP.key fn w = (0x100 + 0x1000000 * fn + 4 * w) * 32 := by
  simp [Field.key, F.HIF_MB_RESP]

/-- The words that a response writes. -/
theorem fld_setResp (s : State) (fn : Nat) (ws : List Nat) (w : Nat) (h : w < 16) :
    (s.setResp fn ws).fld F.HIF_MB_RESP fn w = ws.getD w 0 % 2 ^ 32 := by
  have key : ∀ (l : List Nat) (t : State),
      (l.foldl (fun t w => t.setf F.HIF_MB_RESP (ws.getD w 0) fn w) t).fld F.HIF_MB_RESP fn w =
        if w ∈ l then ws.getD w 0 % 2 ^ 32 else t.fld F.HIF_MB_RESP fn w := by
    intro l
    induction l with
    | nil => intro t; simp
    | cons x r ih =>
      intro t
      rw [List.foldl_cons, ih]
      by_cases hx : w = x
      · subst hx; simp; intro _; rfl
      · rw [fld_setf_ne _ _ _ _ _ _ _ _ (by rw [key_resp, key_resp]; omega)]
        simp [hx]
  unfold State.setResp
  rw [key, if_pos (List.mem_range.mpr h)]

/-- The mailbox after a command has completed (R305 step 5). -/
theorem finish_answers (s : State) (c : Cmd) (st det : Nat) (ws : List Nat) (hc : s.host.cur = some c) (hs : c.src < 16)
    (hd : c.discard = false) : Safety.Answers (s.finish st det ws) c st det ws := by
  unfold State.finish
  rw [hc]
  dsimp only
  unfold State.answer
  rw [if_neg (by omega), if_neg (by simp [hd])]
  extract_lets s0 s1 s2 s3 s4 s5
  have hcur : s5.host.cur = none := by
    unfold s5 s4 s3 s2 s1
    simp only [bump_host, setf_host]
    rw [host_setResp]
    rfl
  have ho : ∀ (g : Field) (v : Nat), g.key c.src v ≠ F.HIF_CMDS.key c.src 0 →
      g.key c.src v ≠ F.HIF_MB_STATUS.PARKED.key c.src 0 → s5.fld g c.src v = s3.fld g c.src v := by
    intro g v h1 h2
    unfold s5 s4
    rw [fld_bump_ne _ _ _ _ _ _ _ _ h1, fld_setf_ne _ _ _ _ _ _ _ _ h2]
  have hdone : s5.fld F.HIF_MB_STATUS.DONE c.src = 1 := by
    rw [ho _ _ (by simp [Field.key, F.HIF_MB_STATUS.DONE, F.HIF_CMDS] <;> omega)
      (by simp [Field.key, F.HIF_MB_STATUS.DONE, F.HIF_MB_STATUS.PARKED])]
    unfold s3 s2
    rw [fld_setf_ne _ _ _ _ _ _ _ _ (by simp [Field.key, F.HIF_MB_STATUS.DONE, F.HIF_MB_STATUS.EXECUTING]),
      fld_setf_ne _ _ _ _ _ _ _ _ (by simp [Field.key, F.HIF_MB_STATUS.DONE, F.HIF_MB_STATUS.BUSY])]
    unfold s1
    rw [fld_setf_same]
    rfl
  have hbusy : s5.fld F.HIF_MB_STATUS.BUSY c.src = 0 := by
    rw [ho _ _ (by simp [Field.key, F.HIF_MB_STATUS.BUSY, F.HIF_CMDS] <;> omega)
      (by simp [Field.key, F.HIF_MB_STATUS.BUSY, F.HIF_MB_STATUS.PARKED])]
    unfold s3 s2
    rw [fld_setf_ne _ _ _ _ _ _ _ _ (by simp [Field.key, F.HIF_MB_STATUS.BUSY, F.HIF_MB_STATUS.EXECUTING]),
      fld_setf_same]
    rfl
  have hexec : s5.fld F.HIF_MB_STATUS.EXECUTING c.src = 0 := by
    rw [ho _ _ (by simp [Field.key, F.HIF_MB_STATUS.EXECUTING, F.HIF_CMDS] <;> omega)
      (by simp [Field.key, F.HIF_MB_STATUS.EXECUTING, F.HIF_MB_STATUS.PARKED])]
    unfold s3
    rw [fld_setf_same]
    rfl
  have hresp : ∀ w, w < 16 → s5.fld F.HIF_MB_RESP c.src w = (respWords c st det ws).getD w 0 % 2 ^ 32 := by
    intro w hw
    rw [ho _ _ (by simp [Field.key, F.HIF_MB_RESP, F.HIF_CMDS] <;> omega)
      (by simp [Field.key, F.HIF_MB_RESP, F.HIF_MB_STATUS.PARKED]; omega)]
    unfold s3 s2 s1
    rw [fld_setf_ne _ _ _ _ _ _ _ _ (by simp [Field.key, F.HIF_MB_RESP, F.HIF_MB_STATUS.EXECUTING]; omega),
      fld_setf_ne _ _ _ _ _ _ _ _ (by simp [Field.key, F.HIF_MB_RESP, F.HIF_MB_STATUS.BUSY]; omega),
      fld_setf_ne _ _ _ _ _ _ _ _ (by simp [Field.key, F.HIF_MB_RESP, F.HIF_MB_STATUS.DONE]; omega)]
    exact fld_setResp _ _ _ _ hw
  unfold Safety.Answers
  split
  · exact ⟨(cur_sendVec ..).trans hcur, (fld_sendVec ..).trans hdone, (fld_sendVec ..).trans hbusy,
      (fld_sendVec ..).trans hexec, fun w hw => (fld_sendVec ..).trans (hresp w hw)⟩
  · exact ⟨hcur, hdone, hbusy, hexec, hresp⟩

theorem regs_sendVec (s : State) (fn v : Nat) : (s.sendVec fn v).regs = s.regs := by
  unfold State.sendVec
  split
  · rfl
  · split
    · split <;> rfl
    · split <;> rfl

/-- At most registers, the command in execution and the state of vectors differ. -/
@[irreducible] def Mail (s t : State) : Prop :=
  t = { s with
    regs := t.regs
    host := { s.host with cur := t.host.cur, pendingVec := t.host.pendingVec, sent := t.host.sent } }

theorem Mail.refl (s : State) : Mail s s := by unfold Mail; rfl

theorem Mail.trans {s t u : State} (h1 : Mail s t) (h2 : Mail t u) : Mail s u := by
  unfold Mail at *
  rw [h2]
  rw [h1]

theorem mail_setf (s : State) (f : Field) (v u i : Nat) : Mail s (s.setf f v u i) := by unfold Mail; rfl
theorem mail_bump (s : State) (f : Field) (u i n : Nat) : Mail s (s.bump f u i n) := by unfold Mail; rfl
theorem mail_cur (s : State) (c : Option Cmd) : Mail s (s.modHost (fun h => { h with cur := c })) := by unfold Mail; rfl

theorem mail_sendVec (s : State) (fn v : Nat) : Mail s (s.sendVec fn v) := by
  unfold State.sendVec
  split
  · exact .refl s
  · split
    · split
      · exact .refl s
      · unfold Mail; rfl
    · split
      · exact .refl s
      · unfold Mail; rfl

theorem look_setf_ne (s : State) (f : Field) (v u i k : Nat) (h : k ≠ f.key u i) :
    SMap.look (s.setf f v u i).regs k = SMap.look s.regs k := look_putD_ne _ _ _ _ _ h

theorem regs_setResp (s : State) (fn : Nat) (ws : List Nat) (k : Nat)
    (h : k ∉ (List.range 16).map (fun w => F.HIF_MB_RESP.key fn w)) :
    SMap.look (s.setResp fn ws).regs k = SMap.look s.regs k := by
  have key : ∀ (l : List Nat) (t : State), k ∉ l.map (fun w => F.HIF_MB_RESP.key fn w) →
      SMap.look (l.foldl (fun t w => t.setf F.HIF_MB_RESP (ws.getD w 0) fn w) t).regs k = SMap.look t.regs k := by
    intro l
    induction l with
    | nil => intro t _; rfl
    | cons x r ih =>
      intro t hk
      simp only [List.map_cons, List.mem_cons, not_or] at hk
      rw [List.foldl_cons, ih _ hk.2, look_setf_ne _ _ _ _ _ _ hk.1]
  exact key _ _ h

theorem mail_setResp (s : State) (fn : Nat) (ws : List Nat) : Mail s (s.setResp fn ws) := by
  have key : ∀ (l : List Nat) (t : State), Mail t (l.foldl (fun t w => t.setf F.HIF_MB_RESP (ws.getD w 0) fn w) t) := by
    intro l
    induction l with
    | nil => intro t; exact .refl t
    | cons x r ih => intro t; exact (mail_setf ..).trans (ih _)
  exact key _ s

/-- The frame of a completion. -/
theorem finish_only (s : State) (c : Cmd) (st det : Nat) (ws : List Nat) (hc : s.host.cur = some c) (hs : c.src < 16)
    (hd : c.discard = false) : Safety.AnswersOnly s (s.finish st det ws) c st det ws := by
  refine ⟨finish_answers s c st det ws hc hs hd, ?_, ?_⟩
  · intro k hk
    simp only [Safety.mailKeys, List.mem_append, List.mem_cons, not_or, List.not_mem_nil, not_false_eq_true, and_true] at hk
    obtain ⟨⟨h1, h2, h3, h4, h5⟩, h6⟩ := hk
    unfold State.finish
    rw [hc]
    dsimp only
    unfold State.answer
    rw [if_neg (by omega), if_neg (by simp [hd])]
    extract_lets s0 s1 s2 s3 s4 s5
    have h : SMap.look s5.regs k = SMap.look s.regs k := by
      unfold s5 s4 s3 s2 s1 State.bump
      rw [look_setf_ne _ _ _ _ _ _ h5, look_setf_ne _ _ _ _ _ _ h4, look_setf_ne _ _ _ _ _ _ h3,
        look_setf_ne _ _ _ _ _ _ h2, look_setf_ne _ _ _ _ _ _ h1]
      exact regs_setResp _ _ _ _ h6
    split
    · rw [regs_sendVec]; exact h
    · exact h
  · have hcur : (s.finish st det ws).host.cur = none := (finish_answers s c st det ws hc hs hd).1
    have h : Mail s (s.finish st det ws) := by
      unfold State.finish
      rw [hc]
      dsimp only
      unfold State.answer
      rw [if_neg (by omega), if_neg (by simp [hd])]
      extract_lets s0 s1 s2 s3 s4 s5
      have h : Mail s s5 := (((((((mail_cur ..).trans (mail_setResp ..)).trans (mail_setf ..)).trans (mail_setf ..)).trans
        (mail_setf ..)).trans (mail_setf ..)).trans (mail_bump ..))
      split
      · exact h.trans (mail_sendVec ..)
      · exact h
    unfold Mail at h
    rw [hcur] at h
    exact h

/-- A row of the sequencer's acts on the command in execution when its opcode is the row's. -/
theorem xci_of (s : State) (op : Nat) (c : Cmd) (f : Cmd → State → State) (h : Safety.Executes s op c) :
    s.xci op f = f c s := by
  obtain ⟨hc, hop, -, -⟩ := h
  unfold State.xci State.curOp
  rw [hc]
  simp [Option.filter, hop]

end Sys2Proof.Laws
end

