-- ==== Sys2Proof/Machine/Package.lean ====
section
/-! DEFINITION. The package (R412 to R418, R422 to R424, R430, R431): ball positions and what each carries, the signals with
their direction, domain, pull and state in reset, the levels that the state drives, and the rails. -/

namespace Sys2Proof.Machine

/-! ### Signals (R418) -/

/-- The single-ended and reference signals of the corner squares. `neg` is the N leg, or the cathode of a diode. -/
inductive Pin where
  | refclk (neg : Bool)
  | pcieRefclk (neg : Bool)
  | persTn
  | cxlRefclk (c : Nat) (neg : Bool)
  | cxlPersTn (c : Nat)
  | porn
  | rstn
  | ppsIn
  | ppsOut
  | alive
  | roleActive
  | roleState
  | wakeOut
  | t1sTxd (t : Nat)
  | t1sRxd (t : Nat)
  | t1sEd (t : Nat)
  | avsClk
  | avsMdata
  | avsSdata
  | tck
  | trstn
  | tms
  | tdi
  | tdo
  | thd (n : Nat) (neg : Bool)
  | sdZcal (q : Nat)
  | testmode
  deriving DecidableEq, Repr

/-- The rails of R424. -/
inductive Rail where
  | core
  | sram
  | sd
  | sdh
  | io
  | aon
  deriving DecidableEq, Repr

inductive PinDir where
  | input
  | output
  | analog
  deriving DecidableEq, Repr

/-- The internal pull of an input: 50 kΩ down or up. -/
inductive Pull where
  | none
  | down
  | up
  deriving DecidableEq, Repr

/-- What an output drives at rest. -/
inductive PinLevel where
  | low
  | high
  | highZ
  deriving DecidableEq, Repr

def Pin.dir : Pin → PinDir
  | .cxlRefclk _ _ | .cxlPersTn _ | .ppsOut | .alive | .roleState | .wakeOut | .t1sTxd _ | .avsClk | .avsMdata | .tdo => .output
  | .thd _ _ | .sdZcal _ => .analog
  | .refclk _ | .pcieRefclk _ | .persTn | .porn | .rstn | .ppsIn | .roleActive | .t1sRxd _ | .t1sEd _ | .avsSdata | .tck
  | .trstn | .tms | .tdi | .testmode => .input

/-- The supply domain of a pin; differential, HCSL and diode pins have none. -/
def Pin.domain : Pin → Option Rail
  | .porn | .rstn | .alive | .roleActive | .roleState | .wakeOut => some .aon
  | .sdZcal _ => some .sd
  | .refclk _ | .pcieRefclk _ | .cxlRefclk _ _ | .thd _ _ => none
  | .persTn | .cxlPersTn _ | .ppsIn | .ppsOut | .t1sTxd _ | .t1sRxd _ | .t1sEd _ | .avsClk | .avsMdata | .avsSdata | .tck
  | .trstn | .tms | .tdi | .tdo | .testmode => some .io

def Pin.pull : Pin → Pull
  | .porn | .ppsIn | .roleActive | .t1sRxd _ | .t1sEd _ | .tck | .trstn | .testmode => .down
  | .rstn | .avsSdata | .tms | .tdi => .up
  | .refclk _ | .pcieRefclk _ | .persTn | .cxlRefclk _ _ | .cxlPersTn _ | .ppsOut | .alive | .roleState | .wakeOut | .t1sTxd _
  | .avsClk | .avsMdata | .tdo | .thd _ _ | .sdZcal _ => .none

/-- What an output drives while PORn is low, and during a cold reset until STARTUP. -/
def Pin.idle : Pin → Option PinLevel
  | .cxlRefclk _ _ | .cxlPersTn _ | .ppsOut | .alive | .roleState | .wakeOut => some .low
  | .t1sTxd _ | .avsClk | .avsMdata => some .high
  | .tdo => some .highZ
  | .refclk _ | .pcieRefclk _ | .persTn | .porn | .rstn | .ppsIn | .roleActive | .t1sRxd _ | .t1sEd _ | .avsSdata | .tck
  | .trstn | .tms | .tdi | .thd _ _ | .sdZcal _ | .testmode => none

def PinLevel.of (high : Bool) : PinLevel := if high then .high else .low

/-- What an output drives after STARTUP: the pair's outputs (R345, R348), the wake pin (R384), the PPS pin (R245), the two outputs
of each memory device (R422, R433), the panel ports' line signals and the AVSBus, high while nothing is sent (R438), and TDO, which
drives only while a chain is shifted. None where it is a clock or a coded signal. -/
def State.runLevel (s : State) : Pin → Option PinLevel
  | .alive => some (.of s.pair.alive)
  | .roleState => some (.of s.roleState)
  | .wakeOut => some (.of s.pwr.wakeOut.isSome)
  | .ppsOut => some (.of s.ppsOut)
  | .cxlRefclk c _ => if c < s.nCxl then none else some .low
  | .cxlPersTn c => some (.of (c < s.nCxl && (s.cxlPort c).perstAt.any (fun t => t ≤ s.lt)))
  | .t1sTxd t => if (s.panel t).tx.any (fun x => x.2.any (fun e => s.lt + panelGap < e)) then none else some .high
  | .avsClk | .avsMdata => some .high
  | .tdo => some .highZ
  | .refclk _ | .pcieRefclk _ | .persTn | .porn | .rstn | .ppsIn | .roleActive | .t1sRxd _ | .t1sEd _ | .avsSdata | .tck
  | .trstn | .tms | .tdi | .thd _ _ | .sdZcal _ | .testmode => none

/-- What an output drives now: the reset-time state until STARTUP (R418). -/
def State.drive (s : State) (p : Pin) : Option PinLevel := if s.phase = .running then s.runLevel p else p.idle

/-! ### Positions (R412, R413) -/

/-- A position of the array: row and column, each 1 to 94. -/
structure BallPos where
  row : Nat
  col : Nat
  deriving DecidableEq, Repr

/-- The letters of row names: I, O, Q, R, S, X and Z are left out. -/
def rowLetters : List Char :=
  ['A', 'B', 'C', 'D', 'E', 'F', 'G', 'H', 'J', 'K', 'L', 'M', 'N', 'P', 'T', 'U', 'V', 'W', 'Y']

/-- The letters of row `n`. -/
def rowName (n : Nat) : List Char :=
  if n ≤ 19 then [rowLetters.getD (n - 1) 'A']
  else [rowLetters.getD ((n - 20) / 19) 'A', rowLetters.getD ((n - 20) % 19) 'A']

/-- The land-side capacitor area and the four corner positions carry no ball. -/
def BallPos.bare (x : BallPos) : Bool :=
  ((x.row = 1 || x.row = 94) && (x.col = 1 || x.col = 94)) ||
    (32 ≤ x.row && x.row ≤ 63 && 26 ≤ x.col && x.col ≤ 69)

/-! ### Regions (R414) -/

/-- The four bands, numbered 0 to 3 in this order (R415). -/
inductive Band where
  | north
  | east
  | south
  | west
  deriving DecidableEq, Repr

inductive BallRegion where
  | corner
  | band (b : Band) (depth along : Nat)
  | ring (depth : Nat)
  | inner
  deriving DecidableEq, Repr

/-- The region of a position. -/
def BallPos.region (x : BallPos) : BallRegion :=
  let edge (n : Nat) : Bool := n ≤ 12 || 83 ≤ n
  if edge x.row && edge x.col then .corner
  else if x.row ≤ 12 then .band .north x.row x.col
  else if 83 ≤ x.row then .band .south (95 - x.row) x.col
  else if x.col ≤ 12 then .band .west x.col x.row
  else if 83 ≤ x.col then .band .east (95 - x.col) x.row
  else
    let d := min (min (x.row - 12) (x.col - 12)) (min (83 - x.row) (83 - x.col))
    if d ≤ 4 then .ring d else .inner

/-- The position at a depth and an along-coordinate of a band (R415). -/
def Band.ball : Band → (depth along : Nat) → BallPos
  | .north, d, a => ⟨d, a⟩
  | .east, d, a => ⟨a, 95 - d⟩
  | .south, d, a => ⟨95 - d, a⟩
  | .west, d, a => ⟨a, d⟩

/-- The band of a number. -/
def Band.numbered : Nat → Band
  | 0 => .north
  | 1 => .east
  | 2 => .south
  | _ => .west

def Band.number : Band → Nat
  | .north => 0
  | .east => 1
  | .south => 2
  | .west => 3

/-! ### Balls -/

/-- What a position carries. -/
inductive Ball where
  | vss
  | supply (r : Rail)
  | net (tx : Bool) (lane : Nat) (neg : Bool)
  | cxl (tx : Bool) (c lane : Nat) (neg : Bool)
  | pcie (tx : Bool) (lane : Nat) (neg : Bool)
  | pin (p : Pin)
  deriving DecidableEq, Repr

/-- The balls of physical network lane `l` (R415): P and N. -/
def netBall (tx : Bool) (l : Nat) (neg : Bool) : BallPos :=
  let k := l % 64
  (Band.numbered (l / 64)).ball ((if tx then 1 else 3) + 4 * (k % 2)) (16 + 2 * (k / 2) + neg.toNat)

/-- The physical lane that serves logical lane `i` of port `p` (R35). -/
def State.laneOf (s : State) (p i : Nat) : Nat := 4 * p + s.fld F.PRT_LANE.LANE_MAP p / 4 ^ i % 4

/-- The balls of lane `m` of CXL port `c` (R416). -/
def cxlBall (tx : Bool) (c m : Nat) (neg : Bool) : BallPos :=
  (Band.numbered (c / 2)).ball (if tx then 9 else 11) (16 + 2 * (16 * (c % 2) + m) + neg.toNat)

/-- The balls of PCIe lane `m` (R416). -/
def pcieBall (tx : Bool) (m : Nat) (neg : Bool) : BallPos :=
  Band.south.ball (if tx then 9 else 11) (16 + 2 * m + neg.toNat)

/-- The assignment of a position of a band (R415, R416). -/
def bandBall (b : Band) (depth along : Nat) : Ball :=
  if along ≤ 15 || 80 ≤ along || depth % 2 = 0 then .vss
  else
    let j := (along - 16) / 2
    let neg : Bool := along % 2 = 1
    if depth < 9 then .net (depth % 4 = 1) (64 * b.number + 2 * j + (depth - 1) / 4) neg
    else
      match b with
      | .north | .east => .cxl (depth = 9) (2 * b.number + j / 16) (j % 16) neg
      | .south => if j < 16 then .pcie (depth = 9) j neg else .vss
      | .west => .vss

/-- The signals of the corner squares (R417). -/
def cornerPins : List (BallPos × Pin) :=
  [(⟨3, 3⟩, .refclk false), (⟨3, 4⟩, .refclk true), (⟨5, 3⟩, .porn), (⟨5, 4⟩, .rstn), (⟨7, 3⟩, .ppsIn), (⟨7, 4⟩, .ppsOut),
   (⟨9, 3⟩, .alive), (⟨9, 4⟩, .roleActive), (⟨9, 5⟩, .roleState), (⟨9, 6⟩, .wakeOut)] ++
  [(⟨3, 90⟩, .tck), (⟨3, 91⟩, .tms), (⟨5, 90⟩, .tdi), (⟨5, 91⟩, .tdo), (⟨7, 90⟩, .trstn), (⟨7, 91⟩, .testmode),
   (⟨9, 90⟩, .avsClk), (⟨9, 91⟩, .avsMdata), (⟨9, 92⟩, .avsSdata), (⟨11, 90⟩, .thd 0 false), (⟨11, 91⟩, .thd 0 true),
   (⟨12, 90⟩, .thd 1 false), (⟨12, 91⟩, .thd 1 true)] ++
  [85, 87, 89, 91].mapIdx (fun c r => (⟨r, 90⟩, Pin.cxlRefclk c false)) ++
  [85, 87, 89, 91].mapIdx (fun c r => (⟨r, 91⟩, Pin.cxlRefclk c true)) ++
  [85, 87, 89, 91].mapIdx (fun c r => (⟨r, 92⟩, Pin.cxlPersTn c)) ++
  [(⟨83, 3⟩, .pcieRefclk false), (⟨83, 4⟩, .pcieRefclk true), (⟨83, 5⟩, .persTn)] ++
  (List.range 8).map (fun t => (⟨87, 3 + t⟩, Pin.t1sTxd t)) ++
  (List.range 8).map (fun t => (⟨89, 3 + t⟩, Pin.t1sRxd t)) ++
  (List.range 8).map (fun t => (⟨91, 3 + t⟩, Pin.t1sEd t)) ++
  (List.range 4).map (fun i => (⟨2, 9 + i⟩, Pin.sdZcal i)) ++
  (List.range 4).map (fun i => (⟨2, 83 + i⟩, Pin.sdZcal (4 + i))) ++
  (List.range 4).map (fun i => (⟨93, 83 + i⟩, Pin.sdZcal (8 + i))) ++
  (List.range 4).map (fun i => (⟨93, 9 + i⟩, Pin.sdZcal (12 + i)))

/-- The VDD_IO and VDD_AON balls of the corner squares (R417). -/
def cornerSupply (x : BallPos) : Option Rail :=
  let io : Bool :=
    (x.row = 1 && ((3 ≤ x.col && x.col ≤ 8) || (83 ≤ x.col && x.col ≤ 88))) ||
      (x.row = 94 && ((83 ≤ x.col && x.col ≤ 88) || (7 ≤ x.col && x.col ≤ 12)))
  if io then some .io
  else if (x.row = 11 || x.row = 12) && 1 ≤ x.col && x.col ≤ 8 then some .aon
  else none

/-- The assignment of a position of a corner square. -/
def cornerBall (x : BallPos) : Ball :=
  match cornerPins.find? (fun y => y.1 = x) with
  | some y => .pin y.2
  | none =>
    match cornerSupply x with
    | some r => .supply r
    | none => .vss

/-- The assignment of a position of the inner area. -/
def innerBall (x : BallPos) : Ball :=
  if x.row % 2 = 1 ∧ x.col % 2 = 1 then .vss
  else if x.row ≤ 20 ∨ 75 ≤ x.row then .supply .sram
  else .supply .core

/-- What a position carries, if it has a ball (R414). -/
def BallPos.ball (x : BallPos) : Option Ball :=
  if x.bare then none
  else
    some (match x.region with
      | .corner => cornerBall x
      | .band b d a => bandBall b d a
      | .ring d => if d ≤ 2 then .supply .sd else if d = 3 then .supply .sdh else .vss
      | .inner => innerBall x)

/-- The positions of a row. -/
def rowPositions (r : Nat) : List BallPos := (List.range 94).map (fun c => ⟨r, c + 1⟩)

/-- The balls of a row that satisfy `f`. -/
def countRow (f : Ball → Bool) (r : Nat) : Nat := ((rowPositions r).filterMap BallPos.ball).countP f

/-- The balls of the package that satisfy `f`. -/
def countBalls (f : Ball → Bool) : Nat := ((List.range 94).map (fun r => countRow f (r + 1))).foldl (· + ·) 0

/-! ### Smaller variants (R422) -/

/-- A ball serves a unit that the variant has; every supply and VSS ball does. -/
def Ball.served (v : Variant) : Ball → Bool
  | .net _ lane _ => lane < 4 * v.ports
  | .cxl _ c _ _ => c < v.cxl
  | .pin (.cxlRefclk c _) | .pin (.cxlPersTn c) => c < v.cxl
  | .pin (.sdZcal q) => 4 * q < v.ports
  | .vss | .supply _ | .pcie _ _ _ | .pin _ => true

/-- The transmitter of a lane is in electrical idle: in reset (R418), where the variant lacks the unit (R422), while the lanes
are powered down (R382, R421), and on the PCIe lanes until training may begin (R433). -/
def State.electricalIdle (s : State) : Ball → Bool
  | .net true lane _ => !(lane / 4 < s.nPorts && s.lanesOn (lane / 4))
  | .cxl true c _ _ => !(s.phase = .running && c < s.nCxl)
  | .pcie true _ _ => s.phase = .held || s.host.perst || s.lt < s.board.released + 3 * ltMs
  | .net false _ _ | .cxl false _ _ _ | .pcie false _ _ | .vss | .supply _ | .pin _ => false

/-! ### Rails (R423, R424, R430, R431) -/

/-- The operating range of a rail in 100 µV: VDD_CORE's is 2.5 % about its set voltage, in mV. -/
def Rail.range (set : Nat) : Rail → Nat × Nat
  | .core => (set * 975 / 100, set * 1025 / 100)
  | .sram => (7800, 8200)
  | .sd => (8775, 9225)
  | .sdh => (11700, 12300)
  | .io | .aon => (17550, 18450)

/-- The upper absolute maximum of a rail in mV; the lower one is −300 mV. -/
def Rail.most : Rail → Nat
  | .core | .sram => 950
  | .sd => 1050
  | .sdh => 1400
  | .io | .aon => 2100

/-- The maximum power of a rail in W, and its design current in A. -/
def Rail.watts : Variant → Rail → Nat
  | .zt5120, .core => 432
  | .zt5120, .sram => 60
  | .zt5120, .sd => 66
  | .zt5120, .sdh => 24
  | .zt2560, .core => 236
  | .zt2560, .sram => 34
  | .zt2560, .sd => 40
  | .zt2560, .sdh => 17
  | .zt1280, .core => 130
  | .zt1280, .sram => 19
  | .zt1280, .sd => 25
  | .zt1280, .sdh => 13
  | _, .io => 2
  | _, .aon => 1

def Rail.amps : Variant → Rail → Nat
  | .zt5120, .core => 620
  | .zt5120, .sram => 90
  | .zt5120, .sd => 85
  | .zt5120, .sdh => 25
  | .zt2560, .core => 350
  | .zt2560, .sram => 52
  | .zt2560, .sd => 52
  | .zt2560, .sdh => 18
  | .zt1280, .core => 200
  | .zt1280, .sram => 30
  | .zt1280, .sd => 34
  | .zt1280, .sdh => 14
  | _, .io => 2
  | _, .aon => 1

/-- The largest power of a variant in RUN: the sum over its rails, and the reset value of PWR_BUDGET. -/
def Variant.runMax (v : Variant) : Nat :=
  ([Rail.core, .sram, .sd, .sdh, .io, .aon].map (Rail.watts v)).foldl (· + ·) 0

end Sys2Proof.Machine
end

