-- ==== Sys2Proof/Tests/Slice0.lean ====
section
/-! SUPPORT. The model's own tests: ill-formed operands that WellFormed refuses, small steps whose results follow from the
manual's text, and for each statement with hypotheses a state and operands that meet them. -/

-- One theorem after the other, which keeps the number of threads and their stacks small.
set_option Elab.async false

namespace Sys2Proof.Tests

open Sys2Proof Sys2Proof.Machine

/-- The outcome is a next state that satisfies a check. -/
def next? (c : Instr) (s : State) (P : State → Bool) : Bool :=
  match exec c s with
  | .next t => P t
  | .fault _ => false
  | .refused _ => false

/-- A device that has left its reset, in STARTUP. -/
def up : State := { State.reset with
  phase := .running, porLow := false, board := { State.reset.board with calibrated := true } }

/-- The same in another operating state. -/
def upIn (op : OpState) : State := { up with op := op }
def safeUp : State := upIn .safe

/-- The PF's command of an opcode with request words from word 1 on is in execution. -/
def executing (s : State) (op : Nat) (ws : List Nat) : State :=
  s.modHost (fun h => { h with cur := some ⟨0, op :: ws, false⟩ })

/-- The same with port `p` enabled, its link up at full width and its queues enabled. -/
def linked (s : State) (p : Nat) : State :=
  (((s.setf F.PRT_CTL.ENABLE 1 p).setf F.PRT_STATUS.LINK_UP 1 p).setf F.QSH_CTL.ENABLE 1 p).setf F.PRT_STATUS.WIDTH 2 p

/-- The same whose partner on port 0 sheds. -/
def shedding : State := ((linked up 0).setf F.PRT_PARTNER.VALID 1).setf F.PRT_PARTNER.SHED 1

/-- An LLDPDU with one shed TLV of a message for two lanes at 50 us. -/
def shedFrame (msg : Nat) : List Byte :=
  beOctets 6 0x0180C200000E ++ beOctets 6 2 ++ beOctets 2 0x88CC ++ shedTlv msg 3 2 0 50000 ++ List.replicate 26 0

/-- The same with an operative Sentence of one Clause of 125 us, all gates open, on port `p`. -/
def sentenced (s : State) (p : Nat) : State :=
  ((((s.setf F.SEN_STATUS.OPER_VALID 1 p).setf F.SEN_OPER_LEN 1 p).setf F.SEN_OPER_CYCLE 125000 p).setTab (clauseTab p 0 0)
    0xFF).setTab (clauseTab p 0 0 + 1) 125000

/-! StepFront -/

theorem witness_StepFront : State.reset.pending = [] ∧ State.reset.time.slewLeft = 0 ∧
    State.reset.time.oldUntil ≤ State.reset.lt ∧ State.reset.time.rest < 1600 ∧ 0 ≤ State.reset.con.rest ∧
    State.reset.con.rest < 1600 := by decide +kernel

/-! InvStep -/

theorem witness_InvStep : Safety.Inv State.reset ∧ ∃ t, step State.reset = .next t :=
  ⟨⟨by decide, fun h => absurd h (by decide)⟩, _, rfl⟩

/-! QueueInOrder -/

theorem witness_QueueInOrder : (∃ t, step { State.reset with pending := [.coldReset, .calStart] } = .next t) := ⟨_, rfl⟩

/-! SafeIsLeftByResetOnly -/

theorem witness_SafeIsLeftByResetOnly :
    Safety.Inv safeUp ∧ safeUp.op = .safe ∧ next? .powerOnReset safeUp (fun _ => true) = true ∧
      next? .identify safeUp (fun _ => true) = true :=
  ⟨⟨by decide, fun _ => ⟨rfl, rfl⟩⟩, rfl, rfl, rfl⟩

/-! KeysComeFromKeyLoadOnly -/

theorem witness_KeysComeFromKeyLoadOnly : Instr.keyClear ≠ .keyLoad ∧ next? .keyClear State.reset (fun _ => true) = true := by decide +kernel

/-! LifeCycleStands -/

theorem witness_LifeCycleStands :
    (∀ n, Instr.keyClear ≠ .powerOnReset n) ∧ next? .keyClear State.reset (fun _ => true) = true ∧ next? (.lifecycleWipeDone []) State.reset (fun _ => true) = true ∧
      State.reset.bst.advance = none := ⟨(by intro n h; cases h), by decide, by decide, by decide⟩

/-! ClockNeverRunsBack -/

theorem witness_ClockNeverRunsBack : (∃ t, step { State.reset with pending := [.coldReset] } = .next t) := ⟨_, rfl⟩

/-! CommandSources -/

theorem witness_CommandSources :
    (let s := executing { up with pending := [.ringJoin] } 0x40 []
     Safety.sources s = true ∧ ∃ t, step s = .next t) := ⟨by decide, _, rfl⟩

/-! LocksStand -/

theorem witness_LocksStand : F.REG_LOCK_ENG.LOCK_ENG ∈ Safety.lockFields ∧ 15 < F.REG_LOCK_ENG.LOCK_ENG.width ∧
    Safety.fresh (.registerWrite .bar0 0 0x10004 0 15) = false ∧
    (∀ us later, Instr.registerWrite .bar0 0 0x10004 0 15 ≠ .triplicateScrub us later) ∧
    (up.setf F.REG_LOCK_ENG.LOCK_ENG 0x8000).fbit F.REG_LOCK_ENG.LOCK_ENG 15 = true ∧
    next? (.registerWrite .bar0 0 0x10004 0 15) (up.setf F.REG_LOCK_ENG.LOCK_ENG 0x8000)
      (fun t => t.fbit F.REG_LOCK_ENG.LOCK_ENG 15) = true :=
  ⟨by decide, by decide, rfl, fun _ _ h => (by cases h), by decide, by decide⟩

/-! FreshResets -/

theorem witness_FreshResets : up.porLow = false ∧ State.reset.porLow = true ∧ (∃ n, 25 ≤ n ∧ Instr.coldReset 25 = .coldReset n) ∧
    next? (.coldReset 25) up (fun t => t.phase = .held && t.regs = [(F.PWR_RESET_CAUSE.key 0 0, 1)]) = true ∧
    next? (.coldReset 24) up (fun t => t.phase = .running) = true ∧ next? (.powerOnReset 1000) up (fun t => t.phase = .held) = true :=
  ⟨by decide, by decide, ⟨25, by decide, rfl⟩, by decide, by decide, by decide⟩

/-! ReleaseAndStartup -/

theorem witness_ReleaseAndStartup : State.reset.phase = .held ∧ State.reset.board.testmode = false ∧
    ({ State.reset with board := { BoardS.reset with testmode := true } } : State).board.testmode = true ∧
    ({ State.reset with phase := .wiping } : State).phase = .wiping ∧
    next? .resetRelease State.reset (fun t => t.phase = .wiping) = true := by decide +kernel

/-! StateSetMoves -/

theorem witness_StateSetMoves :
    (let s := executing up 0x02 [2]; s.autosAhead = [] ∧ s.bst.run = none ∧ s.pairOn = false ∧ setAllowed s.op (opOf 2) = true) ∧
    setAllowed .startup (opOf 3) = false ∧ next? .stateSet (executing up 0x02 [2]) (fun t => t.op = .operational) = true ∧
    next? .stateSet (executing up 0x02 [3]) (fun t => t.op = .startup) = true ∧
    (let s : State := { executing up 0x02 [2] with pending := [.fltForce 0x5333, .depthSample] }
     Safety.Admits s 2 ∧ s.s3MustWait = false ∧ s.op ≠ .safe ∧ ({ s with pending := [.depthSample] } : State).autosAhead = [] ∧
     next? .stateSet s (fun t => t.op = .startup && t.fld F.HIF_MB_RESP 0 0 = 0x705) = true) := by decide +kernel

/-! WarmAndHotReset -/

theorem witness_WarmAndHotReset :
    Safety.Executes (executing up 0x60 [0x5741]) 0x60 ⟨0, [0x60, 0x5741], false⟩ ∧ (⟨0, [0x60, 0x5741], false⟩ : Cmd).word 1 = 0x5741 ∧
    (⟨0, [0x60, 1], false⟩ : Cmd).word 1 ≠ 0x5741 ∧ Safety.Executes (executing up 0x60 [1]) 0x60 ⟨0, [0x60, 1], false⟩ ∧
    up.phase = .running ∧ up.on F.HIF_CTL.HOT_RESET_ACT = false ∧ up.op ≠ .safe ∧ up.s3Ahead = false := by decide +kernel
theorem witness_WarmAndHotReset_run :
    (let s := up.modPwr (fun p => { p with warmAt := some (false, 5) })
     (s.runToLt 5).s3Ahead = false ∧ s.pwr.warmRun = none ∧ s.pwr.state = .run ∧ s.pwr.entry = none ∧ s.pwr.setAfter = none ∧ s.phase = .running ∧ s.op ≠ .safe) ∧
    next? .warmResetDone (up.modPwr (fun p => { p with warmRun := some (false, 0) })) (fun t => t.lt = ltMs) = true := by decide +kernel

/-! BlockResets -/

theorem witness_BlockResets :
    Safety.Executes (executing up 0x61 [8]) 0x61 ⟨0, [0x61, 8], false⟩ ∧ (executing up 0x61 [8]).pwr.blockRun = none ∧
    (executing up 0x61 [8]).pwr.s3Wait = false ∧ (executing up 0x61 [8]).pwr.warmRun = none ∧
    (let s := (executing up 0x61 [8]).modPwr (fun p => { p with warmRun := some (false, 0), blockWait := true })
     s.pwr.warmRun ≠ none ∧
     next? .warmResetDone s (fun t => t.pwr.blockRun = some (8, 0, ltMs) && t.host.cur = some ⟨0, [0x61, 8], false⟩) = true) := by decide +kernel

/-! PowerTransitions -/

theorem witness_PowerTransitions :
    Safety.Executes (executing up 0xB0 [1]) 0xB0 ⟨0, [0xB0, 1], false⟩ ∧
    (let s := executing up 0xB0 [1]; s.pwr.entry = none ∧ s.pwr.exit = none ∧ s.pairOn = false ∧ s.pwr.state = .run) ∧
    (let s := (executing up 0xB0 [1]).modPwr (fun p => { p with entry := some (0, 0) }); s.pwr.entry ≠ none) ∧
    next? .standbyEntryPhase (up.modPwr (fun p => { p with entry := some (1, 0) })) (fun t => t.pwr.entry = some (2, 0)) = true ∧
    (let s := up.modPwr (fun p => { p with state := .standby, exit := some 0 }); s.pwr.state = .standby ∧ s.pwr.exit = some 0) := by decide +kernel

/-! WakeRequests -/

theorem witness_WakeRequests :
    (let s := up.setf F.PWR_WAKE_CTL.EN 0xC
     Safety.Admits s 3 ∧ s.fbit F.PWR_WAKE_CTL.EN 3 = true ∧ s.fbit F.PWR_WAKE_CTL.EN 2 = true ∧ s.phase = .running) ∧
    Safety.Admits up 3 ∧ up.fbit F.PWR_WAKE_CTL.EN 3 = false ∧ up.fbit F.PWR_WAKE_CTL.EN 2 = false ∧
    next? .hostWake (up.setf F.PWR_WAKE_CTL.EN 8) (fun t => t.fld F.PWR_WAKE_CAUSE.CAUSE = 8) = true ∧
    (let s := up.modPwr (fun p => { p with wakeOut := some 0 }); s.pwr.wakeOut = some 0 ∧ s.fld F.PWR_WAKE_CAUSE.CAUSE = 0) ∧
    (up.setf F.PWR_WAKE_CAUSE.CAUSE 1).fld F.PWR_WAKE_CAUSE.CAUSE ≠ 0 := by decide +kernel

/-! MonitorSamples -/

theorem witness_MonitorSamples :
    Safety.sources up = true ∧ up.sensorPresent 37 = true ∧ (0 : Nat) ≤ up.fld F.PWR_BUDGET ∧ up.fld F.PWR_BUDGET < 600 ∧
    up.porLow = false ∧ State.reset.porLow = true ∧ Safety.sources State.reset = true ∧
    next? (.powerSample 600) up (fun t => t.fbit F.FLT_CAUSE 14) = true ∧
    (up.setf F.PWR_AVS_CTL.AVS_EN 0).fld F.PWR_AVS_CTL.AVS_EN = 0 ∧ up.fld F.PWR_AVS_CTL.AVS_EN ≠ 0 ∧ up.pwr.avsRow + 2 < 3 ∧
    3 ≤ up.pwr.avsRow + 3 ∧
    up.on F.PWR_AVS_STATUS.STOPPED = false ∧ ([(37, (20 : Int)), (0, 30)].map (fun x => x.1)).Nodup ∧
    (up.setf F.PWR_AVS_STATUS.STOPPED 1).on F.PWR_AVS_STATUS.STOPPED = true := by decide +kernel

/-! DoorbellWhileBusy -/

theorem witness_DoorbellWhileBusy :
    (let s := up.setf F.HIF_MB_STATUS.BUSY 1
     s.hostUp = true ∧ s.fnExists 0 = true ∧ s.on F.HIF_MB_STATUS.BUSY 0 = true) ∧
    next? (.mailboxDoorbell 0) (up.setf F.HIF_MB_STATUS.BUSY 1) (fun t => t.fld F.HIF_DOORBELL_DROP 0 = 1) = true := by decide +kernel

/-! CommandRuns -/

theorem witness_CommandRuns :
    (up.hostUp = true ∧ up.fnExists 0 = true ∧ up.on F.HIF_MB_STATUS.BUSY 0 = false) ∧
    (let s := up.modHost (fun h => { h with waiting := [(0, [1])] })
     s.phase = .running ∧ s.host.cur = none ∧ s.pwr.warmAt = none ∧ s.pwr.warmRun = none ∧ s.nextSource = some 0 ∧
       s.judge ⟨0, [1], false⟩ = none) ∧
    (let s := (up.modHost (fun h => { h with waiting := [(16, [3])] })).modCon (fun r => { r with remote := [(2, [3])] })
     s.nextSource = some 16 ∧ s.judge ⟨16, [3], false⟩ = some (xBADOP, 0) ∧
       next? .commandDispatch s (fun t => t.con.answers = [(2, respWords ⟨16, [3], false⟩ xBADOP 0 [])]) = true) ∧
    (up.modHost (fun h => { h with waiting := [(0, [3])] })).judge ⟨0, [3], false⟩ = some (xBADOP, 0) := by decide +kernel

theorem witness_CommandRunsChecks :
    (3 : Nat) ∉ Safety.catalogue ∧ (0x70 : Nat) ∈ Safety.catalogue ∧ (0x70 : Nat) ∉ Safety.forAll ∧ up.pwr.state ≠ .standby ∧
    up.wiping = false ∧ ¬ Safety.acceptedBy 0x70 .startup ∧ Safety.acceptedBy 0x70 .test ∧ Safety.acceptedBy 0x10 .startup ∧
    Safety.acceptedBy 0x71 .safe ∧ Safety.acceptedBy 0x02 .test ∧ Safety.acceptedBy 0x80 .test := 
  ⟨by decide, by decide, by decide, by decide, by decide, by decide, by decide, by decide, by decide, by decide, by decide⟩

theorem witness_CommandRunsArguments :
    reservedSet ⟨0, [0x02, 4], false⟩ = false ∧ reservedSet ⟨0, [0x80, 0], false⟩ = false ∧ reservedSet ⟨0, [0x70, 0], false⟩ = false ∧
    reservedSet ⟨0, [0x71, 9], false⟩ = false ∧ ((⟨0, 0x02 :: List.replicate 14 1, false⟩ : Cmd).word 14).testBit 0 = true ∧
    (let s := { up with fuses := { up.fuses with variant := .zt1280 } }
     reservedSet ⟨0, [0x10, 63], false⟩ = false ∧ s.nPorts ≤ bitsOf ((⟨0, [0x10, 63], false⟩ : Cmd).word 1) 5 0) ∧
    outOfRange ⟨0, [0x71, 8], false⟩ = false ∧ up.namesAbsent ⟨0, [0x71, 8], false⟩ = false ∧
    next? .commandDispatch (up.modHost (fun h => { h with waiting := [(0, [1])] }))
      (fun t => t.fld F.HIF_MB_STATUS.EXECUTING 0 = 1) = true := by decide +kernel

/-! Reports -/

theorem witness_Reports :
    Safety.Executes (executing up 0x01 []) 0x01 ⟨0, [0x01], false⟩ ∧ Safety.Executes (executing up 0x51 []) 0x51 ⟨0, [0x51], false⟩ ∧
    Safety.Executes (executing up 0xC0 [3]) 0xC0 ⟨0, [0xC0, 3], false⟩ ∧ bitsOf ((⟨0, [0xC0, 3], false⟩ : Cmd).word 1) 3 0 ≤ 3 ∧
    Safety.Executes (executing up 0xC0 [4]) 0xC0 ⟨0, [0xC0, 4], false⟩ ∧ 3 < bitsOf ((⟨0, [0xC0, 4], false⟩ : Cmd).word 1) 3 0 ∧
    next? .identify (executing up 0x01 []) (fun t => t.fld F.HIF_MB_RESP 0 1 = 0x51200021) = true := by decide +kernel

/-! HostLinkEvents -/

theorem witness_HostLinkEvents :
    up.host.perst = false ∧ up.phase ≠ .held ∧ State.reset.phase = .held ∧
    (up.modHost (fun h => { h with linkUp := true })).host.linkUp = true ∧ up.hostUp = true ∧
    up.fnExists 0 = true ∧ 71 < vecCount 0 ∧ (∀ en n, CfgWrite.bar false 4 0x12345 ≠ .sriov en n) ∧ barSize false 4 ≠ 0 ∧
    (let s := up.modHost (fun h => { h with msixEnable := [0], pendingVec := [(0, 1)] })
     s.hostUp = true ∧ s.host.pendingVec.contains (0, 1) = true ∧ s.host.msixEnable.contains 0 = true ∧
     next? (.msixVectorUnmask 0 1) s (fun t => t.host.sent = [(0, 1)] && t.host.pendingVec = []) = true) ∧
    (let s := up.modHost (fun h => { h with vfEnable := true, numVfs := 2 })
     s.fnExists 2 = true ∧ next? (.pcieConfigurationWrite (.sriov true 1)) s (fun t => !t.fnExists 2) = true) ∧
    next? (.pcieConfigurationWrite (.bar false 4 0x12345)) up (fun t => t.cfgItem 0 (.bar 4) = 0x10004) = true ∧
    next? (.pcieConfigurationWrite (.sriov true 20)) up (fun t => t.host.numVfs = 15) = true :=
  ⟨by decide, by decide, by decide, by decide, by decide, by decide, by decide, fun _ _ h => (by cases h), by decide, by decide, by decide,
    by decide, by decide⟩

/-! FunctionChannels -/

theorem witness_FunctionChannels :
    Safety.Admits up 0 ∧ up.vfDmaBad 1 0 2 = false ∧ up.vfDmaBad 1 60 8 = true ∧
    (let s := up.modHost (fun h => { h with vfEnable := true, numVfs := 2 }); s.hostUp = true ∧ s.fnExists 2 = true) ∧
    next? (.hifVfDmaWrite 1 0x200) up (fun t => t.fld F.HIF_VF_DMA.COUNT 0 1 = 2) = true ∧
    next? (.flr 0) up (fun t => t.host.numVfs = 0) = true := by decide +kernel

/-! CauseBits -/

theorem witness_CauseBits :
    Safety.Admits up 2 ∧ up.hostUp = true ∧ (∀ b, b < 32 → SMap.val up.flt.last (32 * 2 + b) 0 ≠ up.lt / ctlCycle + 1) ∧
    (let s := { (up.setf F.FLT_CAUSE 4) with flt := { up.flt with last := [(2, 1)], seen := [2] } }
     s.fbit F.FLT_CAUSE 2 0 0 = true ∧ SMap.val s.flt.last (32 * 0 + 2) 0 = s.lt / ctlCycle + 1 ∧
     next? (.faultCauseClear 0 4) s (fun t => t.fbit F.FLT_CAUSE 2 && t.flt.seen = []) = true) ∧
    (let s := (up.setf F.FLT_CAUSE 5); next? (.faultCauseClear 0 4) s (fun t => t.fld F.FLT_CAUSE = 5) = true ∧
      next? (.faultCauseClear 0 4) { s with flt := { s.flt with seen := [2] } } (fun t => t.fld F.FLT_CAUSE = 1) = true) ∧
    (let s := up.modHost (fun h => { h with msixEnable := [0], unmasked := [(0, 1)] })
     let r := { s with flt := { s.flt with holdEnd := some 5, during := true } }
     r.flt.holdEnd = some 5 ∧ r.host.msixEnable.contains 0 = true ∧ r.host.unmasked.contains (0, 1) = true) := by decide +kernel

/-! ForcedFault -/

theorem witness_ForcedFault : Safety.sources up = true ∧ Safety.Admits up 2 ∧ up.s3MustWait = false ∧ (0 : Word) ≠ 0x5333 ∧
    next? (.fltForce 0x5333) up (fun t => t.op = .safe && t.fbit F.FLT_CAUSE 0) = true ∧
    next? (.fltForce 1) up (fun t => t.fld F.REG_WI_STATUS.CAUSE = 3) = true := by decide +kernel

/-! RefusalRecord -/

theorem witness_RefusalRecord : up.on F.REG_WI_STATUS.WRITE_IGNORED = false ∧
    (up.setf F.REG_WI_STATUS.WRITE_IGNORED 1).on F.REG_WI_STATUS.WRITE_IGNORED = true := by decide +kernel

/-! RegisterWrites -/

theorem witness_RegisterWrites :
    up.hostUp = true ∧ Safety.Admits up 2 ∧ Safety.Admits up 0x4F ∧ 63 < up.nPorts ∧
    up.on F.PRT_CTL.ENABLE 63 = false ∧ 64 ≤ bitsOf (64 : Word).toNat 13 0 ∧ bitsOf (64 : Word).toNat 13 0 ≤ 16000 ∧
    bitsOf (63 : Word).toNat 13 0 < 64 ∧ (up.setf F.PRT_CTL.ENABLE 1 63).on F.PRT_CTL.ENABLE 63 = true ∧
    bitsOf (64 : Word).toNat 13 0 ≠ up.fld F.PRT_MAXLEN.MAXLEN 63 ∧
    next? (.registerWrite .bar0 0 0x4f0008 64 15) up (fun t => t.fld F.PRT_MAXLEN.MAXLEN 63 = 64) = true ∧
    next? (.registerWrite .bar0 0 0x4f0008 63 15) up (fun t => t.fld F.REG_WI_STATUS.CAUSE = 3) = true ∧
    next? (.registerWrite .bar0 0 0x20304 7 15) up (fun t => t.fld F.FLT_IRQ_EN 0 1 = 7) = true := by decide +kernel

/-! RegisterBlockCommands -/

theorem witness_RegisterBlockCommands :
    Safety.Admits up 1 ∧ up.hostUp = true ∧ up.pwr.state ≠ .standby ∧ up.wiping = false ∧ up.copies = [] ∧ up.phase = .running ∧
    15 < up.nIslands ∧ 31 + 32 < up.nPorts ∧ up.on F.REG_TRIP_STATUS.VALID = false ∧ Safety.sources up = true ∧ up.s3MustWait = false ∧
    next? (.lockSet 3 31) up (fun t => t.fld F.REG_LOCK_PORT_H.LOCK_PORT = 2 ^ 31) = true ∧
    next? (.triplicateScrub [⟨0x100000, 3, 2, 1, 1, 2⟩]) up (fun t => t.fld F.PRT_CTL.MODE = 1 && t.fbit F.FLT_CAUSE 2) = true ∧
    next? (.triplicateScrub [⟨0x100000, 3, 2, 1, 3, 2⟩]) up (fun t => t.op = .safe && t.fbit F.FLT_CAUSE 3) = true ∧
    next? (.triplicateScrub [] [⟨0x100000, 3, 2, 1, 2, 1⟩]) up (fun t => t.copies = [⟨0x100000, 3, 2, 1, 2, 1⟩] &&
      next? (.rcRead 0 0x100000) t (fun u => u.copies = [] && u.fld F.REG_TRIP_CORRECTED.CORRECTED = 1)) = true ∧ up.on F.WRW_CTL.BUSY = false ∧
    up.on F.WRW_CTL.VALID = false ∧ (up.setf F.WRW_CTL.VALID 1).on F.WRW_CTL.VALID = true ∧
    ({ up with wide := ⟨some (0x100400 + 0x10000 * 63), []⟩ } : State).wide.busy = some (0x100400 + 0x10000 * 63) ∧
    (let s := ({ up with wide := ⟨none, [7, 8]⟩ } : State).setf F.WRW_CTL.VALID 1
     s.on F.WRW_CTL.VALID = true ∧ s.wide.words ≠ [] ∧ s.wide.words.length ≤ 8 ∧
     next? .wideReadLastWord s (fun t => t.host.readData = 8 && t.fld F.WRW_CTL.VALID = 0) = true) ∧
    next? (.lockSet 0 11) up (fun t => t.fbit F.REG_LOCK_SYS.LOCK_SYS 9) = true ∧
    next? (.rcRead 0 0xA0300) (up.setf F.SID_NOMATCH_DROP 5) (fun t => t.host.readData = 5 && t.fld F.SID_NOMATCH_DROP = 0) = true := by decide +kernel

/-! LinksComeAndGo -/

theorem witness_LinksComeAndGo :
    63 < up.nPorts ∧ up.lanesOn 63 = true ∧ up.on F.PRT_STATUS.LINK_UP 63 = false ∧ up.on F.PRT_MM_CTL.PREEMPT_EN 63 = false ∧
    (let s := linked up 0
     s.on F.PRT_STATUS.LINK_UP 0 = true ∧ s.phase = .running ∧ Safety.Admits s 0x10 ∧ s.on F.PRT_CTL.ENABLE 0 = true ∧
     s.controlMay = true ∧ (s.island 0).ctrlUsed + 1 ≤ 512 ∧ next? (.linkDown 0) s (fun t => t.fbit F.FLT_CAUSE 16) = true) ∧
    (let s := (linked up 0).setf F.PRT_MM_CTL.PREEMPT_EN 1
     s.on F.PRT_MM_CTL.PREEMPT_EN 0 = true ∧ s.on F.PRT_MM_CTL.VERIFY_DIS 0 = false ∧
     next? (.verifyMpacketRx 0) s (fun t => (t.port 0).due.length = 1) = true ∧
     next? (.linkUp 1) (s.setf F.PRT_MM_CTL.PREEMPT_EN 1 1) (fun t => t.fld F.PRT_MM_STATUS.VERIFY_STATE 1 = 2) = true) ∧
    (let s := (linked up 0).setf F.PRT_MM_STATUS.VERIFY_STATE 2
     s.fld F.PRT_MM_STATUS.VERIFY_STATE 0 = 2) ∧
    (let s := (linked up 0).modPort 0 (fun d => { d with verifyDue := some 7, verifyTries := 3 })
     (s.port 0).verifyDue = some 7 ∧ next? (.verifyTimeout 0) s (fun t => t.fld F.PRT_MM_STATUS.VERIFY_STATE 0 = 4) = true) := by decide +kernel

/-! FlowControlHolds -/

theorem witness_FlowControlHolds :
    (let s := (linked up 0).setf F.PRT_FC.FC_MODE 1
     let l := beOctets 6 0x0180C2000001 ++ beOctets 6 2 ++ beOctets 2 0x8808 ++ beOctets 2 1 ++ beOctets 2 5 ++ List.replicate 42 0
     isPause l = true ∧ oct2 l 14 = 1 ∧ (s.macRx 0 l true s.rxControl).1 = true ∧ s.fld F.PRT_FC.FC_MODE 0 = 1 ∧
     oct2 l 16 ≠ 0 ∧ s.express 0 5 = false ∧ (s.port 0).ignoreFc.contains 5 = false ∧
     next? (.pauseFrameRx 0 l) s (fun t => SMap.look (t.port 0).pauseEnd 5 = some (5 * 64 * 16)) = true) ∧
    (let s := (linked up 0).modPort 0 (fun d => { d with pauseEnd := [(0, 20 * 100 * ltUs)], pauseFrom := [(0, 0)] })
     SMap.look (s.port 0).pauseEnd 0 = some (20 * 100 * ltUs) ∧ SMap.look (s.port 0).pauseFrom 0 = some 0 ∧
     0 + s.fld F.PRT_FC.WDG_TIME 0 * 100 * ltUs ≤ 20 * 100 * ltUs ∧ s.express 0 0 = false ∧
     next? (.pauseWatchdog 0 0) s (fun t => (t.port 0).ignoreFc = [0]) = true) := by decide +kernel

/-! PartnerDiscovery -/

theorem witness_PartnerDiscovery :
    (let s := linked up 0
     let l := beOctets 6 0x0180C200000E ++ beOctets 6 2 ++ beOctets 2 0x88CC ++ beOctets 2 0x0202 ++ beOctets 2 7 ++
       beOctets 2 0x0602 ++ beOctets 2 120 ++ beOctets 2 0xFE10 ++ beOctets 3 0x9A3C51 ++ [0x01, 0x01] ++ beOctets 2 0x2560 ++ [0x21] ++ beOctets 2 4 ++ [0x01, 0x04] ++
       beOctets 2 20 ++ [0xFF, 0x00] ++ List.replicate 24 0
     s.controlMay = true ∧ s.on F.QSH_CTL.ENABLE 0 = true ∧ s.on F.PRT_STATUS.LINK_UP 0 = true ∧
     (s.controlFrame 0 kLLDP (s.lldpdu 0 [])).isSome = true ∧
     s.overlong 0 (s.lldpdu 0 []) = false ∧ oct2 l 12 = 0x88CC ∧ (s.macRx 0 l true (s.rxLldp l)).1 = true ∧ tlvs l 64 14 = [(14, 1, 2), (18, 3, 2)] ++ (22, 127, 16) :: [] ∧
     isOrg l 0x9A3C51 1 (22, 127, 16) = true ∧ capOk l 22 16 = true ∧ ttlOf l = 120 ∧
     next? (.lldpduRx 0 l) s (fun t => t.fld F.PRT_PARTNER.PART_CODE 0 = 0x2560) = true) ∧
    (let s := up.modPort 0 (fun d => { d with partnerTtl := some 9 }); (s.port 0).partnerTtl = some 9) := by decide +kernel

/-! ShedExchange -/

theorem witness_ShedExchange :
    (let s := linked up 0
     s.phase = .running ∧ s.on F.PRT_STATUS.LINK_UP 0 = true ∧ s.fld F.PRT_CTL.MODE 0 < 2 ∧ s.partnerSheds 0 = false ∧
     next? (.utilisationWindow 0 1 1 true) s (fun t => (t.port 0).lowRun = 1) = true) ∧
    (let s := shedding
     let l := withSource 0x020000000001 (shedFrame 1)
     let u := (s.macRx 0 l true (s.rxLldp l)).2
     let v := slice l 14 20
     oct2 l 12 = 0x88CC ∧ tlvs l 64 14 = [] ++ (14, 127, 18) :: [] ∧ isOrg l 0x9A3C51 2 (14, 127, 18) = true ∧
     (s.macRx 0 l true (s.rxLldp l)).1 = true ∧ isShed v = true ∧ shedMsg v = 1 ∧ shedReason v ≠ 6 ∧
     u.partnerSheds 0 = true ∧ (u.port 0).shed = none ∧ u.controlMay = true ∧ u.on F.QSH_CTL.ENABLE 0 = true ∧
     u.on F.PRT_STATUS.LINK_UP 0 = true ∧ u.overlong 0 (u.lldpdu 0 (List.replicate 20 0)) = false ∧
     (u.controlFrame 0 kSHED (u.lldpdu 0 (List.replicate 20 0))).isSome = true ∧
     u.shedRefuses 0 (shedLanes v) (shedInstantOf v) = some 1 ∧
     next? (.shedRequestRx 0 0x020000000001 (shedFrame 1)) s (fun t => (t.port 0).ctrl.length = 1 && (t.port 0).shed.isNone) = true) := by decide +kernel
theorem witness_ShedExchange_answers :
    (let s := shedding.modPort 0 (fun d => { d with shed := some ⟨3, 2, 50000, 0, true, false, false⟩ })
     let l := shedFrame 2
     let u := (s.macRx 0 l true (s.rxLldp l)).2
     let v := slice l 14 20
     tlvs l 64 14 = [] ++ (14, 127, 18) :: [] ∧ isOrg l 0x9A3C51 2 (14, 127, 18) = true ∧ (s.macRx 0 l true (s.rxLldp l)).1 = true ∧
     isShed v = true ∧ (u.port 0).shed = some ⟨3, 2, 50000, 0, true, false, false⟩ ∧ shedSeqOf v = 3 ∧ shedMsg v = 2 ∧
     u.portNs 0 + 5000 ≤ 50000 ∧ s.time.nt ≤ (50000 - 5000) * 2 ^ 32 ∧ (50000 - 5000) * 2 ^ 32 < ntMod ∧
     (let r := withSource 0x020000000001 (shedFrame 1)
      shedMsg (slice r 14 20) = 1 ∧ s.partnerSheds 0 = true ∧ shedInstantOf (slice r 14 20) = 50000 ∧
      shedLanes (slice r 14 20) = 2 ∧
      next? (.shedRequestRx 0 0x020000000001 (shedFrame 1)) s (fun t => (t.port 0).shed.any (fun x => x.agreed)) = true) ∧ shedMsg (slice (shedFrame 3) 14 20) = 3 ∧
     next? (.shedAcceptRx 0 l) s (fun t => (t.port 0).shed.any (fun x => x.agreed)) = true ∧
     next? (.shedRefuseRx 0 (shedFrame 3)) s (fun t => (t.port 0).shed.isNone) = true) := by decide +kernel
theorem witness_ShedExchange_widen :
    (let s := (((((linked up 0).setf F.SEN_STATUS.ADMIN_STATE aPENDING).setf F.PRT_PARTNER.VALID 1).setf F.PRT_PARTNER.SHED 1).setf
       F.PRT_SHED_STATUS.WIDTH 0).setf F.SEN_ADMIN_RESV 300000
     s.swapPending 0 = true ∧ s.partnerSheds 0 = true ∧ s.shedAgreed 0 = false ∧
     s.rateOf 0 (s.lanes 0) < s.fld F.SEN_ADMIN_RESV 0 ∧ s.lanes 0 < lanesOf (s.modeWidth 0) ∧
     s.shedWindowIn 0 (s.portNs 0) ((s.port 0).sen.change - 1) = none) ∧
    (let s := (linked up 0).modPort 0 (fun d => { d with standbyWidth := 4 })
     (s.port 0).standbyWidth ≠ 0 ∧ s.shedBusy 0 = false ∧ s.pwr.state ≠ .standby ∧ s.pwr.entry = none ∧
     s.on F.PRT_STATUS.LINK_UP 0 = true ∧ s.phase = .running ∧
     next? (.standbyWidenRetry 0) s (fun t => (t.port 0).shed.any (fun x => x.width = 4)) = true) := by decide +kernel

/-! ShedChange -/

theorem witness_ShedChange :
    (let s := (linked up 0).modPort 0 (fun d => { d with shed := some ⟨3, 2, 5, 0, true, true, false⟩ })
     let r := (linked up 0).modPort 0 (fun d => { d with shedNow := some 2, doneAt := some 9 })
     (s.port 0).shedFirst = some ⟨3, 2, 5, 0, true, true, false⟩ ∧ (s.port 0).doneAt = none ∧
     s.overReserved 0 ⟨3, 2, 5, 0, true, true, false⟩ = false ∧
     ((s.setf F.SEN_STATUS.OPER_VALID 1).setf F.SEN_OPER_RESV 500000).overReserved 0 ⟨3, 2, 5, 0, true, true, false⟩ = true ∧
     next? (.shedInstant 0) s (fun t => (t.port 0).shedNow = some 2) = true ∧
     (r.port 0).shedNow = some 2 ∧ (r.port 0).doneAt = some 9 ∧
     next? (.shedLockCheck 0 true) r (fun t => t.fld F.PRT_STATUS.WIDTH 0 = 1) = true ∧
     next? (.shedLockCheck 0 false) (r.setf F.PRT_SHED_STATUS.FAIL_RUN 2) (fun t => t.fld F.PRT_SHED_STATUS.BLOCKED = 1) = true ∧
     2 ≤ (r.setf F.PRT_SHED_STATUS.FAIL_RUN 2).fld F.PRT_SHED_STATUS.FAIL_RUN) ∧
    (let s := (linked up 0).modPort 0 (fun d => { d with doneAt := some 9 })
     (s.port 0).shedNow = none ∧ (s.port 0).doneAt = some 9 ∧ Safety.Admits s 0x10) := by decide +kernel

/-! FramesComeIn -/

theorem witness_FramesComeIn :
    (let s := linked (upIn .operational) 0
     let l : List Byte := List.replicate 60 7
     s.kindAt 0 l = .data ∧ (s.macRx 0 l true (s.rxData 0)).1 = true ∧ s.pwr.blockRun = none ∧
     next? (.frameReceived 0 l false) s (fun t => t.fld F.RX_FCS_ERR 0 = 1) = true ∧
     next? (.frameReceived 0 l true) s (fun t => t.xing = [⟨0, 32, 6000, .descriptor 0⟩]) = true) ∧
    (let s := (linked up 0).setf F.PRT_MM_CTL.PREEMPT_EN 1
     let r := s.modPort 0 (fun d => { d with rxPart := some ⟨1, 2, [3], 8⟩ })
     s.on F.PRT_MM_CTL.PREEMPT_EN 0 = true ∧ (r.port 0).rxPart = some ⟨1, 2, [3], 8⟩ ∧
     next? (.continuationFragmentRx 0 false 1 2 [4] false true) r (fun t => (t.port 0).rxPart = some ⟨1, 3, [3, 4], 8⟩) = true ∧
     next? (.continuationFragmentRx 0 false 1 3 [4] false true) r (fun t => (t.port 0).rxPart = none) = true) ∧
    (let f : Frame := ⟨4, 0, [], .mix, 0, 0, 0, false, 0, none, 1, false, false, none, [], none⟩
     let s : State := { up with inbox := [⟨4, 0, 0⟩], frames := [(4, f)] }
     s.frame 4 = some f ∧ s.on F.SID_CTL.ENABLE = false ∧ (s.setf F.SID_CTL.ENABLE 1).on F.SID_CTL.ENABLE = true ∧
     s.matchIsh f = none ∧ s.defaultIsh f.port = none ∧ s.bad = [] ∧ s.unblocks = []) ∧
    (let f : Frame := ⟨4, 0, [], .mix, 0, 0, 0, false, 0, some 9, 1, false, false, none, [], none⟩
     let r := ((({ upIn .operational with inbox := [⟨4, 0, 0⟩], frames := [(4, f)] }.setf F.SID_CTL.ENABLE 1).setf
       F.SID_DEFAULT.DEFAULT_EN 1).setf F.SID_DEFAULT.ISH 3).setTab (ishTab 3) 0x80000000
     let s := ((r.setTab (ishTab 3 + 3) (2 ^ 18 + 5)).setTab (fanTab 5) 0x80000007).setTab (eshTab 7) 0x85000000
     Safety.Meets s ⟨4, 0, 0⟩ [] f 3 ∧ Safety.Only s 3 [] ∧ s.fanHandles (s.fanOut 3) = [7] ∧
     next? (.classify []) s (fun t => t.xing.map (fun x => (x.src, x.dst, x.due)) = [(32, 1, 7000)]) = true) ∧
    (let c : Copy := ⟨1, 1, 5, 0, 0, 0, 0, 0, none, none, false, 64, 1, .forwarded, 0, 0, none, false, false, false⟩
     let s : State := { up with xing := [⟨32, 1, 9, .copy c⟩] }
     s.xing.find? (fun y => y.src = 32 && y.dst = 1) = some ⟨32, 1, 9, .copy c⟩ ∧ c.port < 64) := by decide +kernel

/-! StreamTables -/

theorem witness_StreamTables :
    Safety.AdmitsTab up ∧ up.bst.tested = [] ∧ up.sidCol = none ∧ Safety.Admits up 0x0A ∧ up.unblocks = [] ∧
    up.unfiltered (up.lt / coreCycle) = false ∧
    ({ up with inbox := [⟨4, 0, 0⟩] } : State).unfiltered (up.lt / coreCycle) = true ∧
    next? (.sidEntryWrite 0xCFFFFC 5) up (fun t => t.tab (tSid + 0xCFFFFC / 4) = 5) = true ∧
    up.fbit F.PRT_WAKE_CTL.FILTER_EN 7 63 = false ∧ (up.setf F.PRT_WAKE_CTL.FILTER_EN 1 2).fbit F.PRT_WAKE_CTL.FILTER_EN 0 2 = true ∧
    (let s := executing up 0x31 [5]
     s.isBad rIDENT 5 = false ∧ idValid (s.identEntry 5) = false ∧
     idValid ((s.setTab (identTab 5) 0x80000000).identEntry 5) = true ∧
     next? .streamUnbind (s.setTab (identTab 5) 0x80000000) (fun t => t.tabs = []) = true) := by decide +kernel
theorem witness_StreamTables_filters :
    (let f : Frame := ⟨4, 0, List.replicate 60 7, .mix, 0, 0, 0, false, 0, some 9, 1, false, false, none, [], none⟩
     let r := ((({ upIn .operational with inbox := [⟨4, 0, 0⟩], frames := [(4, f)] }.setf F.SID_CTL.ENABLE 1).setf
       F.SID_DEFAULT.DEFAULT_EN 1).setf F.SID_DEFAULT.ISH 3).setTab (ishTab 3) 0xA0000005
     let s := r.setTab (filterTab 5) 0x88FF0002
     let m := (s.setTab (meterTab 2 + 4) 0x80000010).setTab (meterTab 2 + 2) 100
     let k := filterTab 5
     Safety.Meets s ⟨4, 0, 0⟩ [] f 3 ∧ Safety.Only s 3 [29] ∧ s.tabBits (ishTab 3) 0 15 0 = 5 ∧ s.tabBit k 0 31 = true ∧
     s.tabBit k 0 29 = false ∧ (s.tabBits k 0 23 16).testBit f.pcp = true ∧ s.tabBits k 1 15 0 = 0 ∧ s.tabBit k 0 28 = false ∧
     s.tabBit k 0 27 = true ∧ s.tabBits k 0 13 0 = 2 ∧ m.tabBit (meterTab 2) 4 31 = true ∧ m.tabBit (meterTab 2) 4 5 = false ∧
     m.tabBit (meterTab 2) 4 3 = false ∧ ((m.setMeter 2 ⟨65536, 0, 0⟩).meterRefill 2 m.lt).meter 2 = ⟨65536, 0, 0⟩ ∧
     frameLen f.octets * 1024 = 65536 ∧ (m.meterRefill 2 m.lt).meter 2 = ⟨0, 0, 0⟩ ∧
     next? (.classify []) (m.setMeter 2 ⟨65536, 0, 0⟩) (fun t => t.meter 2 = ⟨0, 0, 0⟩) = true ∧
     next? (.classify []) m (fun t => t.tabBit (meterTab 2) 4 5) = true ∧
     next? (.classify []) (r.setTab k 0x80FE0000) (fun t => t.tab (k + 4) = 1) = true ∧
     next? (.classify []) ((r.setTab k 0xC0FF0000).setTab (k + 1) 63) (fun t => t.tab (k + 5) = 1 && t.tab k = 0xE0FF0000) = true) := by decide +kernel
theorem witness_StreamTables_bind :
    (let s := executing up 0x30 [0x807F0001]
     let e := (List.range 13).map (fun w => (⟨0, [0x30, 0x807F0001], false⟩ : Cmd).word (w + 1))
     let b := bucketEntries (bucketOf (idType e) (idKey s.ipMask e))
     idReservedOk e = true ∧ idType e ≤ 3 ∧ idPort e = 0x7F ∧ idValid e = true ∧ b.any (fun j => s.sameKey j e) = false ∧
     b.find? (fun j => ¬ idValid (s.identEntry j) ∧ ¬ s.isBad rIDENT j) = b.head? ∧ b.head?.isSome = true) := by decide +kernel

/-! RecoveryTimers -/

theorem witness_RecoveryTimers_frames :
    (let f : Frame := ⟨4, 0, List.replicate 60 7, .mix, 0, 0, 0, false, 0, some 9, 1, false, false, none, [], none⟩
     let r := ((({ upIn .operational with inbox := [⟨4, 0, 0⟩], frames := [(4, f)] }.setf F.SID_CTL.ENABLE 1).setf
       F.SID_DEFAULT.DEFAULT_EN 1).setf F.SID_DEFAULT.ISH 3)
     let k := recovTab 2
     let s := ((r.setTab (ishTab 3) 0x88000000).setTab (ishTab 3 + 1) (2 * 2 ^ 15)).setTab k 0x80000008
     Safety.Meets s ⟨4, 0, 0⟩ [] f 3 ∧ Safety.Only s 3 [27] ∧ s.tabBits (ishTab 3) 1 29 15 = 2 ∧ s.tabBit k 0 31 = true ∧
     s.histLen 2 = 8 ∧ s.takeAny 2 = false ∧
     next? (.classify []) (s.setTab (k + 4) 7) (fun t => t.tab (k + 7) = 1 && t.tab (k + 8) = 2 && (t.recov 2).history = 1) = true ∧
     next? (.classify []) (s.setTab (k + 4) 1) (fun t => t.tab (k + 9) = 1) = true ∧
     next? (.classify []) (s.setTab (k + 4) 10) (fun t => (t.recov 2).history = 2) = true ∧
     Safety.Only (s.setTab k 0xC0000008) 3 [27]) := by decide +kernel

theorem witness_RecoveryTimers_generation :
    (let f : Frame := ⟨4, 0, List.replicate 60 7, .mix, 0, 0, 0, false, 0, some 9, 1, false, false, none, [], none⟩
     let r := ((({ upIn .operational with inbox := [⟨4, 0, 0⟩], frames := [(4, f)] }.setf F.SID_CTL.ENABLE 1).setf
       F.SID_DEFAULT.DEFAULT_EN 1).setf F.SID_DEFAULT.ISH 3)
     let k := recovTab 2
     let s := ((r.setTab (ishTab 3) 0x88000000).setTab (ishTab 3 + 1) (2 * 2 ^ 15)).setTab k 0x80000008
     let m := ((s.setTab (ishTab 3) 0x8C000000).setTab k 0xC0000008).setTab (k + 4) 9
     let g := ((r.setTab (ishTab 3) 0x90000000).setTab (ishTab 3 + 1) 5).setTab (genTab 5) 0x8000FFFF
     Safety.Meets m ⟨4, 0, 0⟩ [] f 3 ∧ m.ishBit 3 29 = false ∧ m.ishBit 3 27 = true ∧ m.ishBit 3 26 = true ∧
     m.takeAny 2 = false ∧ f.rtag = some (m.recovSeq 2) ∧ next? (.classify []) m (fun t => t.tab (k + 6) = 1) = true ∧
     Safety.Meets g ⟨4, 0, 0⟩ [] f 3 ∧ Safety.Only g 3 [28] ∧ g.tabBit (genTab 5) 0 31 = true ∧
     next? (.classify []) g (fun t => t.tab (genTab 5) = 0x80000000) = true) := by decide +kernel
theorem witness_RecoveryTimers :
    (let s := (up.setTab (recovTab 3) 0x90000000).setRecov 3 ⟨0, some 7, 5, 9, false⟩
     (s.recov 3).timer = some 7 ∧ s.bst.tested = [] ∧ s.latentRuns 3 = true ∧ s.phase = .running ∧
     next? (.recoveryResetTimer 3) s (fun t => t.takeAny 3) = true ∧
     next? (.latentTest 3) s (fun t => (t.recov 3).latent && t.fbit F.FLT_CAUSE 25) = true) := by decide +kernel

/-! PanelPorts -/

theorem witness_PanelPorts :
    (let s := (upIn .operational).setf F.PNL_CTL.ENABLE 1 0 7
     let l : List Byte := List.replicate 60 7
     s.on F.PNL_CTL.ENABLE 0 7 = true ∧ s.rxDown = false ∧ s.pwr.blockRun = none ∧ 60 ≤ l.length ∧ l.length ≤ 1518 ∧
     s.panelMay 7 = true ∧ s.plcaActive 7 = false ∧ (s.panel 7).tx = none ∧
     s.panelSending 7 = false ∧ next? (.panelFrameRx 7 l true false) s (fun t => t.xing.length = 1) = true ∧
     ((s.setPanel 7 { PanelDyn.reset with high := [3, 4] }).panel 7).high = [3, 4] ∧
     ((s.setPanel 7 { PanelDyn.reset with high := [3, 4] }).frame 3).bind (fun f => f.due) = none ∧
     next? (.panelFrameTx 7 false 601) (s.setPanel 7 { PanelDyn.reset with high := [3, 4] })
       (fun t => (t.panel 7).tx = some (3, none)) = true ∧
     next? (.panelFrameTx 7 false) (s.setPanel 7 { PanelDyn.reset with high := [3, 4] }) (fun t => (t.panel 7).high = [4]) = true) ∧
    (let s := (upIn .operational).setf F.PNL_CTL.ENABLE 1 0 7
     let e := panelGap + 9
     let r := s.setPanel 7 { PanelDyn.reset with tx := some (3, some e) }
     (r.panel 7).tx = some (3, some e) ∧ r.panelSending 7 = true ∧ (r.panel 7).attempts < 15 ∧
     next? (.panelFrameRx 7 (List.replicate 60 7) true false) r (fun t => (t.panel 7).tx = some (3, none)) = true ∧
     next? (.panelCollision 7) r (fun t => (t.panel 7).tx = some (3, none)) = true ∧
     next? (.panelCollision 7) (s.setPanel 7 { PanelDyn.reset with tx := some (3, some e), attempts := 15 })
       (fun t => t.fld F.PNL_EXCESS_COLL 0 7 = 1) = true ∧
     ((s.setPanel 7 { PanelDyn.reset with tx := some (3, none), backoff := some 5 }).panel 7).backoff = some 5) ∧
    (let s := ((up.setf F.PNL_CTL.PLCA_EN 1 0 7).setf F.PNL_PLCA.NODE_ID 0 0 7).setf F.PNL_STATUS.PLCA_OK 1 0 7
     s.phase = .running ∧ s.on F.PNL_CTL.PLCA_EN 0 7 = true ∧ s.fld F.PNL_PLCA.NODE_ID 0 7 ≠ 0xFF ∧
     s.on F.PNL_STATUS.PLCA_OK 0 7 = true ∧ (s.panel 7).tx = none ∧
     next? (.plcaToTimer 7) s (fun t => (t.panel 7).opportunity = 1) = true) := by decide +kernel

/-! QueuesAndTransmission -/

theorem witness_QueuesAndTransmission :
    (let c : Copy := ⟨1, 1, 0, 5, 3, 0, 0, 0, none, none, false, 64, 1, .forwarded, 0, 0, none, false, false, false⟩
     let s := { linked up 0 with arrived := [(0, [c])] }
     let r := s.setTab (subqTab 0 5 3 0) 0x80000000
     SMap.val s.arrived 0 [] = [c] ∧ s.spoilt c.fid = false ∧ s.offerVerdict 0 c = .invalid ∧ r.offerVerdict 0 c = .accept ∧
     next? (.frameEnqueue 0) s (fun t => t.fld F.QSH_SUBQ_INVALID_DROP 0 = 1) = true ∧
     next? (.frameEnqueue 0) r (fun t => (t.port 0).occ 5 = 1) = true ∧
     (s.setf F.QSH_CTL.ENABLE 0 0).offerVerdict 0 c = .flushed ∧ (s.setf F.PRT_MAXLEN.MAXLEN 63 0).offerVerdict 0 c = .oversize ∧
     (r.setf F.QSH_CLASS_LIMIT 0 0 5).offerVerdict 0 c = .tail) ∧
    (let c : Copy := ⟨1, 1, 0, 7, 0, 0, 0, 0, none, none, false, 64, 1, .control kRESPOND, 0, 0, none, true, false, false⟩
     let s := (linked up 0).modPort 0 (fun d => { d with due := [c] })
     let v := (((s.lookAhead 0 []).unsentDrop 0).ageDrop 0).dropBarred 0
     let u := (v.countHeld 0).syncCredit 0
     v.lineMay 0 = true ∧ (u.port 0).tx = none ∧ (u.countDefer 0 (u.beginAt 0)).choose 0 (u.beginAt 0) = some (.due c) ∧
     next? (.transmissionSelection 0 []) s (fun t => (t.port 0).tx.isSome) = true) ∧
    (let c : Copy := ⟨1, 1, 0, 7, 0, 0, 0, 0, none, none, false, 64, 1, .forwarded, 0, 0, none, true, false, false⟩
     let s := (linked up 0).modPort 0 (fun d => { d with tx := some ⟨c, [], 0, 9, 0, true, 0, false, false⟩ })
     let f : Frame := ⟨4, 0, [], .mix, 0, 0, 0, false, 0, none, 1, false, false, none, [], none⟩
     (s.port 0).tx = some ⟨c, [], 0, 9, 0, true, 0, false, false⟩ ∧ c.mPacket = false ∧
     s.op ≠ .test ∧ next? (.txFrameDone 0) s (fun t => t.fld F.TX_FRAMES 0 = 1) = true ∧
     (let r := ({ s with op := .test } : State).setf F.PRT_CTL.LOOPBACK 1
      (r.port 0).tx = some ⟨c, [], 0, 9, 0, true, 0, false, false⟩ ∧ r.on F.PRT_CTL.LOOPBACK 0 = true ∧
      next? (.txFrameDone 0) r (fun t => t.fld F.RX_UNDERSIZE 0 = 1) = true) ∧
     SMap.wf (s.port 0).subqs = true ∧
     (let e : Ellipsis := ⟨c, List.replicate 200 7, 124, 1, false⟩
      let q := { upIn .operational with regs := (linked up 0).regs }
      let r := (q.modPort 0 (fun d => { d with ellipsis := some e, due := [], subqs := [(subKey 7 3, ⟨[c], 5, 0, 0⟩)] }))
      let r := r.setTab (subqTab 0 7 3 0) 0x80000000
      r.pickDue 0 (20 * coreCycle) = none ∧ r.pickControl 0 (20 * coreCycle) = none ∧ r.dataMay 0 = true ∧
      (r.setf F.PRT_MM_CTL.PREEMPTABLE 0).express 0 7 = true ∧
      (r.setf F.PRT_MM_CTL.PREEMPTABLE 0).pick 0 7 (20 * coreCycle) = some (subKey 7 3, c, .whole)) ∧
     ({ s with frames := [(4, f)] } : State).frame 4 = some f ∧
     ((linked up 0).modPort 0 (fun d => { d with ctrl := [c] })).firstExpiry 0 = some (5000 * ltUs)) := by decide +kernel

/-! QueueWrites -/

theorem witness_QueueWrites :
    Safety.AdmitsTab up ∧ up.bst.tested = [] ∧ 0xFFFFFC / 0x40000 < up.nPorts ∧ 0xFFFFFC / 4 % 8 ≠ 3 ∧ 12 / 4 % 8 = 3 ∧
    Safety.Admits up 0x4C ∧ 60 % 4 = 0 ∧ 65024 + up.fld F.QSH_POOL_DMA 60 ≤ 65024 ∧ (up.island 15).mixUsed ≤ 65024 ∧
    65024 < 65025 + up.fld F.QSH_POOL_DMA 60 ∧
    next? (.qshPoolWrite 60 false 65024) up (fun t => t.fld F.QSH_POOL_MIX 60 = 65024) = true ∧
    next? (.subqEntryWrite 0xFFFFFC 5) up (fun t => t.tab (tSubq + 0xFFFFFC / 4) = 5) = true ∧
    SMap.wf ((linked up 0).port 0).subqs = true ∧ next? (.queueDisableFlush 0 3) (linked up 0) (fun t => t.fld F.QSH_CTL.ENABLE 0 = 0) = true := by decide +kernel

/-! SentenceCommands -/

theorem witness_SentenceCommands :
    (Safety.AdmitsTab up ∧ up.bst.tested = [] ∧ 0x3F8000 / 0x10000 < up.nPorts ∧
      up.fld F.SEN_STATUS.OPER_BANK 63 ≠ 0x3F8000 / 0x8000 % 2 ∧ up.swapPending 63 = false ∧
      up.fld F.SEN_STATUS.OPER_BANK 63 = 0x3F0000 / 0x8000 % 2 ∧ Safety.Admits up 0x4F ∧ senAdmin[6]? = some F.SEN_ADMIN_RESV ∧
      (up.setf F.SEN_STATUS.ADMIN_STATE aPENDING 63).swapPending 63 = true ∧
      next? (.clauseWrite 0x3F8000 5) up (fun t => t.tab (tSen + 0x3F8000 / 4) = 5) = true) ∧
    (let s := ((executing up 0x10 [0]).setTab (clauseTab 0 1 0) 0x000000FF).setTab (clauseTab 0 1 0 + 1) 125000
     s.swapPending 0 = false ∧ s.adminParamsOk 0 = true ∧
     s.firstFail 0 (1 - s.fld F.SEN_STATUS.OPER_BANK 0) (s.fld F.SEN_ADMIN_LEN 0) 0 = none ∧
     s.bankBad 0 (1 - s.fld F.SEN_STATUS.OPER_BANK 0) = none ∧
     (s.setf F.SEN_ADMIN_LEN 0).adminParamsOk 0 = false ∧
     next? (.sentenceStage []) s (fun t => t.adminState 0 = aSTAGED) = true ∧
     next? (.sentenceStage []) (s.setf F.SEN_ADMIN_LEN 0) (fun t => t.fld F.HIF_MB_RESP 0 0 % 256 = xBADARG) = true) ∧
    (let s := ((executing up 0x11 [0]).setf F.SEN_CTL.ENABLE 1).setf F.SEN_STATUS.ADMIN_STATE aSTAGED
     s.on F.SEN_CTL.ENABLE 0 = true ∧ s.adminState 0 = aSTAGED ∧ s.shedAgreed 0 = false ∧ s.armServes 0 125000 = true ∧
     (executing up 0x11 [0]).adminState 0 ≠ aSTAGED ∧
     next? .sentenceArm s (fun t => (t.port 0).sen.change = 125000) = true) ∧
    (let s := ((executing up 0x12 [0]).setf F.SEN_STATUS.ADMIN_STATE aPENDING).modSen 0 (fun x => { x with change := 2001 })
     s.swapPending 0 = true ∧ s.portNs 0 < (s.port 0).sen.change - 2000 ∧ s.shedAgreed 0 = false ∧
     (executing up 0x12 [0]).swapPending 0 = false ∧
     next? .sentenceAbort s (fun t => t.adminState 0 = aSTAGED) = true) := by decide +kernel

/-! SentencesRun -/

theorem witness_SentencesRun :
    (let s := ((up.setf F.SEN_STATUS.ADMIN_STATE aPENDING).modSen 0 (fun x => { x with change := 5 }))
     s.swapPending 0 = true ∧ next? (.sentenceSwap 0 false) s (fun t => t.fld F.SEN_STATUS.OPER_BANK 0 = 1) = true) ∧
    (let s := sentenced up 0
     s.on F.SEN_STATUS.OPER_VALID 0 = true ∧ s.phase = .running ∧ s.swapPending 0 = false ∧
     next? (.cycleStart 0) s (fun t => (t.port 0).sen.cycle = 125000) = true ∧
     next? (.clauseBoundary 0 true) s (fun t => t.bad = [(32, 0)]) = true) ∧
    (let c : Copy := ⟨1, 1, 0, 0, 0, 0, 0, 0, none, none, false, 64, 1, .forwarded, 0, 0, none, true, false, false⟩
     let x : Tx := ⟨c, List.replicate 400 0, 0, 9000, 0, true, 0, false, false⟩
     let s := (((sentenced (linked up 0) 0).setTab (clauseTab 0 0 0) 0x000001FF).setf F.PRT_MM_STATUS.ACTIVE 1).modPort 0
       (fun d => { d with tx := some x })
     s.on F.PRT_MM_STATUS.ACTIVE 0 = true ∧ s.holdAt 0 (s.portNs 0) = true ∧ s.cuttable 0 s.lt = some (60, x) ∧
     next? (.holdInForce 0) s (fun t => t.fld F.SEN_HOLD_PREEMPT 0 = 1) = true) ∧
    (let s := (sentenced up 0).setTab (clauseTab 0 0 0) 0x0F
     s.swapPending 0 = false ∧ s.on F.SEN_STATUS.OPER_VALID 0 = true ∧ s.bad = [] ∧ s.gateNs 0 3200 = 1 ∧ s.gatesAt 0 3200 = 0x0F ∧
     s.fld F.SEN_OPER_LEN 0 = 1 ∧ s.fld F.SEN_OPER_CYCLE 0 = 125000 ∧ (s.port 0).sen.operC = 0) ∧
    Safety.Admits up 0x10 ∧ next? (.senEnableClear 0 3) up (fun t => t.fld F.SEN_CTL.DROP_LATE 0 = 3) = true := by decide +kernel

/-! SelfTest -/

theorem witness_SelfTest :
    (let c : Cmd := ⟨0, [0x70, 0x102, 1], false⟩
     let s := executing up 0x70 [0x102, 1]
     Safety.Executes s 0x70 c ∧ s.bistLocked (c.word 1) = false ∧ s.bst.run = none ∧ s.wiping = false ∧
     (s.setBit F.REG_LOCK_PORT_L.LOCK_PORT 3 true).bistLocked (c.word 1) = true ∧
     next? .bistRun s (fun t => t.bst.units.length = 17) = true) ∧
    (let s := (up.modBst (fun b => { b with run := some (0, false, 0), units := [⟨0, 0, false, 0⟩, ⟨1, 0, false, 0⟩] })).setf
       F.PWR_BUDGET 100
     s.bistOver = false ∧ next? (.bistWaveStart 70) s (fun t => t.bst.units.map (fun x => x.state) = [1, 0]) = true ∧
     next? (.bistWaveStart 95) s (fun t => t.bst.emptyTries = 1) = true) ∧
    (let s := up.modBst (fun b => { b with run := some (0, false, 0), mask := 8, units := [⟨3, 0, false, 1⟩] })
     next? (.bistWaveDone []) s (fun t => t.lt = 15 * ltMs && t.bst.units.all (fun x => x.state = 2)) = true) ∧
    (let s := up.modBst (fun b => { b with run := some (0, false, 0), mask := 8, units := [⟨3, 0, false, 2⟩] })
     s.bistOver = true ∧ Safety.sources s = true ∧ next? .bistRunDone s (fun t => t.bst.run.isNone) = true) ∧
    Safety.Executes (executing up 0x71 [3]) 0x71 ⟨0, [0x71, 3], false⟩ ∧
    (let s := (upIn .test).modBst (fun b => { b with soft := [⟨true, 0, 4⟩] })
     Safety.Admits s 9 ∧ s.op = .test ∧ s.lifecycle < 2 ∧ s.fuses.recordsUsed + s.bst.soft.length ≤ 8 ∧ s.bst.burning = none ∧
     next? .fuseBurn s (fun t => t.bst.burning = some (0, [⟨true, 0, 4⟩])) = true ∧
     next? (.fuseBurnDone []) (s.modBst (fun b => { b with burning := some (0, [⟨true, 0, 4⟩]) }))
       (fun t => t.fuses.repairs = [⟨true, 0, 4⟩] && t.bst.soft = [] && t.fld F.BST_FUSE.RECORDS_USED = 1) = true ∧
     next? (.fuseBurnDone [false]) (s.modBst (fun b => { b with burning := some (0, [⟨true, 0, 4⟩]) }))
       (fun t => t.bst.soft.length = 1) = true) := by decide +kernel

/-! KeysAndScan -/

theorem witness_KeysAndScan :
    (let c : Cmd := ⟨0, [0x90, 2, 0, 0, 0, 0, 0, 0, 0, 0, 0x190A55AD], false⟩
     let s := executing up 0x90 [2, 0, 0, 0, 0, 0, 0, 0, 0, 0x190A55AD]
     Safety.Executes s 0x90 c ∧ s.lifecycle ≠ 3 ∧ c.word 10 = crc32 (c.bytes 2 8) ∧ SMap.look s.bst.keys 2 = none ∧
     next? .keyLoad s (fun t => t.bst.keys = [(2, 0)]) = true ∧
     next? .keyClear (executing (s.modBst (fun b => { b with keys := [(2, 7), (3, 5)] })) 0x91 [4]) (fun t => t.bst.keys = [(3, 5)])
       = true) ∧
    Safety.Executes (executing up 0x90 [2]) 0x90 ⟨0, [0x90, 2], false⟩ ∧
    (Cmd.word ⟨0, [0x90, 2], false⟩ 10 ≠ crc32 (Cmd.bytes ⟨0, [0x90, 2], false⟩ 2 8)) ∧
    Safety.Executes (executing up 0x91 [4]) 0x91 ⟨0, [0x91, 4], false⟩ ∧
    (up.board.rstLow = false ∧ up.scanMay = true ∧ { up with lifecycle := 1 }.scanMay = false ∧
      next? (.tapInstruction .highz) up (fun t => t.fld F.BST_SCAN_REFUSED = 1) = true) ∧
    (let s := up.modBst (fun b => { b with keys := [(2, 7)] })
     next? (.scanUnlock 7) s (fun t => t.bst.unlocked) = true ∧ next? (.scanUnlock 8) s (fun t => t.bst.unlockFails = 1) = true) ∧
    (let s := up.modBst (fun b => { b with keys := [(2, 7)], scanPending := true, tap := .privateScan })
     s.bst.scanPending = true ∧ s.phase = .running ∧ s.scanMay = true ∧ s.s3MustWait = false ∧
     next? .scanOpen s (fun t => t.op = .safe && t.bst.keys = []) = true ∧
     next? .scanChainsConnect (s.modBst (fun b => { b with scanWiped := true })) (fun t => t.bst.scanOpen) = true) := by decide +kernel

/-! LifeCycleTransition -/

theorem witness_LifeCycleTransition :
    (let c : Cmd := ⟨0, [0x80, 1, 0x4C43, 9, 0, 0, 0], false⟩
     let u := (List.range 4).foldl (fun t k => t.setf F.CXM_PORT_STATUS.STATE pNOTPRESENT 0 k)
       (executing up 0x80 [1, 0x4C43, 9, 0, 0, 0])
     Safety.Executes u 0x80 c ∧ c.word 2 = 0x4C43 ∧ u.pairOn = false ∧
     u.cxlUnsettled = false ∧ u.bst.authFails ≤ 8 ∧ u.authOk 1 c.auth = true ∧ u.authOk 1 0 = false ∧
     (u.setf F.CXM_PORT_STATUS.STATE pTRAINING 0 0).cxlUnsettled = true ∧
     next? .lifecycleAdvance u (fun t => t.bst.advance = some ⟨0, 1, 9, [], []⟩) = true) ∧
    (let s := up.modBst (fun b => { b with advance := some ⟨0, 1, 9, [], []⟩ })
     s.bst.advance = some ⟨0, 1, 9, [], []⟩ ∧
     next? (.lifecycleWipeDone [1]) s (fun t => t.lifecycle = 1 && t.owner = 9) = true ∧ Safety.sources s = true) ∧
    (let s := up.modBst (fun b => { b with advance := some ⟨0, 1, 9, [(1, 2 ^ 30)], []⟩ })
     s.bst.advance = some ⟨0, 1, 9, [(1, 2 ^ 30)], []⟩ ∧
     next? (.lifecycleWipeDone [1]) s (fun t => t.lifecycle = 0 && t.fbit F.FLT_CAUSE 23 0 2) = true ∧
     next? (.lifecycleWipeDone []) s (fun t => t.lifecycle = 1) = true) := by decide +kernel

/-! CxlPorts -/

theorem witness_CxlPorts :
    ((1 < up.nCxl ∧ Safety.Admits up 7 ∧ up.mapped 1 = false) ∧
      (up.setCxlState 1 pMAPPED).mapped 1 = true ∧
      next? (.cxmEnum 1) up (fun t => t.cxlState 1 = pTRAINING) = true) ∧
    (next? (.enumerationDone 1 ⟨true, true, true, true, 1, 0, false, 0, 300000000, 1, 2, 3⟩) (up.setCxlState 1 pTRAINING)
      (fun t => t.cxlState 1 = pMAPPED && (t.cxlPort 1).mapped = 268435456 && t.on F.CXM_PORT_STATUS.DEGRADED 0 1) = true) ∧
    (next? (.cxlReadFail 1 130 true) (up.setCxlState 1 pMAPPED) (fun t => (t.cxlPort 1).poison = [128]) = true) ∧
    (next? (.cxlLinkDown 1) (up.setCxlState 1 pMAPPED) (fun t => t.cxlState 1 = pDOWN) = true) ∧
    (let s := (up.setCxlState 1 pUNUSABLE).modBst (fun b => { b with advance := some ⟨0, 1, 9, [(1, 2 ^ 30)], []⟩ })
     s.cxlState 1 = pUNUSABLE ∧ s.lt < 0 + 40 * ltMs + wipeTime (2 ^ 30) ∧
     next? (.cxlLinkDown 1) s (fun t => t.bst.advance.any (fun y => y.failed = [1])) = true) ∧
    (Safety.AdmitsTab up ∧ up.bst.tested = [] ∧ up.cxmCol = none ∧
      next? (.cxmEntryWrite (64 * 1023) 5) up (fun t => t.cxmCol = some ⟨lineTab 1023, [(lineTab 1023, 5)]⟩) = true) ∧
    (let s := ((((up.setCxlState 0 pMAPPED).setCxl 0 ⟨268435456, [], [], [], none, none, none⟩).setTab (lineTab 1) 0x80000000).setTab
      (lineTab 1 + 3) 0x10000000).setTab (lineTab 1 + 4) 8 |>.setTab (lineTab 1 + 5) 50000
     lnRefused ((s.lineEntry 1).set 15 7) = false ∧ lnValid ((s.lineEntry 1).set 15 7) = true ∧
     lnExtent (s.lineEntry 1) = lnExtent ((s.lineEntry 1).set 15 7) ∧
     (lnRefused (((s.setTab (lineTab 1 + 4) 0).lineEntry 1).set 15 7) = true) ∧
     next? (.cxmEntryWrite 124 7) s (fun t => t.tab (lineTab 1 + 15) = 7) = true) := by decide +kernel

/-! DelayLines -/

theorem witness_DelayLines :
    (let f : Frame := ⟨5, 0, [1, 2], .dma, 0, 1, 9, false, 0, none, 1, false, false, none, [], none⟩
     let s := { ((((((up.setCxlState 0 pMAPPED).setCxl 0 ⟨268435456, [], [], [], none, none, none⟩).setTab (lineTab 1) 0x80000000).setTab
       (lineTab 1 + 3) 0x10000000).setTab (lineTab 1 + 4) 8).setTab (lineTab 1 + 5) 50000).setFrame f with captures := [⟨5, 1, 9⟩] }
     s.bst.tested = [] ∧ s.captures.find? (fun c => c.line = 1) = some ⟨5, 1, 9⟩ ∧
     cxlAt (entNum (s.lineEntry 1) 2) = some ⟨0, 0⟩ ∧ s.frame 5 = some f ∧
     s.cxlOk 0 (0 + lnHead (s.lineEntry 1) * lnSlot (s.lineEntry 1)) (lnSlot (s.lineEntry 1)) = true ∧
     lnValid (s.lineEntry 1) = true ∧ 0 < lnSlots (s.lineEntry 1) ∧
     next? (.delayRecordWritten 1 true) s (fun t => lnHead (t.lineEntry 1) = 1 && t.cxlRead 0 0 18 = recordBytes 9 [1, 2])
       = true) ∧
    (let s := (((((((((up.setCxlState 0 pMAPPED).setCxl 0 ⟨268435456, [], [], (recordBytes 9 [1, 2]).mapIdx (fun i b => (i, b)), none, none, none⟩).setTab
       (lineTab 1) 0x80000000).setTab (lineTab 1 + 3) 0x10000000).setTab (lineTab 1 + 4) 8).setTab (lineTab 1 + 5) 50000).setf
       F.CXM_CTL.ENABLE 1).setTab (eshTab 0) 0x80000000).setf F.QSH_POOL_DMA 10 0).setLine 1 ⟨[], 0, 1⟩
     s.linesRun = true ∧ (s.line 1).left ≠ 0 ∧ lnValid (s.lineEntry 1) = true ∧ s.recordAt 1 0 = some (9, [1, 2]) ∧
     lnDue (s.lineEntry 1) 9 = some 50009 ∧ (s.runToNs 30009).ns ≤ 50009 ∧
     (s.runToNs 30009).eshValid (lnEsh (s.lineEntry 1)) = true ∧
     (s.runToNs 30009).dmaRoom ((s.runToNs 30009).eshPort (lnEsh (s.lineEntry 1))) (cellsOf (frameLen [1, 2])) = true ∧
     next? (.delayRecordFetch 1) s (fun t => (t.line 1).staged = [(0, 50009)]) = true) ∧
    (next? (.delayRecordDue 1) (up.setLine 1 ⟨[(5, 7), (6, 8)], 0, 1⟩) (fun t => (t.line 1).staged = [(6, 8)]) = true) ∧
    (let f : Frame := ⟨5, 0, List.replicate 60 7, .dma, 0, 1, 9, false, 0, none, 1, false, false, none, [], none⟩
     let s := (((linked (upIn .operational) 0).setTab (eshTab 0) 0x80000000).setLine 1 ⟨[(5, 7)], 0, 1⟩).setFrame f
     let c := ((s.runToNs 7).eshCopy (lnEsh (s.lineEntry 1)) f f.rtag false (.replay 1)).1
     s.cxmHeld = false ∧ s.frame 5 = some f ∧ s.ns ≤ 7 ∧ s.isBad rESH (lnEsh (s.lineEntry 1)) = false ∧
     s.eshValid (lnEsh (s.lineEntry 1)) = true ∧ c.port = 0 ∧ s.dataState 0 = true ∧ s.portHeld 0 = false ∧
     next? (.delayRecordDue 1) s (fun t => t.tab (lineTab 1 + 15) = 1) = true ∧
     next? (.delayRecordDue 1) (s.setTab (subqTab 0 0 0 0) 0x80000000) (fun t => t.tab (lineTab 1 + 14) = 1) = true) := by decide +kernel

/-! DmaRings -/

theorem witness_DmaRings :
    (Safety.Admits up 6 ∧ up.ckptOwns 63 = false ∧ 5 % 65536 < up.descCount 63 ∧ up.descCount 63 ≤ 16 % 65536 ∧
      next? (.dmaDoorbell 63 5) up (fun t => t.fld F.DMA_CH_TAIL 0 63 = 5) = true ∧
      next? (.cqSlotFree 63 5) (up.setChState 63 cWAITCQ) (fun t => t.chState 63 = cIDLE) = true) ∧
    (up.setf F.DMA_CTL.CKPT_D63 1).ckptOwns 63 = true ∧
    (let s := ((((up.setf F.DMA_CTL.ENABLE 1).setf F.DMA_CH_CTL.ENABLE 1 0 63).setChState 63 cIDLE).setf F.DMA_CH_TAIL 5 0 63).modHost
       (fun h => { h with mem := [(3, 0x80)] })
     s.mayFetch 63 = true ∧ s.cqFull 63 = false ∧ (leNum (slice (cellsRead s.host.mem (s.descBase 63) 64) 0 4)).testBit 31 = true ∧
     next? (.descriptorFetch 63) s (fun t => t.chState 63 = cRUNNING && (t.chan 63).status = some dBADDESC) = true ∧
     next? (.descriptorFetch 63) (s.modHost (fun h => { h with mem := [] })) (fun t => (t.chan 63).stalled) = true ∧
     next? (.descriptorFetch 63) (s.setf F.DMA_CH_CQ_TAIL 1 0 63) (fun t => t.chState 63 = cWAITCQ) = true) ∧
    (let s := up.setChan 63 { ChDyn.reset with desc := some (descOf 3 []), status := some dBADDESC }
     (s.chan 63).status = some dBADDESC ∧
     next? (.descriptorComplete 63 true) s (fun t => t.fld F.DMA_CH_HEAD.HEAD 0 63 = 4 && t.chState 63 = cPAUSED) = true) := by decide +kernel

/-! DmaRuns -/

theorem witness_DmaRuns :
    (let d : Desc := ⟨0, 0, false, true, oFILL, 0, 8, 1, 1, 0, 0, 0, 0, 0, 0, 0x0807060504030201⟩
     let s := (up.setChState 63 cRUNNING).setChan 63 { ChDyn.reset with desc := some d }
     s.nextChannel = some 63 ∧ d.toFrames = false ∧ s.regionOf (d.dstAt 0) = some .host ∧
     next? .dmaBurst s (fun t => cellsRead t.host.mem 0 9 = [1, 2, 3, 4, 5, 6, 7, 8, 0]) = true ∧
     next? .dmaBurst (s.setChan 63 { ChDyn.reset with desc := some { d with op := oCOMPARE } })
       (fun t => (t.chan 63).mismatch = some 0) = true) ∧
    up.nextChannel = none ∧
    (let s := (up.setChState 63 cRUNNING).setChan 63 { ChDyn.reset with desc := some (descOf 0 []), done := 5 }
     next? (.beatError 63) s (fun t => (t.chan 63).status = some dBEAT && (t.chan 63).good = 0) = true) ∧
    (Safety.Admits up 6 ∧ up.ckptOwns 63 = false ∧
      next? (.dmaPause 63) (up.setChState 63 cRUNNING) (fun t => t.chState 63 = cPAUSING) = true ∧
      next? (.dmaResume 63) (up.setChState 63 cPAUSED) (fun t => t.chState 63 = cIDLE) = true ∧
      next? (.dmaChannelDisable 63) (up.setChState 63 cPAUSED) (fun t => t.chState 63 = cDISABLED) = true) ∧
    (let d : Desc := ⟨0, 0, false, true, oFILL, 0, 600, 2, 1, 0, 0, 0, 0, 600, 0, 0⟩
     let s := (up.setChState 63 cPAUSING).setChan 63 { ChDyn.reset with desc := some d, done := 700 }
     (s.chan 63).unfinished = true ∧
     next? (.dmaPaused 63) s (fun t => t.fld F.DMA_CH_POS_IN 0 63 = 100 && t.fld F.DMA_CH_POS_OM.M 0 63 = 1) = true) ∧
    (let s := ((up.setChState 63 cWAITPOOL).setf F.QSH_POOL_DMA 10 0).setChan 63
       { ChDyn.reset with desc := some ⟨0, 0, false, false, oCOPY, 0, 60, 1, 1, 0, 0x2000010000000000, 0, 0, 0, 0, 0⟩ }
     s.dmaRoom (s.eshPort 0) (cellsOf 64) = true ∧
     next? (.dmaPoolCellsAvailable 63) s (fun t => t.chState 63 = cRUNNING) = true) ∧
    (let d : Desc := ⟨0, 0, false, false, oCOPY, 0, 60, 1, 1, 0, 0x2000010000000000, 0, 0, 0, 0, 0⟩
     let s := (({ up with op := .operational }.setChState 63 cRUNNING).setf F.QSH_POOL_DMA 0 0).setChan 63
       { ChDyn.reset with desc := some d }
     s.nextChannel = some 63 ∧ d.toFrames = true ∧ d.col 0 = 0 ∧ s.dmaRoom (s.eshPort 0) (cellsOf 64) = false ∧
     next? .dmaBurst s (fun t => t.chState 63 = cWAITPOOL && t.fld F.QSH_DMA_POOL_WAIT 0 = 1) = true) := by decide +kernel

/-! NetworkClock -/

theorem witness_NetworkClock :
    (Safety.Admits up 4 ∧ up.time.step = none ∧ up.fld F.NTM_STEP_NS ≤ 999999999 ∧ up.joined = false ∧
      next? (.incrementWrite 1) up (fun t => t.time.inc = 2 ^ 32) = true ∧
      next? (.incrementWrite 2) up (fun t => t.fld F.REG_WI_STATUS.CAUSE = cVALUE) = true ∧
      next? (.slewStart 7) up (fun t => t.slewCount = 7) = true ∧
      next? (.stepGo 1) up (fun t => t.time.step = some ⟨1000, 1, 0, 0⟩) = true) ∧
    999999999 < (up.setf F.NTM_STEP_NS 1000000000).fld F.NTM_STEP_NS ∧
    (next? (.networkTimeStep []) (up.modTime (fun x => { x with step := some ⟨1000, 1, 7, 9⟩ })) (fun t => t.ns = 7000000009) = true) ∧
    (let s := (up.setf F.NTM_CTL.PPS_OUT_EN 1).setf F.NTM_CTL.PPS_IN_EN 1
     s.on F.NTM_CTL.PPS_OUT_EN = true ∧ s.phase = .running ∧ s.ppsNext < 2 ^ 48 * 1000000000 ∧ next? .ppsOutEdge s (fun t => t.ns = 1000000000) = true ∧
     next? .ppsOutFall (s.modTime (fun x => { x with ppsFall := some 5 })) (fun t => t.lt = 5) = true ∧
     s.on F.NTM_CTL.PPS_IN_EN = true ∧ next? (.ppsInEdge 50) s (fun t => t.fld F.NTM_PPS_IN_EDGES = 1) = true) := by decide +kernel

/-! PtpTraffic -/

/-- A template of the time island, in the 802.3 transport: a Sync of 44 octets with its padding. -/
def ptpFrame (ty seq : Nat) : List Byte :=
  beOctets 6 0x011B19000000 ++ beOctets 6 2 ++ beOctets 2 0x88F7 ++ beOctets 1 ty ++ [2] ++ beOctets 2 44 ++
    List.replicate 26 0 ++ beOctets 2 seq ++ List.replicate 12 0

/-- Port 0 is linked, PTP runs on it, and its template is `ptpFrame 0 0` with two octets of padding. -/
def ptpUp : State :=
  let l := ptpFrame 0 0 ++ List.replicate 4 0
  ((List.range 15).foldl (fun t i => t.setTab (tTime + 1 + i) (leNum (slice l (4 * i) 4))) ((((linked up 0).setf
    F.NTM_CTL.ENABLE 1).setf F.TSU_CTL.PDELAY_EN 1 0).setf F.TSU_CTL.PTP_ROLE 1 0)).setTab tTime (0x10000 + 60)

theorem witness_PtpTraffic :
    (ptpUp.ptpAt 0 (ptpFrame 0 0 ++ [0, 0]) = some 14 ∧
      (ptpUp.macRx 0 (ptpFrame 0 0 ++ [0, 0]) true ptpUp.rxControl).1 = true ∧ ptpUp.on F.NTM_CTL.ENABLE = true ∧
      ptpDomainAt (ptpFrame 0 0) 14 = ptpUp.ptpDomain ∧ ptpUp.slavePort 0 = false ∧
      next? (.ptpMessageRx 0 (ptpFrame 0 0 ++ [0, 0])) ptpUp (fun t => t.fld F.NTM_RX_HEAD = 1) = true ∧
      next? (.ptpMessageRx 0 (ptpFrame 0 0 ++ [0, 0])) (ptpUp.setf F.NTM_RX_TAIL 1) (fun t => t.fld F.NTM_RX_DROP = 1) = true ∧
      (ptpUp.setf F.NTM_CTL.ENABLE 0).on F.NTM_CTL.ENABLE = false) ∧
    (let s := ptpUp.setf F.NTM_CTL.ROLE 1
     s.slavePort 0 = true ∧ ptpType (ptpFrame 0 0) 14 = 0 ∧ ptpTwoStep (ptpFrame 0 0) 14 = false ∧
     next? (.syncRx 0 (ptpFrame 0 0 ++ [0, 0])) s (fun t => t.time.offsets.length = 1) = true) ∧
    (ptpType (ptpFrame 2 0) 14 = 2 ∧ ptpUp.on F.TSU_CTL.PDELAY_EN 0 = true ∧
      next? (.pdelayReqRx 0 (ptpFrame 2 0 ++ List.replicate 12 0)) ptpUp
        (fun t => t.port 0 |>.ctrl |>.any (fun c => c.origin = .control kPDRESP)) = true) ∧
    (let s := ptpUp.modTsu 0 (fun x => { x with pdOpen := some ⟨7, 9, some 1, some 2, some 5, 0, 0⟩ })
     ptpSeq (ptpFrame 10 7) 14 = 7 ∧
     next? (.pdelayRespRx 0 (ptpFrame 10 7 ++ List.replicate 12 0)) s (fun t => t.fld F.TSU_STATUS.DELAY_VALID 0 = 1) = true ∧
     next? (.pdelayTimeout 0) s (fun t => t.lt = 9) = true) ∧
    (ptpUp.controlMay = true ∧ ptpUp.template 0 = some (ptpFrame 0 0 ++ [0, 0]) ∧ (ptpUp.port 0).ctrl = [] ∧
      ptpUp.overlong 0 (ptpFrame 0 0 ++ [0, 0]) = false ∧ (ptpUp.controlFrame 0 kSYNC (ptpFrame 0 0 ++ [0, 0])).isSome = true ∧
      next? (.syncTx 0) ptpUp (fun t => (t.port 0).ctrl.length = 1) = true ∧
      (ptpUp.pdelayFrame 0 2 false 0 1 (List.replicate 20 0)).isSome = true ∧
      next? (.pdelayReqTx 0) ptpUp (fun t => (t.port 0).tsu.pdSeq = 1) = true) ∧
    (let s := ((ptpUp.setf F.NTM_CTL.ROLE 1).setf F.NTM_STATUS.SYNCED 1).modTime (fun x => { x with lastSync := some 0 })
     s.phase = .running ∧ s.fld F.NTM_CTL.ROLE ≠ 2 ∧ next? .syncTimeout s (fun t => t.fld F.NTM_STATUS.SYNC_TIMEOUT = 1) = true) ∧
    (let s := up.setf F.TSU_STATUS.DELAY_VALID 1 63
     s.on F.TSU_STATUS.STALE 63 = false ∧ next? (.delayStale 63) s (fun t => t.fld F.TSU_STATUS.STALE 63 = 1) = true) := by decide +kernel

/-! ProbesAndCalibration -/

/-- The port probes: its partner is valid and probes, PROBE_EN and ENABLE are 1. -/
def probing (s : State) (p : Nat) : State :=
  (((s.setf F.TSU_CTL.PROBE_EN 1 p).setf F.NTM_CTL.ENABLE 1).setf F.PRT_PARTNER.VALID 1 p).setf F.PRT_PARTNER.PROBE 1 p

theorem witness_ProbesAndCalibration :
    (let s := probing (linked up 0) 0
     s.probesAllowed 0 = true ∧ s.controlMay = true ∧ (s.island 0).ctrlUsed < 512 ∧ 64 ≤ s.fld F.PRT_MAXLEN.MAXLEN 0 ∧
     next? (.probeTx 0 5) s (fun t => (t.port 0).tsu.prSeq = 1 && (t.port 0).ctrl.length = 1) = true) ∧
    (let s := probing (linked up 0) 0
     let l := s.probeFrame 0 false
     s.isProbeFrame 0 l = true ∧ (s.macRx 0 l true s.rxControl).1 = true ∧ (s.port 0).tsu.prLastRx = none ∧
     next? (.probeRx 0 l 7) s (fun t => (t.port 0).tsu.prGot.length = 1) = true ∧
     next? (.probeRx 0 l 7) (s.modTsu 0 (fun x => { x with prLastRx := some 0 })) (fun t => t.fld F.PROBE_REJECT 0 = 1) = true) ∧
    (let s := executing (probing up 5) 0xA0 [5]
     Safety.Executes s 0xA0 ⟨0, [0xA0, 5], false⟩ ∧ s.probesAllowed 5 = true ∧ s.probesAllowed 6 = false ∧
     next? .calStart s (fun t => t.host.cur.isNone) = true) ∧
    Safety.Executes (executing up 0xA1 [5]) 0xA1 ⟨0, [0xA1, 5], false⟩ := by decide +kernel

/-! PairLevels -/

/-- The pair is enabled with its region at offset 0 of the mirror port, which is MAPPED. -/
def paired (s : State) : State :=
  (((s.setf F.CXM_PORT_STATUS.STATE pMAPPED 0 3).setf F.CXM_PORT_STATUS.MHD 1 0 3).setCxl 3 ⟨268435456, [], [], [], none, none, none⟩).pairEnable 0

theorem witness_PairLevels :
    ((upIn .recovery).pair.hung = false ∧ (upIn .recovery).aliveOk = true ∧ up.aliveOk = false ∧ up.pair.hung = false ∧
      next? .aliveToggle (upIn .recovery) (fun t => t.pair.alive && t.lt = 500 * ltNs) = true ∧
      next? .aliveStopIdle (upIn .recovery) (fun t => t.pair.hung) = true) ∧
    (let s := paired (upIn .recovery)
     s.pairOn = true ∧ s.op = .recovery ∧ s.pair.takeover = none ∧ s.pwr.warmRun = none ∧ s.pwr.setAfter = none ∧ s.resetAhead = false ∧
     s.cxlOk s.ckptPort s.claimAddr 4 = true ∧ next? .roleActiveRise s (fun t => t.claim = some (2 ^ 31)) = true ∧
     next? .roleActiveFall (s.modPair (fun p => { p with takeover := some ⟨0, 0, [], false⟩ }))
       (fun t => t.fld F.PAIR_STATUS.LAST_OUTCOME = 4) = true) ∧
    (up.pairOn = false ∧ up.pwr.setAfter = none ∧
      ({ up with pending := [.fltForce 5] } : State).resetAhead = false ∧ next? (.roleActiveRise 99) up (fun t => t = up) = true ∧ next? .roleActiveRise up (fun t => t.pair.roleLevel) = true) ∧
    (let s := paired (upIn .operational)
     s.pairOn = true ∧ s.pair.hung = false ∧ s.pwr.setAfter = none ∧ s.claim = some 0 ∧ s.regionUp = true ∧
     next? .roleActiveFall s (fun t => t.op = .recovery && t.pair.writing.isSome) = true) ∧
    (let s := executing (((up.setf F.CXM_PORT_STATUS.STATE pMAPPED 0 3).setf F.CXM_PORT_STATUS.MHD 1 0 3).setCxl 3 ⟨268435456, [], [], [], none, none, none⟩)
       0x50 [1, 0]
     Safety.Executes s 0x50 ⟨0, [0x50, 1, 0], false⟩ ∧ s.ckptBad 0 = false ∧ s.ckptBad 65536 = true ∧ s.pair.roleLevel = false ∧
     next? .checkpointConfig s (fun t => t.pairOn && t.ckptOwns 63) = true) ∧
    (Safety.Executes (executing up 0x50 [0]) 0x50 ⟨0, [0x50, 0], false⟩ ∧
      next? .checkpointConfig (executing (paired up) 0x50 [0]) (fun t => !t.pairOn) = true) := by decide +kernel

/-! CheckpointsAndTakeover -/

/-- A body's CRC, written over a header that is otherwise zero, makes the body good. -/
theorem bodyOk_written (s : State) (v : Nat) (hp : s.ckptPort = 3) (hb : s.slotAddr 0 = 0) (hc : s.cxlPort 3 = ⟨268435456, [], [], [], none, none, none⟩)
    (hok : s.cxlOk 3 0 slotSize = true) (hv : v < 2 ^ 32) (he : v = crc32 (cellsRead [] 0x100 (slotSize - 0x100))) :
    (s.cxlWrite 3 32 (leBytes 4 v)).bodyOk 0 = true := by
  have hport : (s.cxlWrite 3 32 (leBytes 4 v)).cxlPort 3 = ⟨268435456, [], [], cellsWrite [] 32 (leBytes 4 v), none, none, some s.lt⟩ := by
    simp only [State.cxlWrite, hc]
    simp [State.setCxl, State.cxlPort]
  have hp' : (s.cxlWrite 3 32 (leBytes 4 v)).ckptPort = 3 := hp
  have hb' : (s.cxlWrite 3 32 (leBytes 4 v)).slotAddr 0 = 0 := hb
  have hok' : (s.cxlWrite 3 32 (leBytes 4 v)).cxlOk 3 0 slotSize = true := by
    simp only [State.cxlOk, hport, hc] at hok ⊢; exact hok
  have h1 : cellsRead (cellsWrite [] 32 (leBytes 4 v)) 32 4 = leBytes 4 v := Laws.cellsRead_cellsWrite [] 32 (leBytes 4 v)
  have h2 : cellsRead (cellsWrite [] 32 (leBytes 4 v)) 0x100 (slotSize - 0x100) = cellsRead [] 0x100 (slotSize - 0x100) :=
    Laws.cellsRead_congr _ _ _ _ (fun i _ _ => Laws.cellRead_cellsWrite_out [] 32 _ _ (by simp; omega))
  have hq : (s.cxlWrite 3 32 (leBytes 4 v)).cxlPoisoned 3 0 slotSize = false := by
    simp [State.cxlPoisoned, State.badUnits, hport, List.eraseDups]
  simp only [State.bodyOk, State.slotBody, State.cxlRead, hq, hp', hb', hok', hport, Nat.zero_add, h1, h2,
    Laws.leNum_leBytes, Bool.not_false, Bool.true_and, decide_eq_true_eq]
  omega

theorem witness_TakeoverBody :
    ∃ s : State, s.pair.takeover = some ⟨0, 0, [0], true⟩ ∧ s.pair.hung = false ∧ s.pair.roleLevel = true ∧ s.lt ≤ 14 * ltUs ∧ s.bodyOk 0 = true :=
  ⟨((paired (upIn .recovery)).modPair (fun p => { p with takeover := some ⟨0, 0, [0], true⟩, roleLevel := true })).cxlWrite 3 32
      (leBytes 4 (crc32 (cellsRead [] 0x100 (slotSize - 0x100)))), rfl, rfl, rfl, by decide +kernel,
    bodyOk_written _ _ (by decide +kernel) (by decide +kernel) (by decide +kernel) (by decide +kernel)
      (Laws.crc32_lt _) rfl⟩

theorem witness_CheckpointsAndTakeover :
    (let s := paired (upIn .operational)
     Safety.sources s = true ∧ s.pairOn = true ∧ s.op = .operational ∧ s.phase = .running ∧ s.pair.writing = none ∧ s.claim = some 0 ∧ s.regionUp = true ∧
     s.s3MustWait = false ∧ (s.cxlWrite 3 s.claimAddr [1, 0, 0, 0x80]).claim = some (2 ^ 31 + 1) ∧
     next? .checkpointCapture s (fun t => t.pair.writing.isSome && t.ns = 125000) = true ∧
     next? .checkpointCapture (s.cxlWrite 3 s.claimAddr [1, 0, 0, 0x80]) (fun t => t.op = .safe) = true) ∧
    (let w : CkptWrite := ⟨0, false, 0, []⟩
     let s := (paired (upIn .operational)).modPair (fun p => { p with writing := some w })
     s.mayWrite w = true ∧ s.regionUp = true ∧ next? .checkpointCapture s (fun t => t.fld F.CKPT_SKIPPED = 1) = true ∧
     next? (.checkpointWriteDone false) s (fun t => t.fld F.CKPT_WRITE_FAIL = 1) = true) ∧
    (let s := (paired (upIn .recovery)).modPair (fun p => { p with takeover := some ⟨0, 0, [], false⟩, roleLevel := true })
     next? .takeoverBodyLoaded (s.modPair (fun p => { p with roleLevel := false })) (fun t => t.pair.takeover.isNone) = true ∧
     s.pair.hung = false ∧ s.pair.roleLevel = true ∧ next? .takeoverHeadersRead s (fun t => t.pair.takeover = some ⟨0, 0, [], false⟩) = true ∧ Safety.sources s = true ∧
     next? .takeoverTimeout s (fun t => t.op = .operational && t.fld F.PAIR_STATUS.LAST_OUTCOME = 2) = true) ∧
    (let s := (upIn .operational).modPair (fun p => { p with placing := true })
     s.pair.placing = true ∧ (s.commitCheck s.operBank s.ns).1 = none ∧
     ((s.setTab (sumTab 0 0) 0x80000000).commitCheck 0 0).1.isSome = true ∧
     next? .takeoverPlacementDone s (fun t => !t.pair.placing) = true) := by decide +kernel

/-! RingMembership -/

/-- Two ring ports up, the ring enabled and the node joined, in ring state `st`, with ring time. -/
def ringed (st : Nat) : State :=
  (((((linked (linked (upIn .operational) 0) 1).setf F.CON_CTL.ENABLE 1).setf F.CON_STATE.JOINED 1).setf F.CON_STATE.STATE
    st).setf F.CON_NODE.SYNC 1).modCon (fun c => { c with hasTime := true })

/-- A sync frame of node `n` with flags, precedence and HOPS, received with ring ID 0. -/
def syncFrom (n fl pr hops : Nat) : List Byte :=
  beOctets 6 0x9B3C51C00001 ++ beOctets 6 (0x9A3C51CC0000 + n) ++ beOctets 2 0x88B5 ++ [1, 1, 0] ++ beOctets 1 n ++ beOctets 2 7 ++
    beOctets 1 fl ++ beOctets 1 pr ++ beOctets 1 hops ++ List.replicate 55 0

theorem witness_RingMembership :
    (let c : Cmd := ⟨0, [0x40], false⟩
     let s := executing (ringed 4) 0x40 []
     let f := (s.setf F.CON_STATE.JOINED 0)
     let g := (f.setf F.PRT_MAXLEN.MAXLEN 9000 0).setf F.PRT_MAXLEN.MAXLEN 9000 1
     Safety.Executes s 0x40 c ∧ s.joined = true ∧ Safety.Executes f 0x40 c ∧ f.joined = false ∧ f.on F.CON_CTL.ENABLE = true ∧
     f.ringPortsBad = true ∧ Safety.Executes g 0x40 c ∧ g.ringPortsBad = false ∧
     next? .ringJoin s (fun t => t.fld F.HIF_MB_RESP % 256 = xWRONGSTATE) = true ∧
     next? .ringJoin f (fun t => t.fld F.HIF_MB_RESP % 256 = xBADARG) = true) ∧
    (let c : Cmd := ⟨0, [0x41], false⟩
     let s := executing (ringed 4) 0x41 []
     let f := s.setf F.CON_STATE.JOINED 0
     Safety.Executes s 0x41 c ∧ s.joined = true ∧ Safety.Executes f 0x41 c ∧ f.joined = false ∧
     next? .ringLeave s (fun t => t.con.leaving) = true) := by decide +kernel

theorem witness_RingMembershipFrames :
    (let s := ((ringed 4).modCon (fun c => { c with leaving := true })).modHost (fun h => { h with parked := [⟨0, [0x41], false⟩] })
     s.con.leaving = true ∧ Safety.sources s = true ∧ s.host.parked.Pairwise (fun c d => c.src ≠ d.src) ∧
     (ringed 4).con.leaving = false ∧ next? .ringLeaveDone s (fun t => !t.joined) = true) ∧
    (let s := ringed 4
     let k := s.slotCycle
     s.sendsSync k = true ∧ (ringed 5).sendsSync (ringed 5).slotCycle = false ∧ s.portE < s.nPorts ∧ s.controlMay = true ∧
     s.con.slotDone ≠ some k ∧ s.portHeld s.portE = false ∧ s.overlong s.portE (s.syncFrame k) = false ∧
     s.on F.PRT_STATUS.LINK_UP s.portE = true ∧ (s.controlFrame s.portE kCONCORD (s.syncFrame k)).isSome = true ∧
     next? .syncFrameTx s (fun t => (t.port 1).due.length = 1) = true) ∧
    (let s := { ringed 4 with pwr := { (ringed 4).pwr with blockRun := some ⟨5, 0, 0⟩ } }
     s.on F.CON_CTL.ENABLE = true ∧ s.op.service = true ∧ s.ringHeld = true) ∧
    (let s := { ringed 4 with op := .safe }
     s.op.service = false ∧ s.ringIn false < s.nPorts ∧ frameLen (syncFrom 3 1 3 0) ≤ s.fld F.PRT_MAXLEN.MAXLEN (s.ringIn false) ∧
     s.on F.PRT_CTL.ENABLE (s.ringIn false) = true ∧
     next? (.syncFrameRx false (syncFrom 3 1 3 0)) s (fun t => t.fld F.RX_STATE_DISCARD (s.ringIn false) = 1) = true) ∧
    (let s := (ringed 4).modCon (fun c => { c with rt := 120000 * ringUnit })
     (s.con.cycle * s.ringCycle + 114000 : Nat) * ringUnit < s.ringNow ∧ s.ringNow < ((s.con.cycle + 1) * s.ringCycle : Nat) * ringUnit ∧
     next? (.syncFrameRx false (syncFrom 3 1 3 0)) s (fun t => t.fld F.SYNC_LATE = 1) = true) ∧
    (let s := ringed 4
     let l := syncFrom 3 1 3 0
     let d := s.setf F.TSU_STATUS.DELAY_VALID 1 0
     let h := ((d.macRx 0 l true d.rxControl).2).heardOn false
     let r := h.syncRec 0 l
     let e := d.modCon (fun c => { c with rt := ((1200 * 65536 - (r.arrival - r.correction - r.delay)) * 65536) })
     next? (.syncFrameRx false l) e (fun t => t.con.accepted.length = 1) = true) ∧
    (let s := ringed 2
     let u := (s.macRx 0 (syncFrom 3 1 3 0) true s.rxControl).2
     let h := u.heardOn false
     let d := (ringed 1).setf F.TSU_STATUS.DELAY_VALID 1 0
     s.conUp = true ∧ s.ringIn false = 0 ∧ (s.macRx 0 (syncFrom 3 1 3 0) true s.rxControl).1 = true ∧
     u.conForeign (syncFrom 3 1 3 0) = false ∧ u.conForeign (putAt (syncFrom 3 1 3 0) 14 [2]) = true ∧
     conSender (syncFrom 3 1 3 0) ≠ s.nodeId ∧ conSender (syncFrom 0 1 3 0) = s.nodeId ∧ conNonce (syncFrom 0 1 3 0) ≠ s.con.nonce ∧
     conNonce (putAt (syncFrom 0 1 3 0) 18 [0, 0]) = s.con.nonce ∧
     h.ringOut false = some (1, false) ∧ conHops (syncFrom 3 1 3 126) < 127 ∧ h.controlMay = true ∧ h.portHeld 1 = false ∧
     h.on F.PRT_STATUS.LINK_UP 1 = true ∧ (h.controlFrame 1 kCONCORD (syncFrom 3 1 3 0)).isSome = true ∧
     next? (.syncFrameRx false (putAt (syncFrom 3 1 3 0) 14 [2])) s (fun t => t.fld F.SYNC_FOREIGN = 1) = true ∧
     next? (.syncFrameRx false (syncFrom 0 1 3 0)) s (fun t => t.con.dupHold) = true ∧
     next? (.syncFrameRx false (syncFrom 3 3 9 0)) s (fun t => t.fld F.CS_IGNORED = 1) = true ∧
     next? (.syncFrameRx false (syncFrom 3 3 3 0)) (s.setf F.CON_NODE.NODE_ID 11) (fun t => t.fld F.CS_YIELD = 1) = true ∧
     next? (.syncFrameRx false (syncFrom 3 5 3 0)) s (fun t => t.con.answered) = true ∧
     next? (.syncFrameRx false (syncFrom 3 1 3 0)) d (fun t => t.con.collected.length = 1) = true ∧
     next? (.syncFrameRx false (syncFrom 3 1 3 0)) (s.modCon (fun c => { c with seen := [3 * 2 ^ 32] })) (fun t =>
       t.con.seen.length = 1) = true) := by decide +kernel

theorem witness_RingMembershipStart :
    (let s := ((ringed 1).setf F.CON_NODE.COLDSTART_EN 1)
     s.conUp = true ∧ s.syncNode = true ∧ s.con.dupHold = false ∧
     s.con.cycle < s.con.listenFrom + s.fld F.CON_SYNC.LISTEN + s.con.backoff ∧
     next? .coldstartEntry (s.modCon (fun c => { c with cycle := 8 })) (fun t => t.ringState = 2) = true ∧
     next? .coldstartEntry (s.modCon (fun c => { c with cycle := 7 })) (fun t => t.ringState = 1) = true) ∧
    (let s := ringed 2
     s.con.answered = false ∧ next? .coldstartFail s (fun t => t.fld F.CS_FAILED = 1) = true ∧
     (s.modCon (fun c => { c with answered := true })).con.answered = true) ∧
    (let s := (ringed 1).modCon (fun c => { c with collectEnd := some 7, collected := [⟨3, 1, 3, 0, 0, 0, 0, 0, 5⟩] })
     s.con.collectEnd = some 7 ∧ next? .syncCollectionEnd s (fun t => t.ringState = 3) = true) ∧
    (let s := (ringed 4).modCon (fun c => { c with silence := 8 })
     s.ringState = rACTIVE ∧ next? .syncSilenceTimeout s (fun t => t.ringState = 1) = true ∧ (ringed 4).con.silence < 8) := by decide +kernel

/-! RingTime -/

/-- A beacon of node 3 with ring ID 0. -/
def beaconFrom3 : List Byte :=
  beOctets 6 0x9B3C51C00003 ++ beOctets 6 0x9A3C51CC0003 ++ beOctets 2 0x88B5 ++ [1, 3, 0, 3] ++ List.replicate 42 0

theorem witness_RingTime :
    (let s := (ringed 4).setf F.CON_STATE.MANAGER 1
     s.phase = .running ∧ s.joined = true ∧ s.con.hasTime = true ∧ s.isManager = true ∧ s.on F.NTM_STATUS.SYNCED = false ∧
     next? .ringCycleStart s (fun t => t.con.cycle = 1 && t.fld F.CON_STATE.STEER_HOLD = 1) = true ∧
     next? .ringCycleStart (s.setf F.NTM_STATUS.SYNCED 1) (fun t => t.con.steerPub = 0) = true ∧
     next? .ringCycleStart ((ringed 2).modCon (fun c => { c with answered := true })) (fun t => t.ringState = 4) = true ∧
     (s.setf F.CON_STATE.JOINED 0).joined = false) ∧
    (let s := (ringed 4).setf F.CON_STATE.W_DOWN 1
     s.conUp = true ∧ s.con.trainSeen = false ∧ s.con.yielding = false ∧
     next? .ringRoundStart (s.modCon (fun c => { c with quietW := 3 })) (fun t =>
       t.con.round = 1 && t.fld F.TRAIN_MISSED = 1 && t.on F.CON_STATE.WRAP_W) = true ∧
     next? .ringRoundStart ((ringed 4).modCon (fun c => { c with quietE := 2 })) (fun t => t.on F.CON_STATE.WRAP_E) = true ∧
     next? .ringRoundStart (s.modCon (fun c => { c with yielding := true })) (fun t => !t.isManager) = true) ∧
    (let s := ringed 4
     let far := s.modCon (fun c => { c with cycle := 1, accepted := [⟨3, 1, 3, 0, 0, 0, 0, 99999999, 0⟩] })
     let run := far.setf F.CON_STATE.LIMIT_RUN 1
     let int := (ringed 3).modCon (fun c => { c with inLimit := 1, accepted := [⟨3, 1, 3, 0, 0, 0, 0, 655360, 0⟩] })
     s.con.closed = false ∧ s.con.hasTime = true ∧ s.ringState = rACTIVE ∧
     next? .syncMeasurementClose s (fun t => t.fld F.CON_ACCEPT.USED = 1) = true ∧
     next? .syncMeasurementClose far (fun t => t.fld F.CON_STATE.LIMIT_RUN = 1) = true ∧
     next? .syncMeasurementClose run (fun t => t.ringState = 5) = true ∧
     int.ringState = rINTEGRATING ∧ int.con.adopted ≠ some int.con.cycle ∧
     next? .syncMeasurementClose int (fun t => t.con.activeNext && t.con.inLimit = 2) = true ∧
     next? .syncMeasurementClose (ringed 3) (fun t => t.ringState = 1) = true) := by decide +kernel

theorem witness_RingTimePorts :
    (let s := ringed 4
     s.portW = 0 ∧ s.portE = 1 ∧ s.portHeld 0 = false ∧ s.portHeld 1 = false ∧ 1 < s.nPorts ∧ s.con.beaconSent = false ∧ 64 ≤ s.fld F.PRT_MAXLEN.MAXLEN 0 ∧
     64 ≤ s.fld F.PRT_MAXLEN.MAXLEN 1 ∧ s.controlMay = true ∧ s.on F.QSH_CTL.ENABLE 0 = true ∧ s.on F.QSH_CTL.ENABLE 1 = true ∧
     s.on F.PRT_STATUS.LINK_UP 0 = true ∧ s.on F.PRT_STATUS.LINK_UP 1 = true ∧ (s.island 0).ctrlUsed + 2 ≤ 512 ∧
     next? .beaconTx s (fun t => (t.port 0).ctrl.length = 1 && (t.port 1).ctrl.length = 1) = true) ∧
    (let s := (ringed 4).setf F.CON_STATE.W_DOWN 1
     (s.macRx 0 beaconFrom3 true s.rxControl).1 = true ∧ (s.macRx 0 beaconFrom3 true s.rxControl).2.conForeign beaconFrom3 = false ∧
     next? (.beaconRx false beaconFrom3) s (fun t => !t.on F.CON_STATE.W_DOWN) = true ∧
     next? (.beaconRx false (putAt beaconFrom3 16 [9])) s (fun t => t.fld F.SYNC_FOREIGN = 1) = true) ∧
    (let s := (ringed 4).modCon (fun c => { c with quietE := 3, upW := 3 })
     s.conUp = true ∧ s.on F.CON_STATE.E_DOWN = false ∧ s.on F.PRT_STATUS.LINK_UP 0 = true ∧ s.con.quietW < 3 ∧ s.con.upE < 3 ∧
     next? (.ringPortDown true) s (fun t => t.fld F.WRAP_EVENTS = 1) = true ∧
     next? (.ringPortDown true) (s.setf F.CON_STATE.E_DOWN 1) (fun t => t.fld F.WRAP_EVENTS = 0) = true ∧
     next? (.ringPortDown false) (s.setf F.PRT_STATUS.LINK_UP 0 0) (fun t => t.on F.CON_STATE.W_DOWN) = true ∧
     next? (.ringWrapEnd false) (s.setf F.CON_STATE.WRAP_W 1) (fun t => !t.on F.CON_STATE.WRAP_W) = true) := by decide +kernel

/-! TrainAndRemote -/

/-- A train frame of manager 5 at rank `r` with FLAGS `fl`: one short frame, of index 0. -/
def trainFrom5 (r fl : Nat) : List Byte :=
  beOctets 6 0x9B3C51C00002 ++ beOctets 6 0x9A3C51CC0005 ++ beOctets 2 0x88B5 ++ [1, 2, 0, 5, 0, 0] ++ beOctets 1 fl ++
    [0, 0, 0, 0, 0, 0] ++ beOctets 1 r ++ List.replicate 34 0

theorem witness_TrainAndRemote :
    (let s := upIn .operational
     Safety.AdmitsTab s ∧ s.bst.tested = [] ∧ cxBus (s.ctx 1) = false ∧ cxRate (s.ctx 1) ≠ 1 ∧ s.conCol = none ∧
     (let b := s.setTab (ctxTab 1) 0xFFFFFFFF
      cxBus (b.ctx 1) = true ∧
      next? (.contributionEntryWrite 8 0x80000001) b (fun t => t.fld F.REG_WI_STATUS.CAUSE = cRULE) = true) ∧
     (let c := { s with conCol := some ⟨contribTab 1, [(contribTab 1, 0x80000001)]⟩ }
      next? (.contributionEntryWrite 12 0x100000) c (fun t => t.allocated 1 && t.tab (contribTab 1) = 0x80000001) = true ∧
      islandOf xCTX 1 < s.nIslands)) ∧
    (let s := ((ringed 4).setTab (contribTab 1) 0x80000001).setTab (contribTab 1 + 1) 0x100000
     s.contributed = [1] ∧ s.takeEntries.con.entries = [(1, 1, 0x100000)] ∧ s.ringState = rACTIVE ∧
     next? .contributionCutoff s.takeEntries (fun t => SMap.look t.con.contrib 1 = some [0, 0, 0, 0, 0, 0]) = true) := by decide +kernel

theorem witness_TrainAndRemoteFrames :
    (let s := (((ringed 4).setf F.CON_STATE.MANAGER 1).setf F.CON_BUS.CH64 1).modCon (fun c => { c with body := [0] })
     s.launches = true ∧ s.con.launchTime = none ∧ s.con.body ≠ [] ∧ s.controlMay = true ∧ s.launchPort = 1 ∧ s.portHeld 1 = false ∧
     s.on F.PRT_STATUS.LINK_UP 1 = true ∧ s.trainCount = 1 ∧
     (s.island 0).ctrlUsed + cellsOf ((padded (s.addTrain (s.trainFrame 0))).length + 4) ≤ 512 ∧
     s.overlong 1 ((s.runToRingNs 25600).addTrain ((s.runToRingNs 25600).trainFrame 0)) = false ∧
     next? .trainLaunch s (fun t => (t.port 1).due.length = 1) = true ∧
     (let u := s.modCon (fun c => { c with launchTime := some 0 })
      u.con.launchTime.isSome = true ∧ next? .trainWindowEnd u (fun t => u.lt < t.lt) = true)) ∧
    (let s := { (ringed 4).modCon (fun c => { c with rt := 30000 * ringUnit }) with lt := 10000000 }
     let s := (s.setf F.PRT_MAXLEN.MAXLEN 8226 0).setf F.PRT_MAXLEN.MAXLEN 8226 1
     let h := s.heardOn false
     let m := (s.setf F.CON_STATE.MANAGER 1).setf F.CON_MGR.RANK 3
     let own := m.setf F.CON_NODE.NODE_ID 5
     let l := trainFrom5 4 0
     s.conUp = true ∧ s.conForeign l = false ∧ s.conForeign (putAt l 14 [2]) = true ∧ s.isManager = false ∧ conSender l ≠ s.nodeId ∧
     h.ringOut false = some (1, false) ∧ h.trainLate (h.passAt 1 l) = false ∧ h.sendingAt 1 (h.passAt 1 l) = false ∧
     s.lineMay 1 = true ∧ s.joined = true ∧ s.con.steerTaken = false ∧ trIndex l = 0 ∧ trPass l = false ∧ trRead l = false ∧
     m.isManager = true ∧ lowerMgr (oct l 27, conSender l) (m.fld F.CON_MGR.RANK, m.nodeId) = false ∧
     lowerMgr (oct (trainFrom5 2 0) 27, 5) (m.fld F.CON_MGR.RANK, m.nodeId) = true ∧
     next? (.trainFrameRx false (trainFrom5 2 0) true false false) m (fun t => t.con.yielding) = true ∧
     next? (.trainFrameRx false l true false false) m (fun t => t.fld F.TRAIN_FOREIGN = 1) = true ∧
     s.ringIn false < s.nPorts ∧ s.on F.PRT_CTL.ENABLE (s.ringIn false) = true ∧
     s.con.resumeAt + frameLen l * s.octetLt (s.ringIn false) ≤ s.lt ∧ 64 ≤ frameLen l ∧ s.portHeld 1 = false ∧
     8226 ≤ s.fld F.PRT_MAXLEN.MAXLEN 1 ∧ l.length ≤ 8222 ∧
     next? (.trainFrameRx false l true false false) (s.setf F.PRT_MAXLEN.MAXLEN 65 0) (fun t => t.fld F.RX_OVERSIZE 0 = 1) = true ∧
     next? (.trainFrameRx false (trainFrom5 4 1) true false false) (s.setf F.PRT_MAXLEN.MAXLEN 65 1) (fun t =>
       t.fld F.TX_OVERSIZE_DROP 1 = 1) = true ∧
     next? (.trainFrameRx false (trainFrom5 4 2) true false false) (s.modCon (fun c => { c with readOff := true })) (fun t =>
       t.con.doneRead = [0]) = true ∧
     conSender l = own.nodeId ∧ trRead (trainFrom5 3 2) = true ∧ trIndex l + 1 = trCount l ∧
     next? (.trainFrameRx false (trainFrom5 3 2) true false false) (own.modCon (fun c => { c with round := 1 })) (fun t =>
       t.fld F.TRAIN_OVERRUN = 1) = true ∧
     next? (.trainFrameRx false l true false false) (s.setf F.PRT_CTL.ENABLE 0 0) (fun t =>
       t.fld F.RX_DISABLED_DROP = 1) = true ∧
     next? (.trainFrameRx false (trainFrom5 3 2) true false false) own (fun t => t.con.back1 = [0]) = true) ∧
    (let s := { (ringed 4).modCon (fun c => { c with rt := 30000 * ringUnit }) with lt := 10000000 }
     let s := (s.setf F.PRT_MAXLEN.MAXLEN 8226 0).setf F.PRT_MAXLEN.MAXLEN 8226 1
     let l := trainFrom5 4 0
     next? (.trainFrameRx false l true false true) s (fun t => t.fld F.TRAIN_COLLIDE = 1) = true ∧
     next? (.trainFrameRx false l true false false) (s.modCon (fun c => { c with rt := 124500 * ringUnit })) (fun t =>
       t.fld F.TRAIN_LATE = 1) = true ∧
     next? (.trainFrameRx false l false false false) s (fun t => t.fld F.TRAIN_FCS_ERR = 1 &&
       (t.port 1).tx.any (fun x => x.badFcs)) = true ∧
     next? (.trainFrameRx false (trainFrom5 4 1) false true false) s (fun t => t.fld F.TRAIN_POISON_RX = 1) = true ∧
     next? (.trainFrameRx false l true false false) s (fun t => t.con.doneAdd = [0] && (t.port 1).tx.isSome) = true) := by decide +kernel

theorem witness_TrainAndRemoteManager :
    (let s := ((ringed 4).setf F.CON_MGR.RANK 0).modCon (fun c => { c with trainMissed := 4 })
     s.conUp = true ∧ s.joined = true ∧ s.isManager = false ∧ s.fld F.CON_MGR.RANK ≠ 0xFF ∧ s.ringState = rACTIVE ∧
     s.con.slots.length = 8 ∧ Safety.sources s = true ∧ next? .managerTakeover s (fun t => t.isManager) = true ∧
     next? .managerTakeover (s.modCon (fun c => { c with trainMissed := 3 })) (fun t => !t.isManager) = true) ∧
    (let c : Cmd := ⟨0, [0x42, 2, 1], false⟩
     let s := executing ((ringed 4).setf F.CON_STATE.MANAGER 1) 0x42 [2, 1]
     let b := (executing ((ringed 4).setf F.CON_STATE.MANAGER 1) 0x42 [2, 0x90]).setf F.CON_SECTION 0x84000000 0 8
     let u := s.setf F.CON_SECTION 0x84000000 0 8
     let f := u.modCon (fun c => { c with slots := List.replicate 8 ⟨1, 2, 1, [], 0⟩ })
     Safety.Executes s 0x42 c ∧ c.word 1 % 64 = 2 ∧ ¬ (c.word 2 % 65536 ∈ [0x42, 0x80, 0x90, 0x91]) ∧ s.isManager = true ∧
     s.sectionUp 2 = false ∧ u.sectionUp 2 = true ∧ f.con.slots.length = 8 ∧ (∀ x ∈ f.con.slots, x.state ≠ 0) ∧
     next? .ringRemote b (fun t => t.fld F.HIF_MB_RESP % 256 = xBADARG) = true ∧
     next? .ringRemote s (fun t => t.fld F.HIF_MB_RESP % 256 = xWRONGSTATE) = true ∧
     next? .ringRemote f (fun t => t.fld F.HIF_MB_RESP % 256 = xNORES) = true ∧
     next? .ringRemote u (fun t => t.con.slotSeq = 1 && t.host.parked.length = 1) = true) ∧
    (let c : Cmd := ⟨0, [0x42, 2, 1], false⟩
     let s := ((ringed 4).modCon (fun c => { c with slots := [⟨3, 2, 1, [7], 0⟩], round := 16384 })).modHost (fun h =>
       { h with parked := [c] })
     s.slotCmd 0 = some c ∧ Safety.sources s = true ∧ next? (.ringRemoteDone 0) s (fun t => t.fld F.REMOTE_DONE = 1) = true ∧
     next? (.ringRemoteDone 0) (s.modCon (fun c => { c with slots := [⟨2, 2, 1, [7], 0⟩] })) (fun t =>
       t.fld F.REMOTE_FAILED = 1) = true ∧
     next? (.ringRemoteDone 0) (s.modCon (fun c => { c with slots := [⟨2, 2, 1, [7], 1⟩] })) (fun t =>
       t.host.parked.length = 1) = true) := by decide +kernel

/-! MixBanks -/

theorem witness_MixBanks :
    (let s := upIn .operational
     Safety.AdmitsTab s ∧ s.bst.tested = [] ∧ mixEntry 0x0400_0000 = some ⟨xSUM, 1, 0, sumTab 1 0, 8⟩ ∧
     s.mixAbsent ⟨xSUM, 1, 0, sumTab 1 0, 8⟩ = false ∧ s.mix.pending = none ∧ s.draining = false ∧ s.commitChecks = false ∧ s.operBank = 0 ∧
     (executing s 0x20 [0, 0, 0]).commitChecks = true ∧
     next? (.mixBankWrite 0x0400_0000 7) (executing s 0x20 [0, 0, 0]) (fun t => t.fld F.REG_WI_STATUS.CAUSE = cRULE) = true ∧
     next? (.mixBankWrite 0x0400_0000 7) s (fun t => t.tab (sumTab 1 0) = 7) = true ∧
     next? (.mixBankWrite 0x0400_0018 7) s (fun t => t.tab (sumTab 1 0 + 6) = 0) = true ∧
     next? (.mixBankWrite 0 7) s (fun t => t.fld F.REG_WI_STATUS.CAUSE = cRULE) = true ∧
     mixEntry 0x0880_0000 = some ⟨xCTX, 0, 0, ctxTab 0, 4⟩ ∧ mixEntry 0x0800_0004 = some ⟨xBIND, 0, 0, bindTab 0, 2⟩ ∧
     next? (.mixLiveEntryWrite 0x0800_0004 7) s (fun t => t.tab (bindTab 0 + 1) = 7) = true ∧
     next? (.mixLiveEntryWrite 0x0880_000C 7) s (fun t => t.tab (ctxTab 0 + 3) = 0) = true ∧
     next? (.mixLiveEntryWrite 0x0880_0000 7) s (fun t => t.mixCol = some ⟨ctxTab 0, [(ctxTab 0, 7)]⟩) = true ∧
     (let a := s.modMix (fun m => { m with ctxs := [(0, CtxDyn.reset)] })
      a.allocated 0 = true ∧ next? (.mixLiveEntryWrite 0x0880_0000 7) a (fun t => t.fld F.REG_WI_STATUS.CAUSE = cRULE) = true)) ∧
    (let u := { upIn .operational with fuses := { (upIn .operational).fuses with variant := .zt1280 } }
     u.mixAbsent ⟨xSUM, 1, 65535, sumTab 1 65535, 8⟩ = true) := by decide +kernel

theorem witness_MixBanksCommands :
    (let c : Cmd := ⟨0, [0x20, 0, 0, 0], false⟩
     let s := executing (upIn .operational) 0x20 [0, 0, 0]
     let p := s.modMix (fun m => { m with pending := some ⟨9, 1, ⟨[], []⟩, false⟩ })
     let r := s.modMix (fun m => { m with drainEnd := some 7 })
     Safety.Executes s 0x20 c ∧ c.word 1 % 2 = 0 ∧ s.mix.pending = none ∧ s.draining = false ∧ p.mix.pending.isSome = true ∧
     r.draining = true ∧ s.checkArgs 1 = none ∧ (s.setTab (sumTab 1 0) 0x80000000).checkArgs 1 ≠ none ∧
     next? .mixCommit p (fun t => t.fld F.HIF_MB_RESP % 256 = xWRONGSTATE) = true ∧
     next? .mixCommit r (fun t => t.fld F.HIF_MB_RESP % 256 = xBUSY) = true) ∧
    (let c : Cmd := ⟨0, [0x20, 1, 0, 0], false⟩
     let s := executing (upIn .operational) 0x20 [1, 0, 0]
     let p := s.modMix (fun m => { m with pending := some ⟨9, 1, ⟨[], []⟩, false⟩ })
     let l := s.modMix (fun m => { m with pending := some ⟨0, 1, ⟨[], []⟩, false⟩ })
     Safety.Executes s 0x20 c ∧ c.word 1 % 2 = 1 ∧
     next? .mixWithdraw s (fun t => t.fld F.HIF_MB_RESP % 256 = xWRONGSTATE) = true ∧
     next? .mixWithdraw p (fun t => t.mix.pending.isNone && t.fld F.HIF_MB_RESP % 256 = xOK) = true ∧
     next? .mixCommit l (fun t => t.fld F.HIF_MB_RESP % 256 = xLATE) = true) ∧
    (let s := executing (upIn .operational) 0x21 []
     Safety.Executes s 0x21 ⟨0, [0x21], false⟩ ∧ next? .mixStatus s (fun t => t.host.cur.isNone) = true) ∧
    (let s := (upIn .operational).modMix (fun m => { m with pending := some ⟨9, 1, ⟨[], []⟩, false⟩ })
     s.phase = .running ∧ next? .placementLoad s (fun t => t.mix.pending.any (fun x => x.loaded)) = true ∧
     next? .mixActivation s (fun t => t.operBank = 1 && t.mix.drainEnd = some 10000000) = true ∧
     next? .mixDrainEnd (s.modMix (fun m => { m with drainEnd := some 7, pending := none, ctxs := [(0, CtxDyn.reset)] }))
       (fun t => t.mix.drainEnd.isNone && !t.allocated 0) = true ∧
     (let r : Reserve := ⟨0, 3, 2, 5, 0, 125000, 0, some 7⟩
      next? (.mixPoolReturn 3) ((s.modMix (fun m => { m with reserved := [r] })).setIsland 2 { s.island 2 with mixUsed := 8 })
        (fun t => t.mix.reserved = [] && (t.island 2).mixUsed = 3) = true)) := by decide +kernel

/-! MixWindows -/

/-- An RTP packet of an L16 stream of one channel, in UDP over IPv4: timestamp `ts`, one sample 0x1234. -/
def rtpFrame (ts : Nat) : List Byte :=
  fixIpv4 (List.replicate 12 0 ++ [8, 0, 0x45, 0, 0, 42, 0, 0, 0, 0, 64, 17] ++ List.replicate 10 0 ++ [0, 0, 0, 0, 0, 22, 0, 0, 0x80, 96, 0, 0] ++
    beOctets 4 ts ++ [0, 0, 0, 0, 0x12, 0x34]) 14

/-- Binding 0 feeds the allocated context 0, which is L16 of one channel, and a frame waits for it. -/
def unpacking (octets : List Byte) : State :=
  let s := ((upIn .operational).setTab (bindTab 0) 0x80000000).setTab (ctxTab 0) 0x80010000
  let r := s.newFrame 0 octets .mix 0 0 ⟨none, none⟩ 0
  r.2.modMix (fun m => { m with ctxs := [(0, CtxDyn.reset)], unpack := [⟨r.1.id, 0, 1, 0, 0⟩] })

/-- Sum 0 is valid in the operative bank, with no term and a period of 125 us; its deadline port 0 has a Sentence of one
Clause, which carries DEADLINE. -/
def mixing : State :=
  ((((sentenced (linked (upIn .operational) 0) 0).setTab (clauseTab 0 0 0) 0x20FF).setTab (sumTab 0 0) 0x80000000).setf
    F.MIX_CTL.ENABLE 1).modMix (fun m => { m with activated := true })

theorem witness_MixWindows :
    (let s := unpacking (rtpFrame 0)
     let f := (s.frame 0).getD ⟨0, 0, [], .mix, 0, 0, 0, false, 0, none, 1, false, false, none, [], none⟩
     s.phase = .running ∧ s.mix.unpack = [⟨0, 0, 1, 0, 0⟩] ∧ s.engineHeld 0 = false ∧ s.frame 0 = some f ∧ s.bst.tested = [] ∧
     s.isBad (badMix xBIND) 0 = false ∧ bdValid (s.binding 0) = true ∧ bdVideo (s.binding 0) = false ∧
     bdTarget (s.binding 0) = 0 ∧ s.isBad (badMix xCTX) 0 = false ∧ cxBus (s.ctx 0) = false ∧
     bdChannel (s.binding 0) < cxChannels (s.ctx 0) ∧ SMap.look s.mix.ctxs 0 = some CtxDyn.reset ∧
     f.rtp = some ⟨false, 0, [0x12, 0x34]⟩ ∧ sampleOctets (cxFormat (s.ctx 0)) * cxChannels (s.ctx 0) = 2 ∧
     cxRing (s.ctx 0) = 64 ∧ mediaAt 0 0 = 0 ∧ extendIndex 0 (cxTsOffset (s.ctx 0)) 0 = 0 ∧
     next? (.unpackFrame []) s (fun t => t.sampleAt 0 0 = some 0x123400 && t.mix.unpack = []) = true ∧
     next? (.unpackFrame []) (unpacking (rtpFrame 65)) (fun t => t.fld F.ENG_TS_REJECT = 1) = true ∧
     next? (.unpackFrame []) (unpacking [1]) (fun t => t.fld F.ENG_TS_REJECT = 1) = true ∧
     next? (.unpackFrame []) (unpacking (putAt (rtpFrame 0) 45 [0x60])) (fun t => t.mix.unpack = []) = true ∧
     next? (.unpackFrame []) up (fun t => t.mix.unpack = []) = true) ∧
    (let s := up.modMix (fun m => { m with video := [⟨7, 3⟩] })
     s.phase = .running ∧ next? .videoPacketStore s (fun t => t.mix.video = []) = true ∧
     ((SMap.val s.mix.pictures 3 []).filter (fun p => p.complete)).length ≤ 2) := by decide +kernel

/-- A packet of one pgroup, of row 1, for a 4:2:2 video input, in RTP over UDP over IPv4: timestamp 9. -/
def videoPacket : List Byte :=
  fixIpv4 (List.replicate 12 0 ++ [8, 0, 0x45, 0, 0, 53, 0, 0, 0, 0, 64, 17] ++ List.replicate 10 0 ++ [0, 0, 0, 0, 0, 33, 0, 0, 0x80, 96, 0, 0] ++
    beOctets 4 9 ++ [0, 0, 0, 0, 0, 0, 0, 5, 0, 1, 0, 0, 1, 2, 3, 4, 5]) 14

theorem witness_MixWindowsVideo :
    (let u := (((upIn .operational).setTab (videoTab 3) 0x80000000).setTab (videoTab 3 + 1) 0x20002).setTab (videoTab 3 + 3) 0x10000000
     let u := (u.setf F.CXM_CTL.ENABLE 1).setf F.CXM_PORT_STATUS.STATE 4 0 0
     let r := u.newFrame 0 videoPacket .mix 0 0 ⟨none, none⟩ 0
     let s := r.2.modMix (fun m => { m with video := [⟨r.1.id, 3⟩], pictures := [(3, [⟨0, 8, [], true, true⟩])] })
     let l : List Byte := [0, 0, 0, 5, 0, 1, 0, 0, 1, 2, 3, 4, 5]
     s.frame r.1.id = some r.1 ∧ r.1.rtp = some ⟨false, 9, l⟩ ∧ s.videoTakes 3 = true ∧ cxlAt (entNum (s.videoEntry 3) 2) = some ⟨0, 0⟩ ∧
     srds l (l.length / 6) 2 = [⟨5, 1, 0, false⟩] ∧ Srd.ok ⟨5, 1, 0, false⟩ (s.videoEntry 3) = true ∧ l.length = 2 + 6 * 1 + 5 ∧
     next? .videoPacketStore s (fun t => t.cxlRead 0 (3 * 256) 5 = [1, 2, 3, 4, 5] &&
       (SMap.val t.mix.pictures 3 []).map (fun p => p.slot) = [0, 1]) = true) := by decide +kernel

theorem witness_MixWindowsBatches :
    (let s := mixing
     let x : Win := ⟨0, 1, 125000, ⟨0, ⟨[], []⟩⟩, s.sum 0 0⟩
     let none' := s.setTab (clauseTab 0 0 0) 0xFF
     s.phase = .running ∧ s.pwr.state ≠ .standby ∧ s.win 0 1 = some x ∧ s.win 1 1 = none ∧ s.winDeadline x = some 125000 ∧
     none'.win 0 1 = some x ∧ none'.winDeadline x = none ∧ s.ns < x.w + smPeriod x.e ∧ s.mix.unplaced = false ∧
     s.fixedAlready x = false ∧ s.winEngines x = [0] ∧ s.winLatency (s.winsAt 125000) x = 800 ∧
     ((s.runToNs 123200).readForFix x []).winDeadline x = some 125000 ∧
     next? (.windowFix 0 1 []) s (fun t => t.ns = 123200 && (t.batch 0 125000).isSome) = true ∧
     next? (.windowFix 0 1 []) none' (fun t => t.fld F.ENG_NO_DEADLINE = 1) = true ∧
     next? (.windowFix 0 1 []) (s.modMix (fun m => { m with unplaced := true })) (fun t => t.fld F.ENG_LATE_OUTPUT = 1) = true) ∧
    (let at' (st : BatchStage) : State := mixing.modMix (fun m =>
       { m with batches := [⟨0, 5000, [⟨0, 0, 0, 0⟩], [], 0, st, [], [], [], [], [], [], 4000, [⟨0, 0, 0, [1]⟩]⟩] })
     let s := at' .fixed
     (s.batch 0 5000).any (fun b => b.stage = .fixed) = true ∧ s.batch 1 5000 = none ∧ s.op = .operational ∧
     s.on F.MIX_CTL.ENABLE = true ∧ gpGenEn (s.group 0 (smGroup (s.memSum ⟨0, 0, 0, 0⟩))) = false ∧
     next? (.batchCutoff 0 5000) s (fun t => (t.batch 0 5000).any (fun b => b.stage = .cut) && t.ns = 4200) = true ∧
     next? (.batchCutoff 0 5000) (s.setf F.MIX_CTL.ENABLE 0) (fun t => (t.batch 0 5000).isNone) = true ∧
     next? (.allotmentStart 0 5000 []) (at' .cut) (fun t => (t.batch 0 5000).any (fun b => b.stage = .running)) = true ∧
     next? (.allotmentDone 0 5000) (at' .running) (fun t => (t.batch 0 5000).any (fun b => b.stage = .done)) = true ∧
     next? (.mixDeadlineEnqueue 0 5000) (at' .done) (fun t => t.fld F.ENG_FRAMES_OUT = 1) = true ∧
     next? (.mixDeadlineEnqueue 0 5000) (at' .cut) (fun t => t.fld F.ENG_GROUP_WITHHELD = 1) = true ∧
     next? (.mixDeadlineEnqueue 0 5000) { at' .done with op := .test } (fun t => (t.batch 0 5000).isNone) = true) := by decide +kernel

theorem witness_MixWindowsRest :
    (let s := ((((((mixing.setf F.CXM_CTL.ENABLE 1).setTab (videoTab 0 + 3) 0x10000000).setTab (sumTab 0 0) 0xC0000000).setTab (sumTab 0 0 + 1) 4).setTab
       (sumTab 0 0 + 2) 1).setTab (tileTab 0 4) 0x80000000).setf F.CXM_PORT_STATUS.STATE 4 0 0
     s.canFetch 4 = true ∧ s.fetchedAt 4 5000 = none ∧ up.canFetch 4 = false ∧
     next? (.rowFetchDone 4 5000 true) s (fun t => t.mix.fetched = [(4, 5000, [0])]) = true) ∧
    (let s := mixing.setf F.MIX_CTL.REBAL_EN 1
     3 < s.nIslands ∧ s.mix.activated = true ∧ s.mix.unplaced = false ∧ mixing.on F.MIX_CTL.REBAL_EN = false ∧
     s.on F.MIX_CTL.REBAL_EN = true ∧ next? (.rebalance 3) s (fun t => t.ns = 125000) = true) := by decide +kernel

/-! EveryCommandRuns -/

theorem witness_EveryCommandRuns :
    Safety.absent up (.linkUp 63) = false ∧ Safety.absent up (.linkUp 64) = true ∧ Safety.absent up (.dmaPause 64) = true ∧
    Safety.absent up (.rebalance 16) = true ∧ Safety.absent up (.cxmEnum 4) = true ∧ Safety.absent up (.plcaToTimer 8) = true := by decide +kernel

/-! ### WellFormed

One ill-formed command for each check of `Instr.wf`, and one that only just passes. -/

theorem test_ill_formed_units :
    [Instr.crossingDelivery 37 0, .crossingDelivery 0 37, .frameReceived 64 [] true, .frameEnqueue 64, .ageExpiry 64,
      .dmaPoolCellsAvailable 64, .linkUp 64, .continuationFragmentRx 64 true 0 0 [] true true, .continuationFragmentRx 0 true 4 0 [] true true,
      .continuationFragmentRx 0 true 0 4 [] true true, .pauseFrameRx 64 [], .pauseQuantaExpiry 64 0, .pauseWatchdog 0 8,
      .lldpduTx 64, .shedRefuseRx 64 [], .shedNoack 64, .panelFrameRx 8 [] true true, .plcaToTimer 8, .plcaBeaconLoss 8,
      .unblockFilter 65536, .clearMarkRed 16384, .latentTest 32768, .senAdminWrite 64 0 0, .senAdminWrite 0 7 0,
      .sentenceSwap 64 true, .senEnableClear 64 0, .senEnableClear 0 256, .qshPoolWrite 64 false 0, .qshPoolWrite 0 false 65536,
      .queueDisableFlush 64 0, .queueDisableFlush 0 256, .batchCutoff 512 0, .ringRemoteDone 8, .stepGo 2, .syncTx 64, .probeTx 64 0,
      .cxmEnum 4, .cxlLinkDown 4, .delayRecordDue 1024, .dmaDoorbell 64 0, .dmaDoorbell 0 65536, .descriptorFetch 64,
      .cqSlotFree 64 0, .cqSlotFree 0 65536, .beatError 64, .flr 16, .hifVfDmaWrite 0 0, .hifVfDmaWrite 16 0,
      .mailboxDoorbell 16].all (fun c => !c.wf) = true := by decide

theorem test_ill_formed_operands :
    [Instr.sidEntryWrite 0x0200_0000 0, .sidEntryWrite 2 0, .clauseWrite 0x0040_0000 0, .subqEntryWrite 0x0100_0000 0,
      .mixBankWrite 0x1000_0000 0, .contributionEntryWrite 0x2000 0, .cxmEntryWrite 0x1_8000 0, .wakeFilterEntryWrite 0x4000 0,
      .registerWrite .bar0 0 0 0 16, .registerWrite .bar0 0 2 0 15, .registerWrite .bar0 1 0 0 15, .registerWrite .bar0 0 0x80_0000 0 15,
      .registerWrite .vfBar0 0 0 0 15, .registerWrite .vfBar0 1 0x2_0000 0 15, .registerWrite .bar2 0 0x4000_0000 0 15,
      .registerWrite .dma4 64 0 0 15, .rcRead 16 0, .rcRead 0 0x80_0000, .lockSet 4 0, .lockSet 0 32, .wideReadStart 0x80_0000,
      .triplicateScrub [⟨0, 0, 1, 0, 0, 0⟩], .triplicateScrub [⟨0, 32, 0, 0, 0, 0⟩], .triplicateScrub [⟨2, 0, 0, 0, 0, 0⟩],
      .triplicateScrub [⟨0, 0, 0, 2, 0, 0⟩], .faultCauseClear 8 0, .avsIteration 2 false true, .avsIteration (-2) false true,
      .scanUnlock (2 ^ 256), .lifecycleWipeDone [4], .pcieUncorrectableError 32, .pcieConfigurationWrite (.sriov true 16),
      .pcieConfigurationWrite (.msixEnable 16 true), .pcieConfigurationWrite (.msixMask 1 9), .pcieConfigurationWrite (.power 0 1),
      .msixVectorUnmask 16 0, .msixVectorUnmask 0 72, .msixVectorUnmask 1 9, .fltCauseRead 8].all (fun c => !c.wf) = true := by
  decide

theorem test_well_formed :
    [Instr.crossingDelivery 36 36, .frameReceived 63 [] true, .sidEntryWrite 0x01FF_FFFC 0, .registerWrite .bar2 0 0x3FFF_FFFC 0 15,
      .avsIteration (-1) false true, .msixVectorUnmask 0 71, .dmaDoorbell 63 65535].all Instr.wf = true := by decide

/-! ### Worked numbers of the manual -/

/-- The example after R415: the balls of lane 2 of port P37, physical lane 150 of the reset lane map. -/
theorem test_lane_balls :
    rowName 94 = ['D', 'W'] ∧ rowName 92 = ['D', 'U'] ∧ State.reset.laneOf 37 2 = 150 ∧
      netBall true 150 false = ⟨94, 38⟩ ∧ netBall true 150 true = ⟨94, 39⟩ ∧ netBall false 150 false = ⟨92, 38⟩ ∧
      netBall false 150 true = ⟨92, 39⟩ := by decide

/-- The lanes' rules and the map of positions agree (R414 to R416). -/
theorem test_net_balls :
    (List.range 256).all (fun l => [true, false].all fun t => [true, false].all fun n =>
      decide ((netBall t l n).ball = some (.net t l n))) = true := by decide +kernel

theorem test_cxl_pcie_balls :
    (List.range 64).all (fun l => [true, false].all fun t => [true, false].all fun n =>
      decide ((cxlBall t (l / 16) (l % 16) n).ball = some (.cxl t (l / 16) (l % 16) n)) &&
        (16 ≤ l || decide ((pcieBall t l n).ball = some (.pcie t l n)))) = true := by decide +kernel

/-- Rows of the map: the first row, and a row through the capacitor area. -/
theorem test_row_balls :
    countRow (fun _ => true) 1 = 92 ∧ countRow (fun b => b = .supply .io) 1 = 12 ∧ countRow (fun _ => true) 40 = 50 ∧
      countRow (· = .supply .core) 40 = 18 ∧ countRow (· = .supply .sd) 40 = 4 := by decide +kernel

/-- The regulator's sense balls (R417), and the maximum power by rail (R431) against the largest budget. -/
theorem test_rails :
    (⟨22, 47⟩ : BallPos).ball = some (.supply .core) ∧ (⟨23, 47⟩ : BallPos).ball = some .vss ∧
      [Variant.zt5120, .zt2560, .zt1280].all (fun v => v.runMax = v.budget) = true := by decide

/-- The minus-one example after R164: the total rounds to even, and minus one listener is exact. -/
theorem test_minus_one_rounding :
    roundEven 526909440 20 = 502 ∧ roundEven (526909440 - 524812288) 20 = 2 ∧ roundEven (-1572864 + 3670016) 20 = 2 := by decide

/-- Latencies of R172: the batch of E37, the multiviewer's tile and its dissolving tile. -/
theorem test_batch_latency :
    batchLatency 992 = 1200 ∧ batchLatency 13440 = 6400 ∧ batchLatency 26880 = 11600 := by decide

/-- The media index of the window of E37's batch (R157, R170). -/
theorem test_media_index : mediaAt 86400000250000 0 = 4147200012 := by decide +kernel

/-- The midpoint of node 9's deviations in cycle c and of its rate (R226, R228), in twentieths of a nanosecond. -/
theorem test_midpoint : ftm [0, 364, 368, 378, 382] = 371 ∧ ftm [0, 360, 360, 360, 360] = 360 ∧ ftm [] = 0 := by decide

/-- −144 ppm in units of 2^-32 (R228): 18 ns of drift in a cycle of 125 us. -/
theorem test_rate_units : (-(18 * 65536 * 65536 : Int)).tdiv 125000 = -618475 := by decide

/-- Four frames carry the train of 1,024 bus channels (R210). -/
theorem test_train_frames : State.reset.trainCount = 4 := by decide

/-- The store of a tile of the multiviewer, and twice that with a cut (R161). -/
theorem test_tile_store :
    (2 * (2 * 14)) * ceilDiv (1920 * 2 * 2) 256 = 1680 := by decide

end Sys2Proof.Tests
end

section
/-! SUPPORT. What no command changes: the queue behind the front, and which part the device is; what a command at an absent unit
does; and the commands that only answer. `Kept` is the invariant, with one lemma for each function of the model that makes a new
state, in the order of the model's files; `Runs` is the outcome of a command that goes on and keeps it. -/

namespace Sys2Proof.Scope

open Sys2Proof Sys2Proof.Machine Sys2Proof.Laws

/-- `s` has the queue of `s₀` and is the same part. -/
structure Kept (s₀ s : State) : Prop where
  queue : s.pending = s₀.pending
  part : s.fuses.variant = s₀.fuses.variant

/-- The outcome goes on, to a state with the queue of `s₀` and of the same part. -/
def Runs (s₀ : State) (o : Host.Outcome State Fault Refusal) : Prop := ∃ t, o = .next t ∧ Kept s₀ t

/-! ### Rules for any change of the state -/

section

variable {s₀ s t : State} {α β : Type}

theorem Kept.refl : Kept s s := ⟨rfl, rfl⟩

/-- Any change of the state but of its queue and its fuses. -/
theorem Kept.update {lc ow op ph por lt time regs tabs sc mc cc xc bad flt host wide frames nid xing inbox ub arr ports isl pan
      met recs cap lines mix con cxl raw chans last pwr pair bst board draws copies}
    (h : Kept s₀ s) :
    Kept s₀ ⟨s.pending, s.fuses, lc, ow, op, ph, por, lt, time, regs, tabs, sc, mc, cc, xc, bad, flt, host, wide, frames,
      nid, xing, inbox, ub, arr, ports, isl, pan, met, recs, cap, lines, mix, con, cxl, raw, chans, last, pwr, pair, bst, board,
      draws, copies⟩ :=
  ⟨h.queue, h.part⟩

theorem Kept.status (h : Kept s₀ s) (hst : Status s t) : Kept s₀ t :=
  ⟨hst.pending.trans h.queue, (congrArg Fuses.variant hst.fuses).trans h.part⟩

theorem Kept.ite {c : Prop} [Decidable c] (hs : Kept s₀ s) (ht : Kept s₀ t) : Kept s₀ (if c then s else t) := by
  split
  · exact hs
  · exact ht

/-- A change that a condition may leave out. -/
theorem Kept.when {c : Prop} [Decidable c] (ht : Kept s₀ s → Kept s₀ t) (h : Kept s₀ s) : Kept s₀ (if c then t else s) :=
  .ite (ht h) h

theorem Kept.snd {x : β × State} {b : β} (hx : x = (b, t)) (h : Kept s₀ x.2) : Kept s₀ t := by
  subst hx
  exact h

theorem Kept.elim {o : Option α} {f : α → State} (hf : ∀ x, Kept s₀ (f x)) (h : Kept s₀ s) : Kept s₀ (o.elim s f) := by
  cases o with
  | none => exact h
  | some x => exact hf x

theorem Kept.foldl {f : State → α → State} {l : List α} (hf : ∀ t x, Kept s₀ t → Kept s₀ (f t x)) (h : Kept s₀ s) :
    Kept s₀ (l.foldl f s) := by
  induction l generalizing s with
  | nil => exact h
  | cons x r ih => exact ih (hf s x h)

theorem Kept.foldl_snd {f : β × State → α → β × State} {l : List α} {a : β × State}
    (hf : ∀ a x, Kept s₀ a.2 → Kept s₀ (f a x).2) (h : Kept s₀ a.2) : Kept s₀ (l.foldl f a).2 := by
  induction l generalizing a with
  | nil => exact h
  | cons x r ih => exact ih (hf a x h)

theorem Runs.next (h : Kept s₀ s) : Runs s₀ (.next s) := ⟨s, rfl, h⟩

theorem Runs.atUnit {b : Bool} (hs : Kept s₀ s) (ht : Kept s₀ t) : Runs s₀ (atUnit b s t) := .next (.ite ht hs)

theorem Runs.ite {c : Prop} {o r : Host.Outcome State Fault Refusal} [Decidable c] (ho : Runs s₀ o) (hr : Runs s₀ r) :
    Runs s₀ (if c then o else r) := by
  split
  · exact ho
  · exact hr

end

section

variable {s₀ s : State} {α : Type}
variable {a addr be c ch count d data det e fid fn g handle i idx k kind m n off p r slot src st t u v w : Nat}
  {busy carrier dei engine fcsOk fromE isSeq ok parity portE repair stomped : Bool} {l octets : List Byte}
  {upsets ws : List Nat} {residual rx : Int} {o : Origin4} {f : Frame} {b : Batch} {seq : Option Nat} {x : Member}

/-! ### Machine/Ops -/

theorem Kept.setf {f : Field} (h : Kept s₀ s) : Kept s₀ (s.setf f v u i) := h.status (status_setf ..)

theorem Kept.bump {f : Field} (h : Kept s₀ s) : Kept s₀ (s.bump f u i n) := h.status (status_bump ..)

theorem Kept.setBit {f : Field} {b : Nat} {x : Bool} (h : Kept s₀ s) : Kept s₀ (s.setBit f b x u i) :=
  h.status (status_setBit ..)

theorem Kept.setTab (h : Kept s₀ s) : Kept s₀ (s.setTab k v) := .update h

theorem Kept.markBad {table : Nat} (h : Kept s₀ s) : Kept s₀ (s.markBad table idx) := .ite h (.update h)

theorem Kept.clearBad {table : Nat} (h : Kept s₀ s) : Kept s₀ (s.clearBad table idx) := .update h

theorem Kept.setPort {d : PortDyn} (h : Kept s₀ s) : Kept s₀ (s.setPort p d) := .update h

theorem Kept.modPort {f : PortDyn → PortDyn} (h : Kept s₀ s) : Kept s₀ (s.modPort p f) := .setPort h

theorem Kept.modTsu {f : TsuDyn → TsuDyn} (h : Kept s₀ s) : Kept s₀ (s.modTsu p f) := .modPort h

theorem Kept.modSen {f : SenDyn → SenDyn} (h : Kept s₀ s) : Kept s₀ (s.modSen p f) := .modPort h

theorem Kept.setIsland {q : Nat} {d : IslandDyn} (h : Kept s₀ s) : Kept s₀ (s.setIsland q d) := .update h

theorem Kept.setPanel {d : PanelDyn} (h : Kept s₀ s) : Kept s₀ (s.setPanel t d) := .update h

theorem Kept.modPanel {f : PanelDyn → PanelDyn} (h : Kept s₀ s) : Kept s₀ (s.modPanel t f) := .setPanel h

theorem Kept.setChan {d : ChDyn} (h : Kept s₀ s) : Kept s₀ (s.setChan c d) := .update h

theorem Kept.setCxl {d : CxlPort} (h : Kept s₀ s) : Kept s₀ (s.setCxl c d) := .update h

theorem Kept.setLine {l : Nat} {d : LineDyn} (h : Kept s₀ s) : Kept s₀ (s.setLine l d) := .update h

theorem Kept.setMeter {d : MeterDyn} (h : Kept s₀ s) : Kept s₀ (s.setMeter m d) := .update h

theorem Kept.setRecov {f : Nat} {d : RecDyn} (h : Kept s₀ s) : Kept s₀ (s.setRecov f d) := .update h

theorem Kept.modMix {f : MixS → MixS} (h : Kept s₀ s) : Kept s₀ (s.modMix f) := .update h

theorem Kept.modCon {f : ConS → ConS} (h : Kept s₀ s) : Kept s₀ (s.modCon f) := h.status (status_modCon ..)

theorem Kept.modTime {f : TimeS → TimeS} (h : Kept s₀ s) : Kept s₀ (s.modTime f) := .update h

theorem Kept.modHost {f : HostS → HostS} (h : Kept s₀ s) : Kept s₀ (s.modHost f) := h.status (status_modHost ..)

theorem Kept.modPwr {f : PwrS → PwrS} (h : Kept s₀ s) : Kept s₀ (s.modPwr f) := h.status (status_modPwr ..)

theorem Kept.modPair {f : PairS → PairS} (h : Kept s₀ s) : Kept s₀ (s.modPair f) := h.status (status_modPair ..)

theorem Kept.modBst {f : BstS → BstS} (h : Kept s₀ s) : Kept s₀ (s.modBst f) := h.status (status_modBst ..)

theorem Kept.markTime (h : Kept s₀ s) : Kept s₀ s.markTime := .update h

theorem Kept.run {dt : Nat} (h : Kept s₀ s) : Kept s₀ (s.run dt) := .update h

theorem Kept.runToNt (h : Kept s₀ s) : Kept s₀ (s.runToNt t) := .ite h (.update (.run h))

theorem Kept.runToNs (h : Kept s₀ s) : Kept s₀ (s.runToNs t) := .runToNt h

theorem Kept.runToLt (h : Kept s₀ s) : Kept s₀ (s.runToLt t) := .ite h (.run h)

theorem Kept.runPeriod {period : Nat} (h : Kept s₀ s) : Kept s₀ (s.runPeriod period) := .runToLt h

theorem Kept.draw (h : Kept s₀ s) : Kept s₀ s.draw.2 := .update h

theorem Kept.sendVec (h : Kept s₀ s) : Kept s₀ (s.sendVec fn v) := h.status (status_sendVec ..)

theorem Kept.xingDiscard {dst : Nat} (h : Kept s₀ s) : Kept s₀ (s.xingDiscard dst) := by
  unfold State.xingDiscard
  split
  · exact .bump h
  · exact h

/-! ### Machine/Xci -/

theorem Kept.answer {c : Cmd} (h : Kept s₀ s) : Kept s₀ (s.answer c st det ws) := h.status (status_answer ..)

theorem Kept.finish (h : Kept s₀ s) : Kept s₀ (s.finish st det ws) := h.status (status_finish ..)

theorem Kept.finishOk (h : Kept s₀ s) : Kept s₀ (s.finishOk ws) := h.status (status_finishOk ..)

theorem Kept.xci {op : Nat} {f : Cmd → State → State} (hf : ∀ x t, Kept s₀ t → Kept s₀ (f x t)) (h : Kept s₀ s) :
    Kept s₀ (s.xci op f) := by
  unfold State.xci
  split
  · exact h
  · exact hf _ _ h

theorem Kept.park (h : Kept s₀ s) : Kept s₀ s.park := h.status (status_park ..)

theorem Kept.finishParked {op : Nat} (h : Kept s₀ s) : Kept s₀ (s.finishParked op st det ws) :=
  h.status (status_finishParked ..)

theorem Kept.finishAll {op : Nat} (h : Kept s₀ s) : Kept s₀ (s.finishAll op st det ws) :=
  .foldl (fun _ _ => .finishParked) h

/-! ### Machine/Flags -/

theorem Kept.faultIrq (h : Kept s₀ s) : Kept s₀ s.faultIrq := h.status (status_faultIrq ..)

theorem Kept.setCause (h : Kept s₀ s) : Kept s₀ (s.setCause src) := h.status (status_setCause ..)

theorem Kept.startExit (h : Kept s₀ s) : Kept s₀ s.startExit := h.status (status_startExit ..)

theorem Kept.wakeIf {bit : Nat} {port : Option Nat} (h : Kept s₀ s) : Kept s₀ (s.wakeIf bit port) :=
  h.status (status_wakeIf ..)

theorem Kept.timeAlive (h : Kept s₀ s) : Kept s₀ s.timeAlive := .modPair h

theorem Kept.toOp {new : OpState} (h : Kept s₀ s) : Kept s₀ (s.toOp new) := h.status (status_toOp ..)

theorem Kept.pauseChan (h : Kept s₀ s) : Kept s₀ (s.pauseChan c) := h.status (status_pauseChan ..)

theorem Kept.pauseAll (h : Kept s₀ s) : Kept s₀ s.pauseAll := .foldl (fun _ _ => .pauseChan) h

theorem Kept.bistStop (h : Kept s₀ s) : Kept s₀ s.bistStop := h.status (status_bistStop ..)

theorem Kept.raise {info : Nat} (h : Kept s₀ s) : Kept s₀ (s.raise src info) := h.status (status_raise ..)

theorem Kept.settleS3 (h : Kept s₀ s) : Kept s₀ s.settleS3 := h.status (status_settleS3 ..)

theorem Kept.refuse {cause : Nat} (h : Kept s₀ s) : Kept s₀ (s.refuse o data cause) := h.status (status_refuse ..)

theorem Kept.gated {f : State → State} (hf : ∀ t, Kept s₀ t → Kept s₀ (f t)) (h : Kept s₀ s) :
    Kept s₀ (s.gated w o data f) :=
  .ite (.refuse h) (hf _ h)

theorem Kept.gatedTab {f : State → State} (hf : ∀ t, Kept s₀ t → Kept s₀ (f t)) (h : Kept s₀ s) :
    Kept s₀ (s.gatedTab o data f) :=
  .ite (.refuse h) (hf _ h)

/-! ### Machine/HostIf -/

theorem Kept.modPcie {f : PcieS → PcieS} (h : Kept s₀ s) : Kept s₀ (s.modPcie f) := .modHost h

theorem Kept.resetFld {f : Field} (h : Kept s₀ s) : Kept s₀ (s.resetFld f u i) := .setf h

theorem Kept.resetFlds {fs : List Field} (h : Kept s₀ s) : Kept s₀ (s.resetFlds fs u i) :=
  .foldl (fun _ _ => .resetFld) h

theorem Kept.doorbell (h : Kept s₀ s) : Kept s₀ (s.doorbell fn) := .ite (.bump h) (.setf (.setf (.modHost h)))

theorem Runs.mailboxDoorbell (h : Kept s₀ s) : Runs s₀ (execMailboxDoorbell fn s) := .next (.when .doorbell h)

theorem Kept.takeCmd (h : Kept s₀ s) : Kept s₀ (s.takeCmd src ws) := by
  unfold State.takeCmd
  exact .ite (.setf (.modHost h)) (.modHost h)

theorem Runs.commandDispatch (h : Kept s₀ s) : Runs s₀ (execCommandDispatch s) := by
  unfold execCommandDispatch
  refine .next ?_
  refine .ite h ?_
  split
  · exact h
  · extract_lets c t
    split
    · exact .finish (.takeCmd h)
    · exact .takeCmd h

theorem Runs.identify (h : Kept s₀ s) : Runs s₀ (execIdentify s) := .next (.xci (fun _ _ => .finishOk) h)

theorem Runs.roleReport (h : Kept s₀ s) : Runs s₀ (execRoleReport s) := .next (.xci (fun _ _ => .finishOk) h)

theorem Runs.measure (h : Kept s₀ s) : Runs s₀ (execMeasure s) :=
  .next (.xci (fun _ _ ht => .ite (.finish ht) (.finishOk ht)) h)

theorem Kept.vfDmaWrite (h : Kept s₀ s) : Kept s₀ (s.vfDmaWrite v o data) := by
  unfold State.vfDmaWrite
  exact .ite h (.ite (.refuse h) (.setf (.setf h)))

theorem Runs.hifVfDmaWrite {data : Word} (h : Kept s₀ s) : Runs s₀ (execHifVfDmaWrite v data s) :=
  .next (.ite (.gated (fun _ => .vfDmaWrite) h) h)

theorem Kept.dropRow (h : Kept s₀ s) : Kept s₀ (s.dropRow ch) := by
  unfold State.dropRow
  exact .setChan (.setIsland h)

theorem Kept.chStop (h : Kept s₀ s) : Kept s₀ (s.chStop ch) := .setChan (.setf (.setf (.dropRow h)))

theorem Kept.chReset (h : Kept s₀ s) : Kept s₀ (s.chReset ch) := .ite h (.setChan (.resetFlds (.dropRow h)))

theorem Kept.endMailbox (h : Kept s₀ s) : Kept s₀ (s.endMailbox fn) := by
  unfold State.endMailbox
  exact .resetFlds (.foldl (fun _ _ ht => .setf (.setf ht)) (.modHost h))

theorem Kept.abandonWide (h : Kept s₀ s) : Kept s₀ s.abandonWide := by
  unfold State.abandonWide
  exact .resetFlds (.update h)

theorem Kept.flrOne (h : Kept s₀ s) : Kept s₀ (s.flrOne fn) := by
  unfold State.flrOne
  exact .foldl (fun _ _ => .chReset) (.modHost (.endMailbox h))

theorem Kept.flr (h : Kept s₀ s) : Kept s₀ (s.flr fn) :=
  .ite (.abandonWide (.modHost (.foldl (fun _ _ => .flrOne) h))) (.flrOne h)

theorem Runs.flr (h : Kept s₀ s) : Runs s₀ (execFlr fn s) := .next (.when .flr h)

theorem Kept.pcieDown (h : Kept s₀ s) : Kept s₀ s.pcieDown := .ite (.raise (.modHost h)) h

theorem Kept.hostReset (h : Kept s₀ s) : Kept s₀ s.hostReset := .pcieDown (.flr h)

theorem Runs.perstnAssert (h : Kept s₀ s) : Runs s₀ (execPerstnAssert s) := .next (.modHost (.hostReset h))

theorem Runs.perstnRelease (h : Kept s₀ s) : Runs s₀ (execPerstnRelease s) := .next (.modHost h)

theorem Runs.pcieLinkDown (h : Kept s₀ s) : Runs s₀ (execPcieLinkDown s) := .next (.pcieDown h)

theorem Runs.pcieLinkUp {gen width : Nat} (h : Kept s₀ s) : Runs s₀ (execPcieLinkUp s gen width) :=
  .next (.ite h (.modHost (.runToLt h)))

theorem Runs.pcieUncorrectableError {bit : Nat} (h : Kept s₀ s) : Runs s₀ (execPcieUncorrectableError bit s fn) :=
  .next (.ite (.raise (.modPcie h)) h)

theorem Kept.sendPending (h : Kept s₀ s) : Kept s₀ (s.sendPending fn) := by
  unfold State.sendPending
  exact .modHost h

theorem Kept.setSriov {en : Bool} (h : Kept s₀ s) : Kept s₀ (s.setSriov en n) := by
  unfold State.setSriov
  exact .foldl (fun _ _ => .flrOne) (.modHost h)

theorem Kept.cfgWrite {a : CfgWrite} (h : Kept s₀ s) : Kept s₀ (s.cfgWrite a) := by
  unfold State.cfgWrite
  split
  · exact .setSriov h
  · exact .when .modPcie h
  · exact .when .modPcie h
  · exact .ite h (.modPcie h)
  · exact .when .modPcie h
  · exact .ite (.ite (.sendPending (.modHost h)) (.modHost h)) h
  · exact .when .modHost h
  · exact .when .modHost h

theorem Runs.pcieConfigurationWrite {w : CfgWrite} (h : Kept s₀ s) : Runs s₀ (execPcieConfigurationWrite w s) :=
  .next (.when .cfgWrite h)

theorem Runs.msixVectorUnmask {vec : Nat} (h : Kept s₀ s) : Runs s₀ (execMsixVectorUnmask fn vec s) :=
  .next (.ite (.sendPending (.modHost h)) h)

/-! ### Machine/Queues -/

theorem Kept.poolLow {free : Nat} (h : Kept s₀ s) : Kept s₀ (s.poolLow p free) := .setf h

theorem Kept.takeIng (h : Kept s₀ s) : Kept s₀ (s.takeIng p n) := by
  unfold State.takeIng
  exact .poolLow (.modPort (.setIsland h))

theorem Kept.freeIng (h : Kept s₀ s) : Kept s₀ (s.freeIng p n) := by
  unfold State.freeIng
  exact .modPort (.setIsland h)

theorem Kept.setFrame (h : Kept s₀ s) : Kept s₀ (s.setFrame f) := .update h

theorem Kept.returnCells (h : Kept s₀ s) : Kept s₀ (s.returnCells f) := by
  unfold State.returnCells
  extract_lets d
  split
  · exact .when .freeIng h
  · exact h
  · exact .setIsland h
  · exact .setIsland h

theorem Kept.addUse (h : Kept s₀ s) : Kept s₀ (s.addUse fid n) := by
  unfold State.addUse
  split
  · exact .setFrame h
  · exact h

theorem Kept.release (h : Kept s₀ s) : Kept s₀ (s.release fid) := by
  unfold State.release
  split
  · exact h
  · exact .ite (.setFrame h) (.update (.returnCells h))

theorem Kept.fresh (h : Kept s₀ s) : Kept s₀ s.fresh.2 := .update h

theorem Kept.bumpTab (h : Kept s₀ s) : Kept s₀ (s.bumpTab k) := .setTab h

theorem Kept.moveTokens {q : Nat} {d : Int} (h : Kept s₀ s) : Kept s₀ (s.moveTokens p c q t d) := by
  unfold State.moveTokens
  exact .modPort h

theorem Kept.syncCredit (h : Kept s₀ s) : Kept s₀ (s.syncCredit p) := .modPort h

theorem Kept.leaveSubq {f : Copy → Bool} (h : Kept s₀ s) : Kept s₀ (s.leaveSubq p k f) := by
  unfold State.leaveSubq
  exact .modPort h

theorem Kept.leftClass {c : Copy} (h : Kept s₀ s) : Kept s₀ (s.leftClass p c) := .modPort h

theorem Kept.discardWhere {f : Copy → Bool} {count : State → Copy → State}
    (hcount : ∀ t x, Kept s₀ t → Kept s₀ (count t x)) (h : Kept s₀ s) : Kept s₀ (s.discardWhere p f count) := by
  unfold State.discardWhere
  exact .foldl (fun _ _ ht => .release (hcount _ _ ht)) <| .modPort <|
    .foldl (fun _ _ ht => .release (.leftClass (hcount _ _ ht))) <| .modPort <|
    .foldl (fun _ _ ht => .foldl (fun _ _ hu => .release (.leftClass (hcount _ _ hu))) (.leaveSubq ht)) <|
    .syncCredit h

theorem Kept.flushCount (h : Kept s₀ s) : Kept s₀ (s.flushCount p) := .ite (.bump h) (.bump h)

theorem Kept.flush (h : Kept s₀ s) : Kept s₀ (s.flush p) := .discardWhere (fun _ _ => .flushCount) h

theorem Kept.joinSubq {c0 : Copy} (h : Kept s₀ s) : Kept s₀ (s.joinSubq p c0) := by
  unfold State.joinSubq
  exact .modPort (.bumpTab (.syncCredit h))

theorem Kept.offer {c : Copy} (h : Kept s₀ s) : Kept s₀ (s.offer p c) := by
  unfold State.offer
  split
  · exact .release (.bump h)
  · exact .release (.flushCount h)
  · exact .release (.bump h)
  · exact .release (.bumpTab (.bump h))
  · exact .joinSubq h

theorem Kept.controlFrame {x : Copy × State} (h : Kept s₀ s) (hx : s.controlFrame p kind octets = some x) : Kept s₀ x.2 := by
  unfold State.controlFrame at hx
  dsimp only at hx
  split at hx
  · cases hx
  · cases hx
    exact .setFrame (.setIsland (.fresh h))

theorem Kept.barControl (h : Kept s₀ s) : Kept s₀ (s.barControl p) := .ite h (.bump h)

theorem Kept.queueControl (h : Kept s₀ s) : Kept s₀ (s.queueControl p kind octets) := by
  unfold State.queueControl
  split
  · exact .bump h
  · split
    · exact .flushCount h
    · split
      · exact h
      next hc => exact .modPort (.syncCredit (h.controlFrame hc))

theorem Kept.sendControl (h : Kept s₀ s) : Kept s₀ (s.sendControl p kind octets) := by
  unfold State.sendControl
  exact .ite (.barControl h) (.ite (.xingDiscard h) (.queueControl h))

theorem Kept.sendDue (h : Kept s₀ s) : Kept s₀ (s.sendDue p kind octets) := by
  unfold State.sendDue
  refine .ite (.barControl h) (.ite (.xingDiscard h) (.ite h (.ite (.bump h) ?_)))
  split
  · exact h
  next hc => exact .modPort (h.controlFrame hc)

/-! ### Machine/Mac -/

theorem Kept.countCut {x : Tx} (h : Kept s₀ s) : Kept s₀ (s.countCut p x) := .when .bump h

theorem Kept.cutTx {y : Nat} {x : Tx} (h : Kept s₀ s) : Kept s₀ (s.cutTx p y x) := .modPort (.countCut h)

theorem Kept.setGates (h : Kept s₀ s) : Kept s₀ (s.setGates p g) := by
  unfold State.setGates
  extract_lets t
  have ht : Kept s₀ t := .modPort (.syncCredit h)
  split
  · exact ht
  · exact .ite (.bump (.modPort ht)) ht

theorem Kept.regate (h : Kept s₀ s) : Kept s₀ (s.regate p) := .setGates h

/-! ### Machine/Handles -/

theorem Kept.setTabBits {hi lo : Nat} (h : Kept s₀ s) : Kept s₀ (s.setTabBits k w hi lo v) := .setTab h

theorem Kept.eshCopy {origin : Origin} (h : Kept s₀ s) : Kept s₀ (s.eshCopy handle f seq dei origin).2 := .fresh h

theorem Kept.eshCopies {origin : Origin} {hs : List Nat} (h : Kept s₀ s) : Kept s₀ (s.eshCopies f seq dei origin hs).2 := by
  induction hs generalizing s with
  | nil => exact h
  | cons x r ih => exact ih (.fresh h)

theorem Kept.sidParity {region index : Nat} (h : Kept s₀ s) : Kept s₀ (s.sidParity region index) := .raise (.bump h)

theorem Kept.countNoSeq {hs : List Nat} (h : Kept s₀ s) : Kept s₀ (s.countNoSeq seq hs) := .when .bump h

theorem Kept.generate (h : Kept s₀ s) : Kept s₀ (s.generate g).2 := by
  unfold State.generate
  extract_lets k
  split
  · dsimp only
    exact .bumpTab (.setTabBits h)
  · exact h

theorem Kept.newFrame {port : Nat} {pool : Pool} {island cells : Nat} {t : Tags} {arrival : Nat} (h : Kept s₀ s) :
    Kept s₀ (s.newFrame port octets pool island cells t arrival).2 :=
  .update (.setFrame (.fresh h))

/-! ### Machine/RingTime -/

theorem Kept.runToRing {x : Int} (h : Kept s₀ s) : Kept s₀ (s.runToRing x) := .ite h (.run h)

theorem Kept.runToRingNs (h : Kept s₀ s) : Kept s₀ (s.runToRingNs n) := .runToRing h

/-! ### Machine/Stamps -/

theorem Kept.sendPtp {f : Option (List Byte)} (h : Kept s₀ s) : Kept s₀ (s.sendPtp p kind f) := by
  unfold State.sendPtp
  split
  · exact .sendControl h
  · exact .bump h

theorem Kept.dropBarred (h : Kept s₀ s) : Kept s₀ (s.dropBarred p) := by
  unfold State.dropBarred
  extract_lets s1
  have hs1 : Kept s₀ s1 := .ite h (.discardWhere (fun _ _ ht => ht) h)
  exact .ite hs1 (.discardWhere (fun _ _ => .bump) hs1)

theorem Kept.calibrate {f : Field} (h : Kept s₀ s) : Kept s₀ (s.calibrate p f residual) := by
  unfold State.calibrate
  exact .ite (.bump h) (.setf h)

theorem Kept.probeOut (h : Kept s₀ s) : Kept s₀ (s.probeOut p t l).2 := by
  unfold State.probeOut
  extract_lets x o s1
  have hs1 : Kept s₀ s1 := .modTsu (.bump h)
  split
  · dsimp only
    exact hs1
  · dsimp only
    exact .calibrate (.modTsu hs1)

theorem Kept.stampTx {c : Copy} (h : Kept s₀ s) : Kept s₀ (s.stampTx p t c).2 := by
  unfold State.stampTx
  extract_lets l
  split
  · split
    · dsimp only
      exact .bump (.modTsu h)
    · split
      · dsimp only
        exact .modTsu (.bump h)
      · split
        · split
          · exact h
          · split
            · exact h
            · split
              · dsimp only
                exact .bump (.modTsu (.bump h))
              · dsimp only
                exact .sendPtp (.modTsu (.bump h))
        · split
          · exact .probeOut h
          · split
            · exact h
            · exact h
  · exact h

theorem Kept.hostRing {flags len : Nat} {off : Int} {msg : List Byte} (h : Kept s₀ s) :
    Kept s₀ (s.hostRing p kind flags len rx off msg) := by
  unfold State.hostRing
  exact .ite (.bump h) (.sendVec (.bump (.setf (.modHost (.modTime h)))))

/-! ### Machine/Receive -/

theorem Kept.wakeFilters (h : Kept s₀ s) : Kept s₀ (s.wakeFilters p octets) := by
  unfold State.wakeFilters
  exact .ite h (.foldl (fun _ _ ht => .ite (.wakeIf (.bump (.setf (.setf ht)))) ht) h)

theorem Kept.wakeFilterWrite (h : Kept s₀ s) : Kept s₀ (s.wakeFilterWrite o off data) := by
  unfold State.wakeFilterWrite
  exact .ite h (.ite (.refuse h) (.setTab h))

theorem Runs.wakeFilterEntryWrite {data : Word} (h : Kept s₀ s) : Runs s₀ (execWakeFilterEntryWrite off data s) :=
  .next (.ite (.gatedTab (fun _ => .wakeFilterWrite) h) h)

theorem Kept.rxTake (h : Kept s₀ s) : Kept s₀ (s.rxTake p n) := .ite h (.poolLow h)

theorem Kept.rxCells (h : Kept s₀ s) : Kept s₀ (s.rxCells p n).2 := by
  unfold State.rxCells
  split
  · exact h
  · dsimp only
    exact .bump h
  · dsimp only
    exact .bump h

theorem Kept.macRx {may : Bool} (h : Kept s₀ s) : Kept s₀ (s.macRx p octets fcsOk may).2 := by
  unfold State.macRx
  extract_lets len s1
  have hs1 : Kept s₀ s1 := .rxTake h
  have ht : Kept s₀ (((s1.bump F.RX_FRAMES_OK p).bump F.RX_OCTETS_OK p 0 len).wakeFilters p octets) :=
    .wakeFilters (.bump (.bump hs1))
  split
  · dsimp only
    exact .bump hs1
  · split
    · dsimp only
      exact .bump (.wakeFilters hs1)
    · split
      · dsimp only
        exact .bump (.wakeFilters hs1)
      · split
        · dsimp only
          exact .bump ht
        · split
          · dsimp only
            exact .bump ht
          · exact .rxCells ht

theorem Kept.trainJudge (h : Kept s₀ s) : Kept s₀ (s.trainJudge p l fcsOk).2 := by
  unfold State.trainJudge
  split
  · dsimp only
    exact .bump h
  · split
    · dsimp only
      exact .bump h
    · split
      · dsimp only
        exact .bump h
      · dsimp only
        exact .bump (.bump h)

theorem Kept.rxLocal {f : State → State} (hf : ∀ t, Kept s₀ t → Kept s₀ (f t)) (h : Kept s₀ s) :
    Kept s₀ (s.rxLocal p octets f) := by
  unfold State.rxLocal
  split
  next ok t ht =>
    have hm : Kept s₀ t := .snd ht (.macRx h)
    exact .ite (hf t hm) hm

/-! ### Machine/Panel -/

theorem Kept.panelUnsent (h : Kept s₀ s) : Kept s₀ (s.panelUnsent t) := by
  unfold State.panelUnsent
  exact .foldl (fun _ _ ht => .bump (.release ht)) (.when .modPanel h)

theorem Kept.panelOffer {c : Copy} (h : Kept s₀ s) : Kept s₀ (s.panelOffer t c).2 := by
  unfold State.panelOffer
  split
  · exact h
  · extract_lets n s1
    have hs1 : Kept s₀ s1 := .release h
    split
    · exact hs1
    · split
      · dsimp only
        exact .bump hs1
      · split
        next i u hu =>
          dsimp only
          exact .modPanel (.setFrame (.snd hu (.fresh hs1)))

theorem Kept.nextOpportunity (h : Kept s₀ s) : Kept s₀ (s.nextOpportunity t) := .modPanel h

theorem Kept.panelSettle (h : Kept s₀ s) : Kept s₀ (s.panelSettle t) := by
  unfold State.panelSettle
  split
  · exact .ite (.when .nextOpportunity (.modPanel (.release (.bump h)))) h
  · exact h

theorem Kept.panelStart {id : Nat} {d : PanelDyn} (h : Kept s₀ s) : Kept s₀ (s.panelStart t id d) := by
  unfold State.panelStart
  exact .setPanel (.runToLt h)

theorem Kept.panelBegin (h : Kept s₀ s) : Kept s₀ (s.panelBegin t) := by
  unfold State.panelBegin
  extract_lets d
  split
  · exact .ite h (.panelStart h)
  · exact h
  · exact .panelStart h
  · exact .panelStart h
  · exact h

theorem Kept.senseCarrier (h : Kept s₀ s) : Kept s₀ (s.senseCarrier t carrier) := .modPanel h

theorem Kept.panelGo (h : Kept s₀ s) : Kept s₀ (s.panelGo t carrier) := by
  unfold State.panelGo
  extract_lets s1
  have hs1 : Kept s₀ s1 := .panelUnsent h
  exact .ite hs1 (.ite (.when .panelBegin hs1) (.ite (.modPanel hs1) (.panelBegin hs1)))

theorem Kept.panelCollide (h : Kept s₀ s) : Kept s₀ (s.panelCollide t) := by
  unfold State.panelCollide
  split
  · extract_lets n s1
    have hs1 : Kept s₀ s1 := .modPanel (.bump h)
    exact .ite (.modPanel (.release (.bump hs1))) (.modPanel (.draw hs1))
  · exact h

theorem Runs.panelCollision (h : Kept s₀ s) : Runs s₀ (execPanelCollision t s) := .atUnit h (.when .panelCollide h)

theorem Kept.panelSend {echoNs : Nat} (h : Kept s₀ s) : Kept s₀ (s.panelSend t carrier echoNs) := by
  unfold State.panelSend
  exact .ite (.panelCollide (.run (.panelGo (.senseCarrier h)))) (.panelGo (.senseCarrier h))

theorem Runs.panelFrameTx {echoNs : Nat} (h : Kept s₀ s) : Runs s₀ (execPanelFrameTx t s carrier echoNs) := by
  unfold execPanelFrameTx
  refine .atUnit h ?_
  refine .ite h ?_
  refine .panelSend (.panelSettle ?_)
  split
  · exact .runToLt h
  · exact h

theorem Runs.panelBackoffExpiry {echoNs : Nat} (h : Kept s₀ s) : Runs s₀ (execPanelBackoffExpiry t s carrier echoNs) := by
  unfold execPanelBackoffExpiry
  refine .atUnit h ?_
  split
  · exact .ite (.panelSend (.modPanel (.runToLt h))) (.modPanel (.runToLt h))
  · exact h

theorem Runs.plcaBeaconRx (h : Kept s₀ s) : Runs s₀ (execPlcaBeaconRx t s) := .atUnit h (.ite (.modPanel (.setf h)) h)

theorem Runs.plcaToTimer (h : Kept s₀ s) : Runs s₀ (execPlcaToTimer t s) :=
  .atUnit h (.ite (.nextOpportunity (.run h)) h)

theorem Runs.plcaBeaconLoss (h : Kept s₀ s) : Runs s₀ (execPlcaBeaconLoss t s) := .atUnit h (.modPanel (.setf h))

theorem Kept.present {dst lag : Nat} {c : Cargo} (h : Kept s₀ s) : Kept s₀ (s.present src dst lag c) := .update h

theorem Kept.gateFrame (h : Kept s₀ s) : Kept s₀ (s.gateFrame f) := .setFrame h

theorem Kept.presentDescriptor (h : Kept s₀ s) : Kept s₀ (s.presentDescriptor src f) :=
  .ite (.xingDiscard (.release h)) (.present (.gateFrame h))

theorem Kept.panelHeard {more : Bool} (h : Kept s₀ s) : Kept s₀ (s.panelHeard t more) := by
  unfold State.panelHeard
  exact .ite (.nextOpportunity (.modPanel h)) (.modPanel h)

theorem Kept.panelTake (h : Kept s₀ s) : Kept s₀ (s.panelTake t octets fcsOk) := by
  unfold State.panelTake
  exact .ite (.bump h) (.ite (.bump (.bump h)) (.presentDescriptor (.newFrame (.bump h))))

theorem Kept.panelRx {more : Bool} (h : Kept s₀ s) : Kept s₀ (s.panelRx t octets fcsOk more) :=
  .ite h <|
  .ite (.ite (.wakeIf (.bump h)) h) <|
  .ite h <|
  .ite (.panelHeard (.panelCollide h)) <|
  .panelTake <| .panelHeard h

theorem Runs.panelFrameRx {more : Bool} (h : Kept s₀ s) : Runs s₀ (execPanelFrameRx t octets fcsOk s more) :=
  .atUnit h (.panelRx h)

/-! ### Machine/Gates -/

theorem Kept.unstage (h : Kept s₀ s) : Kept s₀ (s.unstage p) := .when .setf h

theorem Kept.clauseWrite (h : Kept s₀ s) : Kept s₀ (s.clauseWrite o off data) := by
  unfold State.clauseWrite
  exact .ite h (.ite (.refuse h) (.clearBad (.setTab (.unstage h))))

theorem Runs.clauseWrite {data : Word} (h : Kept s₀ s) : Runs s₀ (execClauseWrite off data s) :=
  .next (.ite (.gatedTab (fun _ => .clauseWrite) h) h)

theorem Kept.senAdminWrite {reg : Nat} (h : Kept s₀ s) : Kept s₀ (s.senAdminWrite o p reg data) := by
  unfold State.senAdminWrite
  split
  · exact h
  · exact .ite (.refuse h) (.setf (.unstage h))

theorem Runs.senAdminWrite {reg : Nat} {data : Word} (h : Kept s₀ s) : Runs s₀ (execSenAdminWrite p reg data s) :=
  .atUnit h (.ite (.gated (fun _ => .senAdminWrite) h) h)

theorem Kept.stage (h : Kept s₀ s) : Kept s₀ (s.stage p upsets) := by
  unfold State.stage
  refine .ite (.finish h) ?_
  extract_lets b len s1 fail
  have hs1 : Kept s₀ s1 := .foldl (fun _ _ => .markBad) h
  exact .ite (.finishOk (.setf hs1)) (.finish (.setf hs1))

theorem Runs.sentenceStage (h : Kept s₀ s) : Runs s₀ (execSentenceStage upsets s) := .next (.xci (fun _ _ => .stage) h)

theorem Kept.mapMixDue {f : MixDue → MixDue} (h : Kept s₀ s) : Kept s₀ (s.mapMixDue f) := by
  unfold State.mapMixDue
  exact .update (.foldl (fun _ _ => .modPort) h)

theorem Kept.refreshDue (h : Kept s₀ s) : Kept s₀ (s.refreshDue p) := .mapMixDue h

theorem Kept.meetDue (h : Kept s₀ s) : Kept s₀ (s.meetDue p a) := .mapMixDue h

theorem Kept.abortSwap (h : Kept s₀ s) : Kept s₀ (s.abortSwap p) := by
  unfold State.abortSwap
  exact .ite (.finish h) (.ite (.finish h) (.ite (.finish h) (.finishOk (.refreshDue (.setf h)))))

theorem Runs.sentenceAbort (h : Kept s₀ s) : Runs s₀ (execSentenceAbort s) := .next (.xci (fun _ _ => .abortSwap) h)

theorem Kept.unsentDrop (h : Kept s₀ s) : Kept s₀ (s.unsentDrop p) := by
  unfold State.unsentDrop
  refine .discardWhere (fun _ _ ht => ?_) h
  split
  · exact .bump ht
  · exact ht

theorem Kept.lateDrop {start : Nat} (h : Kept s₀ s) : Kept s₀ (s.lateDrop p start) :=
  .discardWhere (fun _ _ => .bump) (.unsentDrop h)

theorem Kept.mapCycles {f : Option Nat → Option Nat} (h : Kept s₀ s) : Kept s₀ (s.mapCycles p f) := by
  unfold State.mapCycles
  exact .modPort h

theorem Kept.runToPort (h : Kept s₀ s) : Kept s₀ (s.runToPort p t) := by
  unfold State.runToPort
  exact .runToLt (.runToNt h)

theorem Kept.foundFault {q : Pos} (h : Kept s₀ s) : Kept s₀ (s.foundFault p q) :=
  .ite (.raise (.bump (.refreshDue (.modSen h)))) h

theorem Kept.readClauses {b : Nat} (h : Kept s₀ s) : Kept s₀ (s.readClauses p a b upsets) := by
  unfold State.readClauses
  exact .foldl (fun _ _ => .foundFault) (.foldl (fun _ _ => .markBad) h)

theorem Kept.takeClause (h : Kept s₀ s) : Kept s₀ (s.takeClause p parity) := by
  unfold State.takeClause
  exact .foldl (fun _ _ => .panelUnsent) (.unsentDrop (.regate (.readClauses (.meetDue (.modSen h)))))

theorem Kept.doSwap (h : Kept s₀ s) : Kept s₀ (s.doSwap p parity) := by
  unfold State.doSwap
  exact .takeClause <| .modSen <| .mapCycles <| .lateDrop <| .refreshDue <| .modSen <| .bump <| .setf <| .setf <|
    .setf <| .foldl (fun _ _ => .setf) h

theorem Runs.sentenceSwap {parityError : Bool} (h : Kept s₀ s) : Runs s₀ (execSentenceSwap p s parityError) :=
  .atUnit h (.ite (.doSwap (.runToPort h)) h)

theorem Kept.takeCycle (h : Kept s₀ s) : Kept s₀ (s.takeCycle p) := by
  unfold State.takeCycle
  exact .lateDrop (.modSen h)

theorem Runs.cycleStart (h : Kept s₀ s) : Runs s₀ (execCycleStart p s) := .atUnit h (.ite h (.takeCycle (.runToPort h)))

theorem Runs.clauseBoundary {parityError : Bool} (h : Kept s₀ s) : Runs s₀ (execClauseBoundary p parityError s) :=
  .atUnit h (.ite h (.takeClause (.runToPort h)))

theorem Runs.holdInForce (h : Kept s₀ s) : Runs s₀ (execHoldInForce p s) := by
  unfold execHoldInForce
  extract_lets t lim s'
  have hs' : ∀ u, s' = some u → Kept s₀ u := by
    unfold s'
    intro u hu
    split at hu
    · cases hu
      exact h
    · obtain ⟨n, -, rfl⟩ := Option.map_eq_some_iff.mp hu
      exact .runToPort h
  clear_value s'
  refine .atUnit h ?_
  split
  · exact h
  next u =>
    have hu : Kept s₀ u := hs' u rfl
    refine .ite h ?_
    split
    · exact .bump (.cutTx (.syncCredit hu))
    · exact hu

theorem Kept.senDisable {dropLate : Nat} (h : Kept s₀ s) : Kept s₀ (s.senDisable p dropLate) := by
  unfold State.senDisable
  exact .regate (.refreshDue (.mapCycles (.setf (.ite (.setf (.setf (.setf h))) (.setf (.setf h))))))

theorem Runs.senEnableClear {dropLate : Nat} (h : Kept s₀ s) : Runs s₀ (execSenEnableClear p dropLate s) :=
  .atUnit h (.ite (.gated (fun _ => .senDisable) h) h)

theorem Kept.senStep (h : Kept s₀ s) : Kept s₀ (s.senStep p parity) :=
  have hs : ∀ {f u i n}, Kept s₀ ((s.bump f u i n).refreshDue p) := .refreshDue (.bump h)
  .when (fun _ => .ite (.doSwap hs) (.when (fun ht => .takeClause (.takeCycle ht)) hs)) h

/-! ### Machine/Stores -/

theorem Kept.setEntry {e : List Nat} (h : Kept s₀ s) : Kept s₀ (s.setEntry k e) := .foldl (fun _ _ => .setTab) h

theorem Kept.lineMode {old new : List Nat} (h : Kept s₀ s) : Kept s₀ (s.lineMode n old new) := by
  unfold State.lineMode
  exact .ite h (.ite (.setLine h) (.setLine h))

theorem Kept.refuseEntry {cause : Nat} (h : Kept s₀ s) : Kept s₀ (s.refuseEntry o data cause) := .refuse (.bump h)

theorem Kept.applyLine {e : List Nat} (h : Kept s₀ s) : Kept s₀ (s.applyLine o data n e) := by
  unfold State.applyLine
  exact .ite (.refuseEntry h) <|
    .ite (.refuseEntry h) <|
    .ite (.lineMode (.update (.setEntry h))) <|
    .setLine <| .update <| .setEntry h

theorem Kept.applyVideo {e : List Nat} (h : Kept s₀ s) : Kept s₀ (s.applyVideo o data v e) := by
  unfold State.applyVideo
  exact .ite (.refuseEntry h) (.ite (.refuseEntry h) (.ite (.modMix (.update (.setEntry h))) (.update (.setEntry h))))

theorem Kept.cxmWrite (h : Kept s₀ s) : Kept s₀ (s.cxmWrite o off data) := by
  unfold State.cxmWrite
  exact .ite h (.ite h (.ite (.ite (.applyLine h) (.applyVideo h)) (.update h)))

theorem Runs.cxmEntryWrite {data : Word} (h : Kept s₀ s) : Runs s₀ (execCxmEntryWrite off data s) :=
  .next (.ite (.gatedTab (fun _ => .cxmWrite) h) h)

theorem Kept.poisonRead (h : Kept s₀ s) : Kept s₀ (s.poisonRead c u) := .raise (.bump h)

theorem Kept.countRead (h : Kept s₀ s) : Kept s₀ (s.countRead c off n) := by
  unfold State.countRead
  exact .ite (.setCxl h) (.foldl (fun _ _ => .poisonRead) (.setCxl h))

theorem Kept.cxlWrite {bs : List Byte} (h : Kept s₀ s) : Kept s₀ (s.cxlWrite c off bs) := .setCxl h

theorem Kept.lineCount (h : Kept s₀ s) : Kept s₀ (s.lineCount n w) := .bumpTab h

theorem Kept.lineDrop (h : Kept s₀ s) : Kept s₀ (s.lineDrop n) := .lineCount h

theorem Kept.offerLine (h : Kept s₀ s) : Kept s₀ (s.offerLine n f) := by
  unfold State.offerLine
  extract_lets e
  split
  · exact .lineDrop h
  · exact .ite (.lineDrop h) (.update (.addUse h))

theorem Kept.advanceHead (h : Kept s₀ s) : Kept s₀ (s.advanceHead n) := by
  unfold State.advanceHead
  extract_lets e h1 k s1 s2 d
  have hs2 : Kept s₀ s2 := .lineCount (.setTabBits (.setTabBits h))
  exact .ite hs2 (.ite (.setLine hs2) (.ite (.setLine (.lineDrop hs2)) (.setLine hs2)))

theorem Kept.recordWritten (h : Kept s₀ s) : Kept s₀ (s.recordWritten n ok) := by
  unfold State.recordWritten
  split
  · exact h
  · extract_lets s1 e
    split
    · exact .release (.ite (.advanceHead (.cxlWrite (.update h))) (.lineDrop (.update h)))
    · exact .release (.lineDrop (.update h))

theorem Runs.delayRecordWritten {line : Nat} (h : Kept s₀ s) : Runs s₀ (execDelayRecordWritten line ok s) :=
  .next (.recordWritten h)

theorem Kept.countRecord {j : Nat} (h : Kept s₀ s) : Kept s₀ (s.countRecord n j) := by
  unfold State.countRecord
  extract_lets e
  split
  · exact h
  · exact .ite h (.countRead h)

theorem Kept.heldDiscard {c : Copy} (h : Kept s₀ s) : Kept s₀ (s.heldDiscard c) :=
  .ite (.release (.bump h)) (.xingDiscard (.release h))

theorem Kept.offerTo {c : Copy} (h : Kept s₀ s) : Kept s₀ (s.offerTo c).2 := by
  unfold State.offerTo
  split
  · dsimp only
    exact .heldDiscard h
  · split
    · exact .panelOffer h
    · dsimp only
      exact .offer h

theorem Kept.dmaFrame (h : Kept s₀ s) : Kept s₀ (s.dmaFrame p octets).2 := by
  unfold State.dmaFrame
  extract_lets n
  split
  · exact .newFrame h
  · exact .newFrame (.setIsland h)

theorem Kept.nextRecord (h : Kept s₀ s) : Kept s₀ (s.nextRecord n) := .setLine h

theorem Kept.endPlay (h : Kept s₀ s) : Kept s₀ (s.endPlay n) := by
  unfold State.endPlay
  exact .when .setTabBits h

theorem Kept.skipRecords (h : Kept s₀ s) : Kept s₀ (s.skipRecords n k) := by
  induction k generalizing s with
  | zero => exact h
  | succ k ih =>
    unfold State.skipRecords
    split
    · exact h
    · split
      · exact .ite (ih (.nextRecord h)) h
      · exact h

theorem Kept.recordFetch (h : Kept s₀ s) : Kept s₀ (s.recordFetch n) := by
  unfold State.recordFetch
  extract_lets s1 e
  have hs1 : Kept s₀ s1 := .skipRecords h
  refine .ite (.endPlay hs1) ?_
  split
  · exact .endPlay (.nextRecord (.lineDrop (.countRecord hs1)))
  · split
    · exact hs1
    · extract_lets s2 p
      have hs2 : Kept s₀ s2 := .runToNs hs1
      clear_value s2
      refine .ite (.endPlay (.nextRecord (.lineDrop hs2))) <| .ite hs2 ?_
      split
      next f u hu => exact .setLine (.nextRecord (.snd hu (.dmaFrame (.countRecord hs2))))

theorem Runs.delayRecordFetch {line : Nat} (h : Kept s₀ s) : Runs s₀ (execDelayRecordFetch line s) :=
  .next (.when .recordFetch h)

theorem Kept.recordDue (h : Kept s₀ s) : Kept s₀ (s.recordDue n) := by
  unfold State.recordDue
  extract_lets d
  split
  · exact h
  · extract_lets s1 e s2
    have hs1 : Kept s₀ s1 := .setLine h
    have hs2 : Kept s₀ s2 := .runToNs hs1
    split
    · exact hs1
    · refine .ite (.endPlay (.release (.lineDrop hs1))) <|
        .ite (.endPlay (.release (.sidParity hs2))) <|
        .ite (.endPlay (.release (.lineDrop hs2))) ?_
      split
      next c u hu =>
        split
        next ok w hw =>
          have hq : Kept s₀ w := .snd hw (.offerTo (.snd hu (.eshCopy (.countNoSeq hs2))))
          exact .endPlay (.ite (.lineCount hq) (.lineDrop hq))

theorem Runs.delayRecordDue {line : Nat} (h : Kept s₀ s) : Runs s₀ (execDelayRecordDue line s) :=
  .next (.when .recordDue h)

/-! ### Machine/Streams -/

theorem Kept.meterRefill (h : Kept s₀ s) : Kept s₀ (s.meterRefill m t) := .setMeter h

theorem Kept.meterFull (h : Kept s₀ s) : Kept s₀ (s.meterFull m) := .setMeter h

theorem Kept.meterClip (h : Kept s₀ s) : Kept s₀ (s.meterClip m) := .setMeter h

theorem Kept.setTakeAny {f : Nat} (h : Kept s₀ s) : Kept s₀ (s.setTakeAny f) := .setRecov (.setTabBits h)

theorem Kept.sidPut {e : SidEntry} (h : Kept s₀ s) : Kept s₀ (s.sidPut e d v) := .setTab h

theorem Kept.sidApply {e : SidEntry} {ws : List (Nat × Word)} (h : Kept s₀ s) : Kept s₀ (s.sidApply e ws) := by
  unfold State.sidApply
  extract_lets put s1 was m was' r r' d u
  have hput : ∀ {t}, Kept s₀ t → Kept s₀ (put t) := fun ht => .foldl (fun _ _ => .sidPut) ht
  have hs1 : Kept s₀ s1 := .update h
  have hm : Kept s₀ m := hput (.meterRefill hs1)
  have hr : Kept s₀ r := hput hs1
  have hr' : Kept s₀ r' := .when .setTakeAny hr
  have hu : Kept s₀ u := .ite (.ite (.meterFull hm) (.meterClip hm)) <| .ite (.ite (.setRecov hr') hr') hr
  exact .when .clearBad hu

theorem Kept.sidCollect {e : SidEntry} (h : Kept s₀ s) : Kept s₀ (s.sidCollect e d data) := by
  unfold State.sidCollect
  exact .ite (.sidApply (.when .bump h)) (.update (.when .bump h))

theorem Kept.sidWrite (h : Kept s₀ s) : Kept s₀ (s.sidWrite o off data) := by
  unfold State.sidWrite
  split
  · exact h
  · exact .ite (.refuse h) (.ite h (.sidCollect h))

theorem Runs.sidEntryWrite {data : Word} (h : Kept s₀ s) : Runs s₀ (execSidEntryWrite off data s) :=
  .next (.ite (.gatedTab (fun _ => .sidWrite) h) h)

theorem Kept.clearLatch {x : Unblock} (h : Kept s₀ s) : Kept s₀ (s.clearLatch x) := by
  unfold State.clearLatch
  exact .ite (.when .setTabBits h) (.setTabBits h)

theorem Kept.settleUnblocks (h : Kept s₀ s) : Kept s₀ s.settleUnblocks := .foldl (fun _ _ => .clearLatch) (.update h)

theorem Kept.unblock {meter : Bool} (h : Kept s₀ s) : Kept s₀ (s.unblock meter i) := .settleUnblocks (.update h)

theorem Runs.unblockFilter {index : Nat} (h : Kept s₀ s) : Runs s₀ (execUnblockFilter index s) :=
  .next (.ite (.gated (fun _ => .unblock) h) h)

theorem Runs.clearMarkRed {index : Nat} (h : Kept s₀ s) : Runs s₀ (execClearMarkRed index s) :=
  .next (.ite (.gated (fun _ => .unblock) h) h)

theorem Kept.bind {c : Cmd} (h : Kept s₀ s) : Kept s₀ (s.bind c) := by
  unfold State.bind
  extract_lets e p bucket
  refine .ite (.finish h) <|
    .ite (.finish h) <|
    .ite (.finish h) <|
    .ite (.finish h) <|
    .ite (.finish h) <|
    .ite (.finish h) <|
    ?_
  split
  · exact .finish h
  · exact .finishOk (.setEntry h)

theorem Runs.streamBind (h : Kept s₀ s) : Runs s₀ (execStreamBind s) := .next (.xci (fun _ _ => .bind) h)

theorem Kept.unbind {c : Cmd} (h : Kept s₀ s) : Kept s₀ (s.unbind c) := by
  unfold State.unbind
  extract_lets i zero
  have hz : Kept s₀ (zero s) := .finishOk (.clearBad (.setEntry h))
  exact .ite (.ite (.finish h) hz) (.ite (.finish h) (.ite (.finish h) hz))

theorem Runs.streamUnbind (h : Kept s₀ s) : Runs s₀ (execStreamUnbind s) := .next (.xci (fun _ _ => .unbind) h)

theorem Kept.andThen {α β : Type} {m : Met α} {f : α → State → Met β} (hf : ∀ x t, Kept s₀ t → Kept s₀ (f x t).state)
    (h : Kept s₀ m.state) : Kept s₀ (m.andThen f).state := by
  cases m with
  | pass x s => exact hf x s h
  | drop s => exact h

theorem Kept.checked {region : Nat} {is : List Nat} {k : State → Met α} (hk : ∀ t, Kept s₀ t → Kept s₀ (k t).state)
    (h : Kept s₀ s) : Kept s₀ (s.checked region is k).state := by
  unfold State.checked
  split
  · exact .sidParity h
  · exact hk s h

theorem Kept.identify (h : Kept s₀ s) : Kept s₀ (s.identify f).state := by
  unfold State.identify
  refine .checked (fun _ ht => ?_) h
  split
  · exact ht
  · split
    · exact ht
    · exact .bump ht

theorem Kept.useIsh (h : Kept s₀ s) : Kept s₀ (s.useIsh handle).state := by
  unfold State.useIsh
  refine .checked (fun _ handle => ?_) h
  split
  · exact .bump handle
  · exact handle

theorem Kept.filterDrop (h : Kept s₀ s) : Kept s₀ (s.filterDrop i w).state := .bumpTab h

theorem Kept.colour (h : Kept s₀ s) : Kept s₀ (s.colour m f).2 := by
  unfold State.colour
  extract_lets k s1 d l
  split
  · dsimp only
    exact .meterRefill h
  · split
    · dsimp only
      exact .setMeter (.meterRefill h)
    · split
      · dsimp only
        exact .setMeter (.meterRefill h)
      · dsimp only
        exact .meterRefill h

theorem Kept.meterAct (h : Kept s₀ s) : Kept s₀ (s.meterAct i m f).state := by
  unfold State.meterAct
  refine .checked (fun t ht => ?_) h
  split
  · exact ht
  · split
    next c u hu =>
      have hc : Kept s₀ u := .snd hu (.colour ht)
      split
      · exact .bumpTab hc
      · dsimp only
        split
        · exact .filterDrop (.bumpTab hc)
        · exact .bumpTab hc
      · exact .filterDrop (.ite (.setTabBits (.bumpTab hc)) (.bumpTab hc))

theorem Kept.filter (h : Kept s₀ s) : Kept s₀ (s.filter i f).state := by
  unfold State.filter
  refine .checked (fun _ ht => ?_) h
  extract_lets k
  split
  · exact ht
  · split
    · exact .filterDrop (.bumpTab ht)
    · split
      · exact .filterDrop (.bumpTab ht)
      · split
        · exact .filterDrop (.ite (.setTabBits (.bumpTab ht)) (.bumpTab ht))
        · split
          · exact .filterDrop (.bumpTab ht)
          · split
            · exact .meterAct (.bumpTab (.bumpTab ht))
            · exact .bumpTab (.bumpTab ht)

theorem Kept.useFilter (h : Kept s₀ s) : Kept s₀ (s.useFilter handle f).state := by
  unfold State.useFilter
  split
  · exact .filter h
  · exact h

theorem Kept.restartTimer (h : Kept s₀ s) : Kept s₀ (s.restartTimer r) := .setRecov h

theorem Kept.latentCount {accepted : Bool} (h : Kept s₀ s) : Kept s₀ (s.latentCount r isSeq accepted) :=
  .when .setRecov h

theorem Kept.accept (h : Kept s₀ s) : Kept s₀ (s.accept r isSeq).state := .latentCount (.restartTimer (.bumpTab h))

theorem Kept.duplicate (h : Kept s₀ s) : Kept s₀ (s.duplicate r isSeq).state := .latentCount (.bumpTab h)

theorem Kept.addTab (h : Kept s₀ s) : Kept s₀ (s.addTab k n) := .setTab h

theorem Kept.setSeq {history : Nat} (h : Kept s₀ s) : Kept s₀ (s.setSeq r n history) := by
  unfold State.setSeq
  exact .setRecov (.setTabBits (.setTabBits h))

theorem Kept.vector (h : Kept s₀ s) : Kept s₀ (s.vector r n isSeq).state := by
  unfold State.vector
  extract_lets h1 d hist
  split
  · exact .accept (.clearBad (.setSeq h))
  · split
    · exact .bumpTab h
    · split
      · split
        · exact .duplicate h
        · exact .accept (.bumpTab (.setRecov h))
      · exact .accept (.ite (.bumpTab (.setSeq (.addTab h))) (.setSeq (.addTab h)))

theorem Kept.matching (h : Kept s₀ s) : Kept s₀ (s.matching r n isSeq).state := by
  unfold State.matching
  extract_lets any d
  split
  · exact .accept (.ite (.bumpTab (.setSeq h)) (.setSeq h))
  · exact .duplicate h

theorem Kept.recover (h : Kept s₀ s) : Kept s₀ (s.recover r f isSeq).state := by
  unfold State.recover
  refine .checked (fun _ ht => ?_) h
  extract_lets vec
  split
  · exact ht
  · refine .checked (fun _ ht => ?_) ht
    split
    · extract_lets s1
      split
      · exact .bumpTab ht
      · exact .bumpTab ht
    · split
      · exact .vector ht
      · exact .matching ht

theorem Kept.useRecovery (h : Kept s₀ s) : Kept s₀ (s.useRecovery handle f).state := by
  unfold State.useRecovery
  refine .andThen (fun _ _ handle => ?_) ?_
  · split
    · exact .recover handle
    · exact handle
  · split
    · exact .recover h
    · exact h

theorem Kept.useGen (h : Kept s₀ s) : Kept s₀ (s.useGen e f).state := by
  unfold State.useGen
  split
  · refine .checked (fun t ht => ?_) h
    split
    next n u hu => exact .snd hu (.generate ht)
  · exact h

theorem Kept.presentCopy {c : Copy} (h : Kept s₀ s) : Kept s₀ (s.presentCopy c) := .ite (.heldDiscard h) (.present h)

theorem Kept.sendCopies {hs : List Nat} {bad : Nat} (h : Kept s₀ s) : Kept s₀ (s.sendCopies f seq dei hs bad) :=
  .foldl (fun _ _ => .presentCopy) (.addUse (.countNoSeq (.bump (.eshCopies h))))

theorem Kept.queueUnpack (h : Kept s₀ s) : Kept s₀ (s.queueUnpack handle f) := by
  unfold State.queueUnpack
  exact .ite h (.modMix (.addUse h))

theorem Kept.offerLines (h : Kept s₀ s) : Kept s₀ (s.offerLines handle f) := .ite h (.foldl (fun _ _ => .offerLine) h)

theorem Kept.useFan (h : Kept s₀ s) : Kept s₀ (s.useFan e f seq dei).state := by
  unfold State.useFan
  refine .checked (fun _ ht => .checked (fun _ hu => ?_) ht) h
  show Kept s₀ (State.queueUnpack _ _ _)
  exact .queueUnpack (.sendCopies hu)

theorem Kept.classifyFrame (h : Kept s₀ s) : Kept s₀ (s.classifyFrame f).state := by
  refine .andThen (fun _ _ h₁ => ?_) (.identify h)
  refine .andThen (fun _ _ h₂ => ?_) (.useIsh h₁)
  refine .andThen (fun _ _ h₃ => ?_) (.useFilter h₂)
  refine .andThen (fun _ _ h₄ => ?_) (.useRecovery h₃)
  refine .andThen (fun _ _ h₅ => ?_) (.useGen h₄)
  exact .useFan (.offerLines h₅)

theorem Kept.classifyNext (h : Kept s₀ s) : Kept s₀ s.classifyNext := by
  unfold State.classifyNext
  split
  · exact h
  · extract_lets s1
    split
    · exact .settleUnblocks (.update h)
    · exact .settleUnblocks (.release (.ite (.classifyFrame (.update h)) (.bump (.update h))))

theorem Runs.classify {upsets : List Upset} (h : Kept s₀ s) : Runs s₀ (execClassify upsets s) :=
  .next (.ite (.classifyNext (.foldl (fun _ _ => .markBad) h)) h)

theorem Runs.recoveryResetTimer {f : Nat} (h : Kept s₀ s) : Runs s₀ (execRecoveryResetTimer f s) := by
  unfold execRecoveryResetTimer
  refine .next ?_
  split
  · exact h
  · exact .bumpTab (.setTakeAny (.runToLt h))

theorem Kept.latentTest {f : Nat} (h : Kept s₀ s) : Kept s₀ (s.latentTest f) := by
  unfold State.latentTest
  exact .ite (.raise (.bumpTab (.setRecov h))) (.setRecov h)

theorem Runs.latentTest {f : Nat} (h : Kept s₀ s) : Runs s₀ (execLatentTest f s) :=
  .next (.ite (.latentTest (.runPeriod h)) h)

theorem Runs.latentResetPeriod {f : Nat} (h : Kept s₀ s) : Runs s₀ (execLatentResetPeriod f s) :=
  .next (.ite (.bumpTab (.setRecov (.runPeriod h))) h)

/-! ### Machine/MixTab -/

theorem Kept.reachEngine (h : Kept s₀ s) : Kept s₀ (s.reachEngine m) := .when .run h

theorem Kept.reachMix (h : Kept s₀ s) : Kept s₀ (s.reachMix off) := by
  unfold State.reachMix
  split
  · exact .ite h (.reachEngine h)
  · exact h

theorem Kept.bankWrite {e : MixEntry} (h : Kept s₀ s) : Kept s₀ (s.bankWrite o e w data) := by
  unfold State.bankWrite
  exact .ite h (.ite (.refuse h) (.update (.clearBad (.setTab h))))

theorem Kept.liveWrite {e : MixEntry} (h : Kept s₀ s) : Kept s₀ (s.liveWrite o e w data) :=
  .ite h (.ite (.refuse h) (.ite (.when .clearBad (.update (.foldl (fun _ _ => .setTab) h))) (.update h)))

theorem Kept.mixWrite (h : Kept s₀ s) : Kept s₀ (s.mixWrite o off data) := by
  unfold State.mixWrite
  split
  · exact h
  · exact .ite h (.ite (.liveWrite h) (.bankWrite h))

theorem Runs.mixBankWrite {data : Word} (h : Kept s₀ s) : Runs s₀ (execMixBankWrite off data s) :=
  .next (.ite (.gatedTab (fun _ ht => .mixWrite (.reachMix ht)) h) h)

theorem Runs.mixLiveEntryWrite {data : Word} (h : Kept s₀ s) : Runs s₀ (execMixLiveEntryWrite off data s) :=
  .next (.ite (.gatedTab (fun _ ht => .mixWrite (.reachMix ht)) h) h)

/-! ### Machine/MixCommit -/

theorem Kept.freeStore {banks : List Nat} (h : Kept s₀ s) : Kept s₀ (s.freeStore banks) := by
  unfold State.freeStore
  exact .modMix h

theorem Kept.endDrain (h : Kept s₀ s) : Kept s₀ s.endDrain := by
  unfold State.endDrain
  exact .modMix (.freeStore h)

theorem Kept.takeStore {key : Nat} (h : Kept s₀ s) : Kept s₀ (s.takeStore key n) := .update h

theorem Kept.allocate {b : Nat} (h : Kept s₀ s) : Kept s₀ (s.allocate b) :=
  .foldl (fun _ _ ht => .ite (.modMix (.setTab (.takeStore ht))) (.takeStore ht)) h

theorem Kept.mixCells {rs : List Reserve} {up : Bool} (h : Kept s₀ s) : Kept s₀ (s.mixCells rs up) :=
  .foldl (fun _ _ => .setIsland) h

theorem Kept.showPlacement {b : Nat} {p : Placement} (h : Kept s₀ s) : Kept s₀ (s.showPlacement b p) := by
  unfold State.showPlacement
  exact .foldl (fun _ _ => .setTab) (.foldl (fun _ _ => .setTab) h)

theorem Kept.commitTime (h : Kept s₀ s) : Kept s₀ s.commitTime := by
  unfold State.commitTime
  exact .update (.run h)

theorem Kept.noteCommit {reason : Nat} (h : Kept s₀ s) : Kept s₀ (s.noteCommit st reason) := .modMix h

theorem Kept.acceptCommit {b : Nat} {p : Placement} (h : Kept s₀ s) : Kept s₀ (s.acceptCommit b a p) := by
  unfold State.acceptCommit
  exact .finish (.noteCommit (.modMix (.showPlacement (.allocate (.mixCells h)))))

theorem Kept.commit {c : Cmd} (h : Kept s₀ s) : Kept s₀ (s.commit c) := by
  unfold State.commit
  refine .ite (.finish h) <| .ite (.finish h) ?_
  extract_lets s1 b
  have hs1 : Kept s₀ s1 := .commitTime (.when .endDrain h)
  split
  · exact .finish (.noteCommit hs1)
  · exact .acceptCommit hs1

theorem Kept.dropCommit {x : Commit} (h : Kept s₀ s) : Kept s₀ (s.dropCommit x) := by
  unfold State.dropCommit
  exact .foldl (fun _ _ => .setTab) (.foldl (fun _ _ => .setTab) (.freeStore (.modMix (.mixCells h))))

theorem Kept.withdraw (h : Kept s₀ s) : Kept s₀ s.withdraw := by
  unfold State.withdraw
  split
  · exact .finish h
  · exact .ite (.finishOk (.dropCommit h)) (.finish h)

theorem Runs.mixCommit (h : Kept s₀ s) : Runs s₀ (execMixCommit s) :=
  .next (.xci (fun _ _ ht => .ite (.withdraw ht) (.commit ht)) h)

theorem Runs.mixWithdraw (h : Kept s₀ s) : Runs s₀ (execMixWithdraw s) :=
  .next (.xci (fun _ _ ht => .when .withdraw ht) h)

theorem Kept.mixStatus (h : Kept s₀ s) : Kept s₀ s.mixStatus := .finishOk h

theorem Runs.mixStatus (h : Kept s₀ s) : Runs s₀ (execMixStatus s) := .next (.xci (fun _ _ => .mixStatus) h)

theorem Runs.placementLoad (h : Kept s₀ s) : Runs s₀ (execPlacementLoad s) := by
  unfold execPlacementLoad
  refine .next ?_
  split
  · exact h
  · exact .modMix (.runToNs h)

theorem Kept.activate {x : Commit} (h : Kept s₀ s) : Kept s₀ (s.activate x) := by
  unfold State.activate
  exact .modMix (.setf h)

theorem Runs.mixActivation (h : Kept s₀ s) : Runs s₀ (execMixActivation s) := by
  unfold execMixActivation
  refine .next ?_
  split
  · exact h
  · exact .ite (.activate (.runToNs h)) h

theorem Runs.mixDrainEnd (h : Kept s₀ s) : Runs s₀ (execMixDrainEnd s) := by
  unfold execMixDrainEnd
  refine .next ?_
  split
  · exact h
  · exact .ite (.endDrain (.runToNs h)) h

theorem Runs.mixPoolReturn {group : Nat} (h : Kept s₀ s) : Runs s₀ (execMixPoolReturn group s) := by
  unfold execMixPoolReturn
  refine .next ?_
  refine .ite h ?_
  extract_lets mine
  clear_value mine
  split
  · exact h
  · exact .modMix (.mixCells (.runToNs h))

/-! ### Machine/Arm -/

theorem Kept.arm (h : Kept s₀ s) : Kept s₀ (s.arm p) := by
  unfold State.arm
  exact .ite (.finish h) (.ite (.finish h) (.ite (.finish h) (.finish (.refreshDue (.modSen (.setf (.setf h)))))))

theorem Runs.sentenceArm (h : Kept s₀ s) : Runs s₀ (execSentenceArm s) := .next (.xci (fun _ _ => .arm) h)

/-! ### Machine/Cxm -/

theorem Kept.setCxlState (h : Kept s₀ s) : Kept s₀ (s.setCxlState c v) := .setf h

theorem Kept.startEnumIn {wait : Nat} (h : Kept s₀ s) : Kept s₀ (s.startEnumIn wait c) := .setCxl (.setCxlState h)

theorem Kept.startEnum (h : Kept s₀ s) : Kept s₀ (s.startEnum c) := .startEnumIn h

theorem Kept.enumWrite (h : Kept s₀ s) : Kept s₀ (s.enumWrite o data c) := by
  unfold State.enumWrite
  exact .ite h (.ite (.refuse h) (.startEnumIn h))

theorem Runs.cxmEnum (h : Kept s₀ s) : Runs s₀ (execCxmEnum c s) := .atUnit h (.ite (.gated (fun _ => .enumWrite) h) h)

theorem Kept.dropEntry {x : Option Extent} (h : Kept s₀ s) : Kept s₀ (s.dropEntry k x c) := .ite (.bump (.setTab h)) h

theorem Kept.dropEntries (h : Kept s₀ s) : Kept s₀ (s.dropEntries c) := by
  unfold State.dropEntries
  exact .foldl (fun _ _ => .dropEntry) (.foldl (fun _ _ => .dropEntry) h)

theorem Kept.trainedAt {d : CxlDevice} (h : Kept s₀ s) : Kept s₀ (s.trainedAt c d) := by
  unfold State.trainedAt
  exact .ite (.raise (.setf (.setf (.setf h)))) (.setf (.setf (.setf h)))

theorem Kept.mapPort {d : CxlDevice} (h : Kept s₀ s) : Kept s₀ (s.mapPort c d) := by
  unfold State.mapPort
  exact .raise (.setCxlState (.dropEntries (.setCxl (.setf (.setf (.setf (.setf (.setf (.setf (.setf h))))))))))

theorem Kept.enumerated {d : CxlDevice} (h : Kept s₀ s) : Kept s₀ (s.enumerated c d) :=
  .ite (.setCxlState h) <|
  .ite (.setCxlState h) <|
  .ite (.setCxlState (.trainedAt h)) <|
  .ite (.setCxlState (.trainedAt h)) <|
  .mapPort <| .trainedAt h

theorem Runs.enumerationDone {dev : CxlDevice} (h : Kept s₀ s) : Runs s₀ (execEnumerationDone c dev s) :=
  .atUnit h (.ite (.enumerated (.runToLt h)) h)

theorem Kept.readFail {poison : Bool} (h : Kept s₀ s) : Kept s₀ (s.readFail c off poison) := by
  unfold State.readFail
  exact .ite h (.ite (.bump (.setCxl h)) (.poisonRead (.setCxl h)))

theorem Runs.cxlReadFail {poison : Bool} (h : Kept s₀ s) : Runs s₀ (execCxlReadFail c off poison s) :=
  .atUnit h (.readFail h)

theorem Kept.wipeCxl {failed : Bool} (h : Kept s₀ s) : Kept s₀ (s.wipeCxl failed c) := by
  unfold State.wipeCxl
  exact .ite (.setCxl (.update h)) (.setCxl h)

theorem Kept.haltWipe {x : Transition} {y : Nat × Nat} (h : Kept s₀ s) : Kept s₀ (s.haltWipe x y) := by
  unfold State.haltWipe
  exact .ite h (.modBst (.ite h (.wipeCxl h)))

theorem Kept.haltWipes {f : Nat → Bool} (h : Kept s₀ s) : Kept s₀ (s.haltWipes f) := by
  unfold State.haltWipes
  split
  · exact h
  · exact .foldl (fun _ _ => .haltWipe) h

theorem Runs.cxlLinkDown (h : Kept s₀ s) : Runs s₀ (execCxlLinkDown c s) :=
  .atUnit h (.ite (.raise (.bump (.setCxlState (.haltWipes h)))) h)

/-! ### Machine/MixWindows -/

theorem Kept.setBatch (h : Kept s₀ s) : Kept s₀ (s.setBatch b) := .modMix h

theorem Kept.dropBatch (h : Kept s₀ s) : Kept s₀ (s.dropBatch e d) := .modMix h

theorem Kept.mapBatches {f : Batch → Batch} (h : Kept s₀ s) : Kept s₀ (s.mapBatches d f) := .modMix h

theorem Kept.silence {is : List Nat} (h : Kept s₀ s) : Kept s₀ (s.silence d is) := .mapBatches h

theorem Kept.joinBatch {xs ys : List Win} (h : Kept s₀ s) : Kept s₀ (s.joinBatch xs ys d e) := by
  unfold State.joinBatch
  extract_lets sums tiles s1
  have hs1 : Kept s₀ s1 := .ite h (.modMix h)
  split
  · exact .ite hs1 (.setBatch hs1)
  · exact hs1

theorem Kept.fixAt {x : Win} (h : Kept s₀ s) : Kept s₀ (s.fixAt x d) := by
  unfold State.fixAt
  exact .ite h (.ite h (.foldl (fun _ _ => .joinBatch) h))

theorem Kept.noDeadline {x : Win} (h : Kept s₀ s) : Kept s₀ (s.noDeadline x) := .ite h (.bump (.runToNs h))

theorem Kept.readForFix {x : Win} (h : Kept s₀ s) : Kept s₀ (s.readForFix x upsets) := .readClauses h

theorem Kept.windowFix (h : Kept s₀ s) : Kept s₀ (s.windowFix i k upsets) := by
  unfold State.windowFix
  split
  · exact h
  · split
    · exact .noDeadline h
    · refine .ite (.bump h) ?_
      extract_lets t
      have ht : Kept s₀ t := .readForFix (.runToNs h)
      split
      · exact .noDeadline ht
      · exact .fixAt ht

theorem Runs.windowFix {sum : Nat} (h : Kept s₀ s) : Runs s₀ (execWindowFix sum k s upsets) :=
  .next (.when .windowFix h)

theorem Kept.freeze (h : Kept s₀ s) : Kept s₀ (s.freeze b) := by
  unfold State.freeze
  exact .setBatch (.modMix (.bump h))

theorem Kept.chooseSource {black : Bool} (h : Kept s₀ s) : Kept s₀ (s.chooseSource m n black v).2 := by
  unfold State.chooseSource
  split
  · exact h
  · split
    · dsimp only
      exact .bump h
    · dsimp only
      exact .bump h

theorem Kept.chooseTile (h : Kept s₀ s) : Kept s₀ (s.chooseTile x n t) := by
  unfold State.chooseTile
  extract_lets sm code e
  split
  next src step done hsrc =>
    extract_lets s1
    have hs1 : Kept s₀ s1 := .when .setTab h
    split
    next l u hu => exact .modMix (.snd hu (.foldl_snd (fun _ _ => .chooseSource) hs1))

theorem Kept.choosePictures (h : Kept s₀ s) : Kept s₀ (s.choosePictures x) := by
  unfold State.choosePictures
  extract_lets e
  refine .ite h ?_
  split
  · exact h
  · exact .foldl (fun _ _ => .chooseTile) h

theorem Kept.readRows {ports : List Nat} {rows : List RowNeed} (h : Kept s₀ s) : Kept s₀ (s.readRows ports rows).2 := by
  unfold State.readRows
  dsimp only
  exact .foldl (fun _ _ => .countRead) h

theorem Kept.checkFetch (h : Kept s₀ s) : Kept s₀ (s.checkFetch e d x t) := by
  unfold State.checkFetch
  extract_lets rows
  split
  · exact h
  · refine .ite h ?_
    split
    next ok u hu =>
      have hf : Kept s₀ u := by
        split at hu
        · exact .snd hu (.readRows h)
        · cases hu
          exact h
      exact .ite (.setBatch hf) (.bump (.setBatch hf))

theorem Kept.cutVideo (h : Kept s₀ s) : Kept s₀ (s.cutVideo e d x) := by
  unfold State.cutVideo
  exact .ite h (.modMix (.foldl (fun _ _ => .checkFetch) (.choosePictures h)))

theorem Kept.decide' (h : Kept s₀ s) : Kept s₀ (s.decide' b) := .modMix h

theorem Kept.cutoff (h : Kept s₀ s) : Kept s₀ (s.cutoff b) := by
  unfold State.cutoff
  exact .ite (.mapBatches (.decide' (.dropBatch (.runToNs h)))) (.foldl (fun _ _ => .cutVideo) (.freeze (.runToNs h)))

theorem Runs.batchCutoff (h : Kept s₀ s) : Runs s₀ (execBatchCutoff e d s) := by
  unfold execBatchCutoff
  refine .next ?_
  split
  · exact h
  · exact .when .cutoff h

theorem Runs.rowFetchDone {tile : Nat} (h : Kept s₀ s) : Runs s₀ (execRowFetchDone tile d ok s) :=
  .next (.when .modMix h)

theorem Kept.storeParity (h : Kept s₀ s) : Kept s₀ (s.storeParity idx) := by
  unfold State.storeParity
  exact .raise (.ite (.bump h) (.setf (.setf (.bump h))))

theorem Kept.tableParity {table : Nat} (h : Kept s₀ s) : Kept s₀ (s.tableParity table idx) := by
  unfold State.tableParity
  exact .raise (.ite h (.bump h))

theorem Kept.noteUpset {bank : Nat} {u : Upset} (h : Kept s₀ s) : Kept s₀ (s.noteUpset bank u) := by
  unfold State.noteUpset
  exact .ite (.markBad h) (.ite (.markBad h) (.markBad h))

theorem Kept.batchParity {upsets : List Upset} (h : Kept s₀ s) : Kept s₀ (s.batchParity b upsets) := by
  unfold State.batchParity
  exact .foldl (fun _ _ => .clearBad) <| .foldl (fun _ _ => .storeParity) <| .foldl (fun _ _ => .tableParity) <|
    .silence <| .foldl (fun _ _ => .noteUpset) h

theorem Kept.lateSums {is : List Nat} (h : Kept s₀ s) : Kept s₀ (s.lateSums d is) := by
  unfold State.lateSums
  exact .foldl (fun _ _ => .bump) (.mapBatches (.silence h))

theorem Kept.allot {upsets : List Upset} (h : Kept s₀ s) : Kept s₀ (s.allot b upsets) := by
  unfold State.allot
  extract_lets start s1 fin s2
  have hs2 : Kept s₀ s2 := .batchParity (.setBatch (.runToNs h))
  exact .ite hs2 (.lateSums hs2)

theorem Runs.allotmentStart {upsets : List Upset} (h : Kept s₀ s) : Runs s₀ (execAllotmentStart e d upsets s) := by
  unfold execAllotmentStart
  refine .next ?_
  split
  · exact h
  · exact .when .allot h

theorem Kept.abandonBatches (h : Kept s₀ s) : Kept s₀ s.abandonBatches := by
  unfold State.abandonBatches
  exact .modMix (.foldl (fun _ _ => .bump) h)

theorem Kept.rebalance (h : Kept s₀ s) : Kept s₀ (s.rebalance m) := by
  unfold State.rebalance
  exact .showPlacement (.modMix (.ite (.bump (.setf (.bump h))) (.setf (.bump h))))

theorem Runs.rebalance (h : Kept s₀ s) : Runs s₀ (execRebalance m s) := .atUnit h (.ite (.rebalance (.runToNs h)) h)

/-! ### Machine/Ptp -/

theorem Kept.refreshDelay (h : Kept s₀ s) : Kept s₀ (s.refreshDelay p) := by
  unfold State.refreshDelay
  exact .ite (.setf (.setf (.setf h))) (.setf h)

theorem Kept.accepted {probe : Bool} (h : Kept s₀ s) : Kept s₀ (s.accepted p probe) := by
  unfold State.accepted
  exact .ite (.setf (.refreshDelay (.setf h))) (.refreshDelay (.setf h))

theorem Kept.setSynced {b : Bool} (h : Kept s₀ s) : Kept s₀ (s.setSynced b) := by
  unfold State.setSynced
  exact .ite (.raise (.bump (.setf h))) (.setf h)

theorem Kept.resync (h : Kept s₀ s) : Kept s₀ s.resync := by
  unfold State.resync
  split
  · exact .setSynced h
  · exact .setSynced h
  · exact .setSynced h

theorem Kept.takeOffset {corr origin : Int} {len : Nat} {msg : List Byte} (h : Kept s₀ s) :
    Kept s₀ (s.takeOffset p rx corr origin len msg) := by
  unfold State.takeOffset
  exact .resync (.setf (.modTime (.hostRing (.bump h))))

theorem Kept.slaveSync (h : Kept s₀ s) : Kept s₀ (s.slaveSync p l k rx) := by
  unfold State.slaveSync
  extract_lets msg len
  refine .ite (.ite (.resync (.modTime (.setf (.modTime h)))) (.takeOffset (.setf (.modTime h)))) ?_
  split
  · exact .ite (.ite (.bump (.modTime h)) (.takeOffset (.modTime h))) (.hostRing h)
  · exact .hostRing h

theorem Kept.answerPdelay (h : Kept s₀ s) : Kept s₀ (s.answerPdelay p l k rx) := by
  unfold State.answerPdelay
  extract_lets side t
  split
  · exact .ite (.modTsu (.sendPtp h)) (.sendPtp h)
  · exact .sendPtp h

theorem Kept.pdComplete {o : PdOpen} {t1 t2 t3 t4 : Int} {oneStep : Bool} (h : Kept s₀ s) :
    Kept s₀ (s.pdComplete p o t1 t2 t3 t4 oneStep) := by
  unfold State.pdComplete
  exact .ite (.bump (.modTsu h)) (.accepted (.setf (.modTsu (.modTsu h))))

theorem Kept.takeResp {side : Nat} (h : Kept s₀ s) : Kept s₀ (s.takeResp p l k rx side) := by
  unfold State.takeResp
  split
  · exact h
  · refine .ite h <| .ite ?_ ?_
    · refine .ite (.modTsu h) ?_
      split
      · exact .pdComplete h
      · exact h
    · split
      · exact .pdComplete h
      · exact h

theorem Kept.takePtp (h : Kept s₀ s) : Kept s₀ (s.takePtp p l k) := by
  unfold State.takePtp
  exact .ite (.bump h) <|
    .ite (.hostRing h) <|
    .ite (.when .answerPdelay h) <|
    .ite (.when .takeResp h) <|
    .ite (.slaveSync h) <|
    .hostRing h

theorem Kept.rxPtp (h : Kept s₀ s) : Kept s₀ (s.rxPtp p octets) := by
  unfold State.rxPtp
  split
  · exact h
  · exact .rxLocal (fun _ => .takePtp) h

theorem Runs.ptpMessageRx (h : Kept s₀ s) : Runs s₀ (execPtpMessageRx p octets s) := .atUnit h (.rxPtp h)

theorem Runs.syncRx (h : Kept s₀ s) : Runs s₀ (execSyncRx p octets s) := .atUnit h (.rxPtp h)

theorem Runs.pdelayReqRx (h : Kept s₀ s) : Runs s₀ (execPdelayReqRx p octets s) := .atUnit h (.rxPtp h)

theorem Runs.pdelayRespRx (h : Kept s₀ s) : Runs s₀ (execPdelayRespRx p octets s) := .atUnit h (.rxPtp h)

theorem Kept.sendSync (h : Kept s₀ s) : Kept s₀ (s.sendSync p) := by
  unfold State.sendSync
  extract_lets isSync old s1
  have hs1 : Kept s₀ s1 := .foldl (fun _ _ ht => .release (.leftClass (.bump ht))) (.modPort h)
  split
  · exact .bump hs1
  · exact .sendControl hs1

theorem Kept.sendAt {skipped : Field} {f : State → State} (hf : ∀ t, Kept s₀ t → Kept s₀ (f t)) (h : Kept s₀ s) :
    Kept s₀ (s.sendAt p n skipped f) := by
  unfold State.sendAt
  exact .ite (.bump (.runToNs h)) (.ite (hf _ (.runToNs h)) h)

theorem Runs.syncTx (h : Kept s₀ s) : Runs s₀ (execSyncTx p s) := .atUnit h (.ite (.sendAt (fun _ => .sendSync) h) h)

theorem Runs.syncTimeout (h : Kept s₀ s) : Runs s₀ (execSyncTimeout s) := .next (.ite h (.resync (.setf (.runToLt h))))

theorem Kept.startPdelay (h : Kept s₀ s) : Kept s₀ (s.startPdelay p) := by
  unfold State.startPdelay
  extract_lets seq
  split
  · exact .bump h
  · exact .sendControl (.modTsu h)

theorem Runs.pdelayReqTx (h : Kept s₀ s) : Runs s₀ (execPdelayReqTx p s) :=
  .atUnit h (.ite (.startPdelay (.runToNs h)) h)

theorem Runs.pdelayTimeout (h : Kept s₀ s) : Runs s₀ (execPdelayTimeout p s) := by
  unfold execPdelayTimeout
  refine .atUnit h ?_
  split
  · exact h
  · exact .bump (.modTsu (.runToLt h))

theorem Runs.delayStale (h : Kept s₀ s) : Runs s₀ (execDelayStale p s) :=
  .atUnit h (.ite (.raise (.setf (.runToLt h))) h)

theorem Kept.sendProbe {window : Bool} (h : Kept s₀ s) : Kept s₀ (s.sendProbe p window residual) := by
  unfold State.sendProbe
  extract_lets d old s1 s2 s3 s4
  have hs4 : Kept s₀ s4 := .modTsu (.foldl (fun _ _ ht => .release (.bump ht)) (.foldl (fun _ _ => .leftClass) (.modPort h)))
  exact .ite (.sendDue hs4) (.sendControl hs4)

theorem Runs.probeTx (h : Kept s₀ s) : Runs s₀ (execProbeTx p residual s) :=
  .atUnit h (.ite (.sendAt (fun _ => .sendProbe) h) h)

theorem Kept.takeExchange {t1 t2 t3 t4 : Int} (h : Kept s₀ s) : Kept s₀ (s.takeExchange p t1 t2 t3 t4) := by
  unfold State.takeExchange
  exact .ite (.bump h) (.accepted (.ite (.setf (.setf (.modTsu h))) (.setf (.modTsu h))))

theorem Kept.formExchange (h : Kept s₀ s) : Kept s₀ (s.formExchange p l) := by
  unfold State.formExchange
  extract_lets x flags seq
  split
  · exact .ite h (.ite (.bump h) (.takeExchange h))
  · exact h

theorem Kept.takeProbe (h : Kept s₀ s) : Kept s₀ (s.takeProbe p l residual) := by
  unfold State.takeProbe
  exact .ite (.bump (.modTsu (.bump h))) (.calibrate (.modTsu (.formExchange (.modTsu (.bump h)))))

theorem Runs.probeRx (h : Kept s₀ s) : Runs s₀ (execProbeRx p octets residual s) :=
  .atUnit h (.ite (.rxLocal (fun _ => .takeProbe) h) h)

theorem Kept.recalibrate (h : Kept s₀ s) : Kept s₀ (s.recalibrate p) := by
  unfold State.recalibrate
  exact .refreshDelay (.modTsu (.setf (.setf (.setf h))))

theorem Kept.newSide (h : Kept s₀ s) : Kept s₀ (s.newSide p) := .modTsu h

theorem Runs.calStart (h : Kept s₀ s) : Runs s₀ (execCalStart s) :=
  .next (.xci (fun _ _ ht => .ite (.finishOk (.recalibrate ht)) (.finish ht)) h)

theorem Runs.calResult (h : Kept s₀ s) : Runs s₀ (execCalResult s) := .next (.xci (fun _ _ => .finishOk) h)

/-! ### Machine/Transmit -/

theorem Kept.mapHeads {f : Nat → Copy → Copy} (h : Kept s₀ s) : Kept s₀ (s.mapHeads p f) := .modPort h

theorem Kept.deferControl (h : Kept s₀ s) : Kept s₀ (s.deferControl p t) := by
  unfold State.deferControl
  split
  · exact .ite (.bump (.modPort h)) h
  · exact h

theorem Kept.countDefer (h : Kept s₀ s) : Kept s₀ (s.countDefer p t) := by
  unfold State.countDefer
  exact .deferControl (.bump (.mapHeads h))

theorem Kept.countHeld (h : Kept s₀ s) : Kept s₀ (s.countHeld p) := .ite h (.bump (.mapHeads h))

theorem Kept.sampleDelay {x : Copy} (h : Kept s₀ s) : Kept s₀ (s.sampleDelay p c t x) := by
  unfold State.sampleDelay
  exact .ite (.modPort h) (.modPort h)

theorem Kept.countFrag {f : Fit} (h : Kept s₀ s) : Kept s₀ (s.countFrag p f) := by
  unfold State.countFrag
  split
  · exact .bump h
  · exact h

theorem Kept.creditTo (h : Kept s₀ s) : Kept s₀ (s.creditTo p c t) := .when .modPort h

theorem Kept.begin {ch : Choice} (h : Kept s₀ s) : Kept s₀ (s.begin p t ch) := by
  unfold State.begin
  extract_lets s1 mk
  split
  · exact .modPort (.countFrag (.stampTx (.modPort (.creditTo h))))
  · exact .modPort (.countFrag (.stampTx (.sampleDelay (.leftClass (.modPort (.creditTo h))))))
  · exact .modPort <| .countFrag <| .modPort <| .sampleDelay <| .leftClass <| .leaveSubq <|
      .ite (.moveTokens (.creditTo h)) <|
      .creditTo h
  · exact .modPort (.modPort (.countFrag (.creditTo h)))

theorem Kept.ageDrop (h : Kept s₀ s) : Kept s₀ (s.ageDrop p) := by
  unfold State.ageDrop
  refine .discardWhere (fun _ _ ht => ?_) h
  extract_lets t
  split
  · exact .bumpTab (.bump ht)
  · exact .bump ht

theorem Kept.preempt (h : Kept s₀ s) : Kept s₀ (s.preempt p) := by
  unfold State.preempt
  split
  · exact h
  · extract_lets te
    split
    · exact h
    · exact .begin (.modPort (.countCut h))

theorem Kept.select (h : Kept s₀ s) : Kept s₀ (s.select p) := by
  unfold State.select
  extract_lets s1 s2 t s3
  have hs1 : Kept s₀ s1 := .dropBarred (.ageDrop (.unsentDrop h))
  have hs2 : Kept s₀ s2 := .syncCredit (.countHeld hs1)
  have hs3 : Kept s₀ s3 := .countDefer hs2
  refine .ite hs1 ?_
  split
  · exact .preempt hs2
  · split
    · exact hs3
    · exact .begin hs3

theorem Kept.lookAhead (h : Kept s₀ s) : Kept s₀ (s.lookAhead p upsets) := .regate (.readClauses h)

theorem Runs.transmissionSelection (h : Kept s₀ s) : Runs s₀ (execTransmissionSelection p s upsets) :=
  .atUnit h (.ite (.select (.lookAhead h)) h)

theorem Kept.txDone (h : Kept s₀ s) : Kept s₀ (s.txDone p) := by
  unfold State.txDone
  split
  · exact h
  · extract_lets s1 y s2
    have hs2 : Kept s₀ s2 := .modPort (.syncCredit (.runToLt h))
    exact .ite (.release (.ite hs2 (.ite (.ite hs2 (.bump hs2)) (.bump (.bump hs2))))) (.modPort hs2)

theorem Kept.enqueueNext (h : Kept s₀ s) : Kept s₀ (s.enqueueNext p) := by
  unfold State.enqueueNext
  split
  · exact h
  · exact .ite (.release (.bump (.update h))) (.offer (.update h))

theorem Runs.frameEnqueue (h : Kept s₀ s) : Runs s₀ (execFrameEnqueue p s) := .atUnit h (.when .enqueueNext h)

theorem Kept.spoilWire (h : Kept s₀ s) : Kept s₀ (s.spoilWire p fid) := .modPort h

theorem Kept.panelSpoil (h : Kept s₀ s) : Kept s₀ (s.panelSpoil t fid) := by
  unfold State.panelSpoil
  exact .foldl (fun _ _ ht => .release (.bump ht)) (.modPanel h)

theorem Kept.stageParity {cell : Nat} (h : Kept s₀ s) : Kept s₀ (s.stageParity f cell) := by
  unfold State.stageParity
  extract_lets s1 s2 s3 n m s4 s5
  have hs2 : Kept s₀ s2 := .foldl (fun _ _ ht => .discardWhere (fun _ _ => .bump) (.spoilWire ht)) (.setFrame h)
  have hs3 : Kept s₀ s3 := .foldl (fun _ _ => .panelSpoil) hs2
  have hs4 : Kept s₀ s4 := .update hs3
  exact .raise (.foldl (fun _ _ => .release) hs4)

theorem Kept.readReturned (h : Kept s₀ s) : Kept s₀ (s.readReturned fid) := by
  unfold State.readReturned
  exact .foldl (fun _ _ => .modPort) h

theorem Runs.stageCellReadDone {cell : Nat} {parityError : Bool} (h : Kept s₀ s) :
    Runs s₀ (execStageCellReadDone fid cell parityError s) := by
  unfold execStageCellReadDone
  refine .next ?_
  split
  · exact h
  · exact .ite (.stageParity h) (.readReturned h)

theorem Runs.ageExpiry (h : Kept s₀ s) : Runs s₀ (execAgeExpiry p s) := by
  unfold execAgeExpiry
  refine .atUnit h ?_
  split
  · exact h
  · exact .ageDrop (.runToLt h)

theorem Runs.depthSample (h : Kept s₀ s) : Runs s₀ (execDepthSample s) :=
  .next (.ite (.foldl (fun _ _ => .modPort) (.runPeriod h)) h)

theorem Kept.tokenRules {q : Nat} (h : Kept s₀ s) : Kept s₀ (s.tokenRules p c q w data) := by
  unfold State.tokenRules
  exact .ite (.modPort h) (.ite (.modPort h) (.ite (.modPort h) (.when .modPort h)))

theorem Kept.subqWrite (h : Kept s₀ s) : Kept s₀ (s.subqWrite off data) := by
  unfold State.subqWrite
  exact .ite h (.setTab (.tokenRules h))

theorem Runs.subqEntryWrite {data : Word} (h : Kept s₀ s) : Runs s₀ (execSubqEntryWrite off data s) :=
  .next (.ite (.gatedTab (fun _ => .subqWrite) h) h)

theorem Kept.resizePool {dma : Bool} (h : Kept s₀ s) : Kept s₀ (s.resizePool p dma v) := by
  unfold State.resizePool
  exact .poolLow (.setIsland (.setf h))

theorem Kept.poolWrite {dma : Bool} (h : Kept s₀ s) : Kept s₀ (s.poolWrite o p dma data) := by
  unfold State.poolWrite
  exact .ite (.refuse h) (.resizePool h)

theorem Runs.qshPoolWrite {dma : Bool} {value : Nat} (h : Kept s₀ s) : Runs s₀ (execQshPoolWrite p dma value s) :=
  .atUnit h (.ite (.gated (fun _ => .poolWrite) h) h)

theorem Kept.setCbsEn (h : Kept s₀ s) : Kept s₀ (s.setCbsEn p v) := by
  unfold State.setCbsEn
  exact .modPort (.setf (.syncCredit h))

theorem Kept.queueDisable {cbsEn : Nat} (h : Kept s₀ s) : Kept s₀ (s.queueDisable p cbsEn) :=
  .flush (.setf (.setCbsEn h))

theorem Runs.queueDisableFlush {cbsEn : Nat} (h : Kept s₀ s) : Runs s₀ (execQueueDisableFlush p cbsEn s) :=
  .atUnit h (.ite (.gated (fun _ => .queueDisable) h) h)

/-! ### Machine/Links -/

theorem Kept.fecSync (h : Kept s₀ s) : Kept s₀ (s.fecSync p) := by
  unfold State.fecSync
  exact .ite (.modPort h) (.bump (.bump (.update (.modPort h))))

theorem Kept.setWidth {code : Nat} (h : Kept s₀ s) : Kept s₀ (s.setWidth p code) := by
  unfold State.setWidth
  exact .setf (.setf (.setf (.fecSync h)))

theorem Kept.sendVerify {tries : Nat} (h : Kept s₀ s) : Kept s₀ (s.sendVerify p tries) := by
  unfold State.sendVerify
  exact .sendDue (.modPort (.setf h))

theorem Kept.startMerge (h : Kept s₀ s) : Kept s₀ (s.startMerge p) := by
  unfold State.startMerge
  exact .ite (.setf (.setf h)) (.ite (.setf (.setf h)) (.sendVerify h))

theorem Kept.linkUp (h : Kept s₀ s) : Kept s₀ (s.linkUp p) := by
  unfold State.linkUp
  exact .startMerge (.recalibrate (.newSide (.modPort (.setf (.setWidth (.fecSync (.syncCredit h)))))))

theorem Runs.linkUp (h : Kept s₀ s) : Runs s₀ (execLinkUp p s) := .atUnit h (.when .linkUp h)

theorem Kept.abortFrame (h : Kept s₀ s) : Kept s₀ (s.abortFrame p fid) := .release (.bump h)

theorem Kept.dropPartner (h : Kept s₀ s) : Kept s₀ (s.dropPartner p) := .refreshDelay (.modPort (.resetFlds h))

theorem Kept.linkDown (h : Kept s₀ s) : Kept s₀ (s.linkDown p) := by
  unfold State.linkDown
  extract_lets s1 d s2 s3 s4 s5 s6 s7
  have h3 : Kept s₀ s3 := .modPort (.setf (.setf (.fecSync (.syncCredit h))))
  have h4 : Kept s₀ s4 := .elim (fun _ => .abortFrame h3) h3
  have h5 : Kept s₀ s5 := .elim (fun _ => .abortFrame h4) h4
  exact .dropPartner (.flush (.setf (.setf (.setf h5))))

theorem Kept.linkLost (h : Kept s₀ s) : Kept s₀ (s.linkLost p) := by
  unfold State.linkLost
  exact .ite h (.ite (.raise (.linkDown h)) (.linkDown h))

theorem Runs.linkDown (h : Kept s₀ s) : Runs s₀ (execLinkDown p s) := .atUnit h (.when .linkLost h)

theorem Runs.retrain (h : Kept s₀ s) : Runs s₀ (execRetrain p s) := .atUnit h (.ite (.gated (fun _ => .linkLost) h) h)

theorem Kept.takeVerify (h : Kept s₀ s) : Kept s₀ (s.takeVerify p) := .when .sendDue h

theorem Kept.takeRespond (h : Kept s₀ s) : Kept s₀ (s.takeRespond p) := .ite (.modPort (.setf (.setf h))) h

theorem Runs.verifyMpacketRx (h : Kept s₀ s) : Runs s₀ (execVerifyMpacketRx p s) := .atUnit h (.when .takeVerify h)

theorem Runs.respondMpacketRx (h : Kept s₀ s) : Runs s₀ (execRespondMpacketRx p s) :=
  .atUnit h (.when .takeRespond h)

theorem Runs.verifyTimeout (h : Kept s₀ s) : Runs s₀ (execVerifyTimeout p s) := by
  unfold execVerifyTimeout
  refine .atUnit h ?_
  split
  · exact h
  · exact .ite (.sendVerify (.runToLt h)) (.modPort (.setf (.runToLt h)))

theorem Kept.pauseClass {quanta : Nat} (h : Kept s₀ s) : Kept s₀ (s.pauseClass p c quanta) := by
  unfold State.pauseClass
  exact .ite (.modPort h) (.ite h (.modPort h))

theorem Kept.takePause (h : Kept s₀ s) : Kept s₀ (s.takePause p l) := by
  unfold State.takePause
  extract_lets s1 mode
  have hs1 : Kept s₀ s1 := .syncCredit (.bump h)
  exact .ite (.foldl (fun _ _ => .pauseClass) hs1) <| .ite (.foldl (fun _ _ ht => .when .pauseClass ht) hs1) <| hs1

theorem Runs.pauseFrameRx (h : Kept s₀ s) : Runs s₀ (execPauseFrameRx p octets s) :=
  .atUnit h (.ite (.rxLocal (fun _ => .takePause) h) h)

theorem Runs.pauseQuantaExpiry (h : Kept s₀ s) : Runs s₀ (execPauseQuantaExpiry p c s) := by
  unfold execPauseQuantaExpiry
  refine .atUnit h ?_
  split
  · exact h
  · exact .modPort (.syncCredit (.runToLt h))

theorem Kept.pauseWatchdog (h : Kept s₀ s) : Kept s₀ (s.pauseWatchdog p c) := by
  unfold State.pauseWatchdog
  exact .raise (.modPort (.discardWhere (fun _ _ => .bump) h))

theorem Runs.pauseWatchdog (h : Kept s₀ s) : Runs s₀ (execPauseWatchdog p c s) := by
  unfold execPauseWatchdog
  refine .atUnit h ?_
  split
  · exact .ite (.pauseWatchdog (.runToLt h)) h
  · exact h

theorem Runs.lldpduTx (h : Kept s₀ s) : Runs s₀ (execLldpduTx p s) := .atUnit h (.sendControl h)

theorem Kept.takeCap {ttl : Nat} (h : Kept s₀ s) : Kept s₀ (s.takeCap p l k ttl) := by
  unfold State.takeCap
  exact .refreshDelay (.modPort (.setf (.setf (.setf (.setf (.setf (.setf (.setf (.setf (.setf (.setf h)))))))))))

theorem Kept.sendShed {tlv : List Byte} (h : Kept s₀ s) : Kept s₀ (s.sendShed p tlv) :=
  .ite (.queueControl h) (.barControl h)

theorem Kept.placeShed {x : Shed} (h : Kept s₀ s) : Kept s₀ (s.placeShed p x) := .modPort h

theorem Kept.shedRequest {lanes instant reason : Nat} {forced : Bool} (h : Kept s₀ s) :
    Kept s₀ (s.shedRequest p lanes instant reason forced) := by
  unfold State.shedRequest
  exact .sendShed (.placeShed (.modPort h))

theorem Kept.shedLoop {util : Nat} {partnerSynced : Bool} (h : Kept s₀ s) : Kept s₀ (s.shedLoop p util partnerSynced) := by
  unfold State.shedLoop
  extract_lets w mayNarrow want t out s1 go
  have hs1 : Kept s₀ s1 := .ite (.setf h) (.bump (.setf h))
  refine .ite (.setf h) <| .ite hs1 ?_
  split
  · exact hs1
  · exact .shedRequest hs1

theorem Runs.utilisationWindow {txRate rxRate : Nat} {partnerSynced : Bool} (h : Kept s₀ s) :
    Runs s₀ (execUtilisationWindow p txRate rxRate partnerSynced s) :=
  .atUnit h (.ite (.shedLoop (.modPort (.runPeriod h))) h)

theorem Kept.answerShed {t : List Byte} (h : Kept s₀ s) : Kept s₀ (s.answerShed p t) := by
  unfold State.answerShed
  split
  · exact .sendShed h
  · exact .sendShed (.placeShed h)

theorem Kept.agreeShed {x : Shed} (h : Kept s₀ s) : Kept s₀ (s.agreeShed p x) := .modPort h

theorem Kept.takeRequest {sa : Nat} {t : List Byte} (h : Kept s₀ s) : Kept s₀ (s.takeRequest p sa t) := by
  unfold State.takeRequest
  refine .ite h ?_
  split
  · exact .ite (.agreeShed h) (.ite (.answerShed (.modPort h)) h)
  · exact .answerShed h

theorem Kept.takeAccept {t : List Byte} (h : Kept s₀ s) : Kept s₀ (s.takeAccept p t) := by
  unfold State.takeAccept
  split
  · exact .when .agreeShed h
  · exact h

theorem Kept.takeRefuse {t : List Byte} (h : Kept s₀ s) : Kept s₀ (s.takeRefuse p t) := by
  unfold State.takeRefuse
  split
  · exact .when .modPort h
  · exact h

theorem Kept.takeShed {sa : Nat} {t : List Byte} (h : Kept s₀ s) : Kept s₀ (s.takeShed p sa t) := by
  unfold State.takeShed
  refine .ite h ?_
  split
  · exact .takeRequest h
  · exact .takeAccept h
  · exact .takeRefuse h
  · exact h

theorem Runs.shedNoack (h : Kept s₀ s) : Runs s₀ (execShedNoack p s) := by
  unfold execShedNoack
  refine .atUnit h ?_
  split
  · exact .ite (.bump (.modPort (.runToNs h))) h
  · exact h

theorem Kept.beginShed {x : Shed} (h : Kept s₀ s) : Kept s₀ (s.beginShed p x) := by
  unfold State.beginShed
  exact .ite (.modPort h) (.modPort (.setf (.modPort h)))

theorem Runs.shedInstant (h : Kept s₀ s) : Runs s₀ (execShedInstant p s) := by
  unfold execShedInstant
  refine .atUnit h ?_
  split
  · exact .ite h (.beginShed (.syncCredit (.runToNs h)))
  · exact h

theorem Kept.shedDone {lanes : Nat} (h : Kept s₀ s) : Kept s₀ (s.shedDone p lanes) := by
  unfold State.shedDone
  exact .recalibrate (.newSide (.modPort (.setf (.setf (.bump (.setWidth h))))))

theorem Kept.shedFailed (h : Kept s₀ s) : Kept s₀ (s.shedFailed p) := by
  unfold State.shedFailed
  exact .modPort (.ite (.setf (.setf (.bump h))) (.setf (.bump h)))

theorem Runs.shedLockCheck {locked : Bool} (h : Kept s₀ s) : Runs s₀ (execShedLockCheck p locked s) := by
  unfold execShedLockCheck
  refine .atUnit h ?_
  split
  · exact .ite (.shedDone (.syncCredit (.runToLt h))) (.shedFailed (.syncCredit (.runToLt h)))
  · exact h

theorem Runs.shedFailRetrain {up : Bool} (h : Kept s₀ s) : Runs s₀ (execShedFailRetrain p up s) := by
  unfold execShedFailRetrain
  refine .atUnit h ?_
  split
  · exact .ite (.setf (.modPort (.runToLt h))) (.raise (.linkDown (.modPort (.runToLt h))))
  · exact h

theorem Runs.shedForcedWiden (h : Kept s₀ s) : Runs s₀ (execShedForcedWiden p s) :=
  .atUnit h (.ite (.bump (.shedRequest h)) h)

theorem Runs.standbyWidenRetry (h : Kept s₀ s) : Runs s₀ (execStandbyWidenRetry p s) :=
  .atUnit h (.ite (.shedRequest (.runPeriod h)) h)

theorem Kept.blockClr (h : Kept s₀ s) : Kept s₀ (s.blockClr p) := .setf (.setf h)

theorem Runs.blockClr (h : Kept s₀ s) : Runs s₀ (execBlockClr p s) := .atUnit h (.ite (.gated (fun _ => .blockClr) h) h)

theorem Kept.takeTlv {t : Nat × Nat × Nat} (h : Kept s₀ s) : Kept s₀ (s.takeTlv p l t) := by
  unfold State.takeTlv
  exact .ite (.ite (.ite (.dropPartner h) (.takeCap h)) (.bump h)) <| .ite (.takeShed h) <| .ite (.setf h) h

theorem Kept.takeTlvs {ts : List (Nat × Nat × Nat)} (h : Kept s₀ s) : Kept s₀ (s.takeTlvs p l ts) :=
  .foldl (fun _ _ => .takeTlv) h

theorem Kept.takeLldp (h : Kept s₀ s) : Kept s₀ (s.takeLldp p l) := .takeTlvs h

theorem Kept.lldpRx (h : Kept s₀ s) : Kept s₀ (s.lldpRx p octets) := by
  unfold State.lldpRx
  split
  next ok t ht =>
    have hm : Kept s₀ t := .snd ht (.macRx h)
    exact .when .takeLldp hm

theorem Runs.lldpduRx (h : Kept s₀ s) : Runs s₀ (execLldpduRx p octets s) := .atUnit h (.when .lldpRx h)

theorem Runs.shedRequestRx {sa : Nat} (h : Kept s₀ s) : Runs s₀ (execShedRequestRx p sa octets s) :=
  .atUnit h (.when .lldpRx h)

theorem Runs.shedAcceptRx (h : Kept s₀ s) : Runs s₀ (execShedAcceptRx p octets s) := .atUnit h (.when .lldpRx h)

theorem Runs.shedRefuseRx (h : Kept s₀ s) : Runs s₀ (execShedRefuseRx p octets s) := .atUnit h (.when .lldpRx h)

theorem Runs.partnerTtlExpiry (h : Kept s₀ s) : Runs s₀ (execPartnerTtlExpiry p s) := by
  unfold execPartnerTtlExpiry
  refine .atUnit h ?_
  split
  · exact h
  · exact .dropPartner (.runToLt h)

/-! ### Machine/MixUnpack -/

theorem Kept.putSample {v : Int} (h : Kept s₀ s) : Kept s₀ (s.putSample c n v) := by
  unfold State.putSample
  split
  · exact h
  · exact .modMix (.setTab (.clearBad (.when .bump h)))

theorem Kept.putSamples {l : List Int} (h : Kept s₀ s) : Kept s₀ (s.putSamples c n l) := by
  induction l generalizing s n with
  | nil => exact h
  | cons x r ih => exact ih (.putSample h)

theorem Kept.unpackChannel {r : Rtp} (h : Kept s₀ s) : Kept s₀ (s.unpackChannel c ch t r) := by
  unfold State.unpackChannel
  exact .ite (.bump h) (.ite h (.ite (.bump h) (.putSamples h)))

theorem Kept.unpackBinding (h : Kept s₀ s) : Kept s₀ (s.unpackBinding f t i) := by
  unfold State.unpackBinding
  refine .ite (.tableParity h) ?_
  extract_lets b c
  refine .ite h <|
    .ite (.ite (.modMix (.addUse h)) h) <|
    .ite (.xingDiscard h) <|
    .ite h <|
    .ite (.tableParity h) <|
    .ite h <|
    ?_
  split
  · exact .bump h
  · exact .unpackChannel h

theorem Kept.unpackNext (h : Kept s₀ s) : Kept s₀ s.unpackNext := by
  unfold State.unpackNext
  split
  · exact h
  · extract_lets s1
    have hs1 : Kept s₀ s1 := .modMix (.runToLt h)
    split
    · exact hs1
    · exact .release (.foldl (fun _ _ => .unpackBinding) hs1)

theorem Runs.unpackFrame {upsets : List Upset} (h : Kept s₀ s) : Runs s₀ (execUnpackFrame upsets s) :=
  .next (.ite (.unpackNext (.foldl (fun _ _ => .markBad) h)) h)

theorem Kept.openPicture {ts : Nat} (h : Kept s₀ s) : Kept s₀ (s.openPicture v ts) := by
  unfold State.openPicture
  exact .ite h (.modMix (.when .bumpTab h))

theorem Kept.storeSrd {p : Picture} {x : Srd} {data : List Byte} (h : Kept s₀ s) : Kept s₀ (s.storeSrd v p x data).1 := by
  unfold State.storeSrd
  extract_lets e g
  split
  · exact h
  · dsimp only
    exact .cxlWrite h

theorem Kept.storeSrds {hs : List Srd} {p : Picture} (h : Kept s₀ s) : Kept s₀ (s.storeSrds v l hs k p).1 := by
  induction hs generalizing s k p with
  | nil => exact h
  | cons x r ih => exact ih (.storeSrd h)

theorem Kept.settlePicture {p : Picture} (h : Kept s₀ s) : Kept s₀ (s.settlePicture v p) := by
  unfold State.settlePicture
  exact .ite (.modMix (.setTab h)) (.modMix h)

theorem Kept.storePacket {r : Rtp} (h : Kept s₀ s) : Kept s₀ (s.storePacket v r) := by
  unfold State.storePacket
  extract_lets e l hs len s1
  refine .ite h ?_
  split
  · exact .openPicture h
  · exact .ite (.openPicture h) (.settlePicture (.storeSrds (.openPicture h)))

theorem Kept.storeNext (h : Kept s₀ s) : Kept s₀ s.storeNext := by
  unfold State.storeNext
  split
  · exact h
  · extract_lets s1
    have hs1 : Kept s₀ s1 := .modMix h
    split
    · exact hs1
    · refine .release (.ite ?_ hs1)
      split
      · exact .storePacket hs1
      · exact hs1

theorem Runs.videoPacketStore (h : Kept s₀ s) : Runs s₀ (execVideoPacketStore s) := .next (.when .storeNext h)

/-! ### Machine/Concord -/

theorem Kept.listen (h : Kept s₀ s) : Kept s₀ s.listen := .modCon (.setf (.setf (.setf h)))

theorem Kept.ringJoin (h : Kept s₀ s) : Kept s₀ s.ringJoin := by
  unfold State.ringJoin
  exact .ite (.finish h) (.ite (.finish h) (.finishOk (.modCon (.listen (.setf (.draw h))))))

theorem Runs.ringJoin (h : Kept s₀ s) : Runs s₀ (execRingJoin s) := .next (.xci (fun _ _ => .ringJoin) h)

theorem Runs.ringLeave (h : Kept s₀ s) : Runs s₀ (execRingLeave s) :=
  .next (.xci (fun _ _ ht => .ite (.modCon (.park ht)) (.finish ht)) h)

theorem Kept.leaveRing (h : Kept s₀ s) : Kept s₀ s.leaveRing := .modCon (.setf (.setf (.listen h)))

theorem Runs.ringLeaveDone (h : Kept s₀ s) : Runs s₀ (execRingLeaveDone s) :=
  .next (.ite (.finishAll (.leaveRing (.runToRingNs h))) h)

theorem Runs.syncFrameTx (h : Kept s₀ s) : Runs s₀ (execSyncFrameTx s) :=
  .next (.ite h (.sendDue (.modCon (.runToRing h))))

theorem Runs.beaconTx (h : Kept s₀ s) : Runs s₀ (execBeaconTx s) :=
  .next (.ite h (.sendControl (.sendControl (.modCon (.runToRingNs h)))))

theorem Kept.heardOn (h : Kept s₀ s) : Kept s₀ (s.heardOn fromE) := by
  unfold State.heardOn
  exact .modCon (.setf h)

theorem Kept.ringDown (h : Kept s₀ s) : Kept s₀ (s.ringDown portE) := by
  unfold State.ringDown
  exact .ite h (.raise (.modCon (.bump (.setf h))))

theorem Runs.ringPortDown (h : Kept s₀ s) : Runs s₀ (execRingPortDown portE s) := .next (.ringDown h)

theorem Runs.ringWrapEnd (h : Kept s₀ s) : Runs s₀ (execRingWrapEnd portE s) := .next (.ite h (.setf h))

theorem Kept.conRx {f : State → State} (hf : ∀ t, Kept s₀ t → Kept s₀ (f t)) (h : Kept s₀ s) :
    Kept s₀ (s.conRx fromE l f) :=
  .ite (.macRx h) <| .ite (.xingDiscard h) <| .ite h <| .rxLocal (fun _ ht => .ite (.bump ht) (hf _ (.heardOn ht))) h

theorem Runs.beaconRx (h : Kept s₀ s) : Runs s₀ (execBeaconRx fromE octets s) := .next (.conRx (fun _ ht => ht) h)

theorem Kept.adopt {r : SyncRec} (h : Kept s₀ s) : Kept s₀ (s.adopt r) := by
  unfold State.adopt
  exact .modCon h

theorem Kept.forwardSync {r : SyncRec} (h : Kept s₀ s) : Kept s₀ (s.forwardSync fromE l r) := by
  unfold State.forwardSync
  refine .ite h ?_
  extract_lets l1 l2
  split
  · exact .sendDue h
  · exact h

theorem Kept.collect {r : SyncRec} (h : Kept s₀ s) : Kept s₀ (s.collect p r) := by
  unfold State.collect
  exact .ite (.modCon h) (.ite (.bump (.modCon h)) (.modCon (.modCon h)))

theorem Kept.measureSync {r : SyncRec} (h : Kept s₀ s) : Kept s₀ (s.measureSync p r) := by
  unfold State.measureSync
  exact .ite (.modCon h) (.ite (.bump (.modCon h)) (.ite (.bump (.modCon h)) (.modCon h)))

theorem Kept.useSync {r : SyncRec} (h : Kept s₀ s) : Kept s₀ (s.useSync p r) := by
  unfold State.useSync
  extract_lets st s1
  have hs1 : Kept s₀ s1 := .when .modCon h
  exact .ite (.collect hs1) <|
    .ite (.ite (.ite (.collect (.modCon (.listen (.bump hs1)))) (.bump hs1)) (.when .modCon hs1)) <|
    .ite (.when (fun ht => .modCon (.adopt ht)) hs1) <|
    .ite (.ite (.when .bump hs1) (.measureSync (.when .bump hs1))) hs1

theorem Kept.dupNode (h : Kept s₀ s) : Kept s₀ s.dupNode := .ite h (.raise (.modCon (.listen h)))

theorem Kept.takeSync (h : Kept s₀ s) : Kept s₀ (s.takeSync fromE l) := by
  unfold State.takeSync
  exact .ite h (.ite (.dupNode h) (.ite h (.forwardSync (.ite (.useSync (.modCon h)) (.modCon h)))))

theorem Runs.syncFrameRx (h : Kept s₀ s) : Runs s₀ (execSyncFrameRx fromE octets s) :=
  .next (.conRx (fun _ => .takeSync) h)

theorem Runs.syncCollectionEnd (h : Kept s₀ s) : Runs s₀ (execSyncCollectionEnd s) := by
  unfold execSyncCollectionEnd
  refine .next ?_
  split
  · exact h
  · extract_lets u
    split
    · exact .runToLt h
    · exact .ite (.runToLt h) (.modCon (.setf (.adopt (.runToLt h))))

theorem Kept.coldstart (h : Kept s₀ s) : Kept s₀ s.coldstart := by
  unfold State.coldstart
  exact .ite h (.modCon (.bump (.setf (.setf (.ite h (.modCon h))))))

theorem Runs.coldstartEntry (h : Kept s₀ s) : Runs s₀ (execColdstartEntry s) := .next (.coldstart h)

theorem Runs.coldstartFail (h : Kept s₀ s) : Runs s₀ (execColdstartFail s) :=
  .next (.ite h (.modCon (.listen (.bump (.draw (.runToRingNs h))))))

theorem Kept.correctRate (h : Kept s₀ s) : Kept s₀ s.correctRate := by
  unfold State.correctRate
  exact .ite h (.modCon (.when .bump h))

theorem Kept.slewRing {o : Int} (h : Kept s₀ s) : Kept s₀ (s.slewRing o) := .modCon h

theorem Kept.passive (h : Kept s₀ s) : Kept s₀ s.passive := .raise (.bump (.setf h))

theorem Kept.activeCorrection {o lim : Int} (h : Kept s₀ s) : Kept s₀ (s.activeCorrection o lim) := by
  unfold State.activeCorrection
  extract_lets peers noPeer silence s1 s2 run s3 s4
  have hs1 : Kept s₀ s1 := .modCon h
  have hs2 : Kept s₀ s2 := .slewRing (.setf hs1)
  have hs3 : Kept s₀ s3 := .setf (.bump hs1)
  exact .ite (.when .passive hs2) (.ite (.when .passive (.slewRing hs3)) (.passive hs3))

theorem Kept.integCorrection {o lim : Int} (h : Kept s₀ s) : Kept s₀ (s.integCorrection o lim) := by
  unfold State.integCorrection
  exact .ite h <| .ite (.setf (.listen (.bump h))) <| .ite (.listen (.setf h)) <| .modCon (.slewRing (.setf h))

theorem Kept.closeSync (h : Kept s₀ s) : Kept s₀ s.closeSync := by
  unfold State.closeSync
  extract_lets m o lim s1 s2 s3 s4 s5 s6
  have hs6 : Kept s₀ s6 := .correctRate (.modCon (.setf (.setf (.setf (.setf (.setf h))))))
  exact .ite (.activeCorrection hs6) (.integCorrection hs6)

theorem Runs.syncMeasurementClose (h : Kept s₀ s) : Runs s₀ (execSyncMeasurementClose s) :=
  .next (.ite h (.closeSync (.runToRingNs h)))

theorem Runs.syncSilenceTimeout (h : Kept s₀ s) : Runs s₀ (execSyncSilenceTimeout s) := .next (.when .listen h)

theorem Kept.measureSteer (h : Kept s₀ s) : Kept s₀ s.measureSteer := by
  unfold State.measureSteer
  exact .ite h (.ite (.modCon (.setf h)) (.modCon (.ite (.bump (.setf (.setf h))) (.setf (.setf h)))))

theorem Kept.enterActive (h : Kept s₀ s) : Kept s₀ s.enterActive := .modCon (.setf (.setf h))

theorem Kept.cycleState (h : Kept s₀ s) : Kept s₀ s.cycleState := by
  unfold State.cycleState
  exact .ite (.enterActive h) (.ite (.modCon (.setf (.setf h))) h)

theorem Kept.startCycle (h : Kept s₀ s) : Kept s₀ s.startCycle := by
  unfold State.startCycle
  extract_lets n s1 s2 was s3
  have hs1 : Kept s₀ s1 := by
    unfold s1
    split
    · exact .setf h
    · exact h
  have hs2 : Kept s₀ s2 := by
    unfold s2
    split
    · exact .setf hs1
    · exact hs1
  exact .measureSteer (.modCon (.cycleState (.modCon hs2)))

theorem Runs.ringCycleStart (h : Kept s₀ s) : Runs s₀ (execRingCycleStart s) :=
  .next (.ite h (.startCycle (.runToRingNs (.modCon h))))

theorem Kept.nameContext (h : Kept s₀ s) : Kept s₀ (s.nameContext c) := .ite h (.modMix (.setTab (.takeStore h)))

theorem Kept.applyContrib {ws : List (Nat × Word)} (h : Kept s₀ s) : Kept s₀ (s.applyContrib ch ws) :=
  .when .nameContext (.freeStore (.update (.foldl (fun _ _ => .setTab) h)))

theorem Kept.contribWrite (h : Kept s₀ s) : Kept s₀ (s.contribWrite o off data) := by
  unfold State.contribWrite
  exact .ite (.refuse h) (.ite (.applyContrib h) (.update h))

theorem Runs.contributionEntryWrite {data : Word} (h : Kept s₀ s) : Runs s₀ (execContributionEntryWrite off data s) :=
  .next (.ite (.gatedTab (fun _ => .contribWrite) h) h)

theorem Kept.takeEntries (h : Kept s₀ s) : Kept s₀ s.takeEntries := .modCon h

theorem Kept.contribute (h : Kept s₀ s) : Kept s₀ s.contribute := by
  unfold State.contribute
  exact .foldl (fun _ _ ht => .modCon (.bump ht)) (.modCon h)

theorem Runs.contributionCutoff (h : Kept s₀ s) : Runs s₀ (execContributionCutoff s) :=
  .next (.ite (.contribute (.runToRingNs h)) h)

/-! ### Machine/Train -/

theorem Kept.absentSample (h : Kept s₀ s) : Kept s₀ (s.absentSample c n) := by
  unfold State.absentSample
  split
  · exact h
  · exact .modMix h

theorem Kept.readTrain (h : Kept s₀ s) : Kept s₀ (s.readTrain l ok) :=
  .ite h <|
  .foldl (fun _ _ ht => .ite (.xingDiscard ht) <| .ite (.tableParity ht) <|
    .foldl (fun _ _ hu => .ite hu (.ite (.putSample hu) (.absentSample hu))) ht) h

theorem Kept.readPass (h : Kept s₀ s) : Kept s₀ (s.readPass l ok) := .ite (.modCon h) (.readTrain h)

theorem Kept.serveSlot {x : Slot} (h : Kept s₀ s) : Kept s₀ (s.serveSlot k x).2 := by
  unfold State.serveSlot
  extract_lets mine key s1
  split
  · dsimp only
    exact .modCon h
  · split
    · dsimp only
      exact .modCon h
    · split
      · dsimp only
        exact .modCon h
      · split
        · dsimp only
          exact .modCon h
        · dsimp only
          exact .modHost (.modCon (.modCon h))

theorem Kept.serveSlots (h : Kept s₀ s) : Kept s₀ (s.serveSlots l).2 := .foldl_snd (fun _ _ => .serveSlot) h

theorem Kept.takeSteer (h : Kept s₀ s) : Kept s₀ (s.takeSteer l) := .ite h (.modCon (.setf h))

theorem Kept.splitOff (h : Kept s₀ s) : Kept s₀ s.splitOff := .ite h (.raise (.modCon (.setf h)))

theorem Kept.noteManager {wrapped : Bool} (h : Kept s₀ s) : Kept s₀ (s.noteManager l wrapped) := by
  unfold State.noteManager
  extract_lets m above s1 s2 s3
  have hs3 : Kept s₀ s3 := .modCon (.when (fun hs => .modCon (.setf hs)) (.setf h))
  exact .ite (.raise (.setf hs3)) hs3

theorem Kept.sendTrain {bad : Bool} (h : Kept s₀ s) : Kept s₀ (s.sendTrain p t l bad) := by
  unfold State.sendTrain
  exact .ite h (.ite (.xingDiscard h) (.ite (.bump h) (.modPort (.fresh (.txDone h)))))

theorem Kept.passTrain {f : State → List Byte × State} (hf : ∀ t, Kept s₀ t → Kept s₀ (f t).2) (h : Kept s₀ s) :
    Kept s₀ (s.passTrain p l fcsOk stomped busy f) := by
  unfold State.passTrain
  exact .ite (.bump h) (.ite (.bump (.modCon h)) (.sendTrain (hf _ (.ite (.modCon h) (.bump (.modCon h))))))

theorem Kept.work (h : Kept s₀ s) : Kept s₀ (s.work l ok).2 := by
  unfold State.work
  extract_lets i s1 l'
  have hs1 : Kept s₀ s1 := .modCon h
  split
  · exact h
  · split
    · split
      · exact h
      · exact .readPass (.modCon h)
    · split
      · exact h
      · split
        · exact hs1
        · split
          · exact hs1
          · split
            next l' u hu => exact .snd hu (.serveSlots hs1)

theorem Kept.workerRx (h : Kept s₀ s) : Kept s₀ (s.workerRx fromE l fcsOk stomped busy) := by
  unfold State.workerRx
  split
  · exact h
  · exact .passTrain (fun _ ht => .work (.ite (.noteManager (.takeSteer ht)) ht)) h

theorem Kept.snapshot (h : Kept s₀ s) : Kept s₀ (s.snapshot l) := by
  unfold State.snapshot
  exact .modCon (.foldl (fun _ _ => .setf) h)

theorem Kept.overrun (h : Kept s₀ s) : Kept s₀ s.overrun := .ite h (.raise (.modCon (.bump h)))

theorem Kept.measureLoop (h : Kept s₀ s) : Kept s₀ (s.measureLoop p l) := by
  unfold State.measureLoop
  split
  · exact h
  · exact .ite h (.setf (.setf h))

theorem Kept.endAdd (h : Kept s₀ s) : Kept s₀ (s.endAdd fromE l fcsOk stomped busy) := by
  unfold State.endAdd
  exact .passTrain (fun _ ht => .when .snapshot (.readPass (.when .noteManager (.modCon ht)))) (.measureLoop h)

theorem Kept.endRead (h : Kept s₀ s) : Kept s₀ (s.endRead l fcsOk stomped) := by
  unfold State.endRead
  exact .ite (.overrun (.modCon (.ite h (.bump h)))) (.modCon (.ite h (.bump h)))

theorem Kept.ownRx (h : Kept s₀ s) : Kept s₀ (s.ownRx fromE l fcsOk stomped busy) := by
  unfold State.ownRx
  exact .ite (.passTrain (fun _ ht => ht) h) (.ite (.endRead h) (.endAdd h))

theorem Kept.judgeTrain (h : Kept s₀ s) : Kept s₀ (s.judgeTrain fromE l fcsOk stomped busy) :=
  .ite (.bump h) <|
  .ite (.workerRx (.heardOn h)) <|
  .ite (.ownRx (.heardOn h)) <|
  .ite (.workerRx (.modCon (.heardOn h))) <|
  .bump <| .heardOn h

theorem Kept.trainRx (h : Kept s₀ s) : Kept s₀ (s.trainRx fromE l fcsOk stomped busy) := by
  unfold State.trainRx
  exact .ite h (.ite (.macRx h) (.ite (.xingDiscard h) (.ite h (.ite (.judgeTrain (.trainJudge h)) (.trainJudge h)))))

theorem Runs.trainFrameRx (h : Kept s₀ s) : Runs s₀ (execTrainFrameRx fromE octets fcsOk stomped busy s) :=
  .next (.trainRx h)

theorem Kept.foldedSplit (h : Kept s₀ s) : Kept s₀ s.foldedSplit := .when .splitOff h

theorem Kept.missSplit (h : Kept s₀ s) : Kept s₀ s.missSplit := .ite (.raise (.modCon (.setf h))) h

theorem Kept.closeRound (h : Kept s₀ s) : Kept s₀ s.closeRound := by
  unfold State.closeRound
  exact .modCon (.missSplit (.foldedSplit (.ite (.setf (.when .bump h)) (.when .bump h))))

theorem Kept.quietDown {quiet : Nat} (h : Kept s₀ s) : Kept s₀ (s.quietDown portE quiet) := by
  unfold State.quietDown
  exact .ite h (.raise (.bump (.setf h)))

theorem Kept.roundPorts (h : Kept s₀ s) : Kept s₀ s.roundPorts := by
  unfold State.roundPorts
  extract_lets c qW qE s1 w e up s2 s3
  have hs1 : Kept s₀ s1 := .quietDown (.quietDown h)
  have hs2 : Kept s₀ s2 := .ite (.setf hs1) (.setf hs1)
  exact .modCon (.ite (.setf hs2) (.setf hs2))

theorem Kept.buildTrain (h : Kept s₀ s) : Kept s₀ s.buildTrain := .when .modCon h

theorem Runs.ringRoundStart (h : Kept s₀ s) : Runs s₀ (execRingRoundStart s) :=
  .next (.ite h (.buildTrain (.takeEntries (.roundPorts (.modCon (.closeRound (.runToRingNs (.modCon h))))))))

theorem Kept.launch (h : Kept s₀ s) : Kept s₀ s.launch := by
  unfold State.launch
  exact .modCon (.foldl (fun _ _ => .sendDue) (.runToRingNs h))

theorem Runs.trainLaunch (h : Kept s₀ s) : Runs s₀ (execTrainLaunch s) := .next (.when .launch h)

theorem Runs.trainWindowEnd (h : Kept s₀ s) : Runs s₀ (execTrainWindowEnd s) := .next (.ite h (.runToRingNs h))

theorem Kept.finishSlot (h : Kept s₀ s) : Kept s₀ (s.finishSlot k st ws) := by
  unfold State.finishSlot
  extract_lets t
  split
  · exact .answer (.modHost (.modCon h))
  · exact .modCon h

theorem Kept.failSlot (h : Kept s₀ s) : Kept s₀ (s.failSlot k) := .ite h (.bump (.finishSlot h))

theorem Kept.freeSlots (h : Kept s₀ s) : Kept s₀ s.freeSlots := by
  unfold State.freeSlots
  refine .foldl (fun _ _ ht => ?_) h
  split
  · exact .failSlot ht
  · exact ht

theorem Kept.dropRemotes (h : Kept s₀ s) : Kept s₀ s.dropRemotes := .foldl (fun _ _ ht => .bump (.finishParked ht)) h

theorem Kept.ringRemote {c : Cmd} (h : Kept s₀ s) : Kept s₀ (s.ringRemote c) := by
  unfold State.ringRemote
  extract_lets n ws
  refine .ite (.finish h) <| .ite (.finish h) ?_
  split
  · exact .finish h
  · exact .ite (.finish h) (.modCon (.park h))

theorem Runs.ringRemote (h : Kept s₀ s) : Runs s₀ (execRingRemote s) := .next (.xci (fun _ _ => .ringRemote) h)

theorem Runs.ringRemoteDone (h : Kept s₀ s) : Runs s₀ (execRingRemoteDone slot s) :=
  .next (.ite (.bump (.finishSlot h)) (.when .failSlot h))

theorem Runs.managerTakeover (h : Kept s₀ s) : Runs s₀ (execManagerTakeover s) :=
  .next (.ite (.buildTrain (.raise (.bump (.setf (.modCon (.freeSlots (.when .splitOff h))))))) h)

theorem Kept.stompTrain (h : Kept s₀ s) : Kept s₀ (s.stompTrain p) := .modPort h

theorem Kept.dropRingTime (h : Kept s₀ s) : Kept s₀ s.dropRingTime := by
  unfold State.dropRingTime
  exact .modCon (.resetFlds (.freeSlots h))

theorem Kept.conReset (h : Kept s₀ s) : Kept s₀ s.conReset := by
  unfold State.conReset
  extract_lets s1
  have hs1 : Kept s₀ s1 := .dropRingTime (.stompTrain (.stompTrain h))
  exact .when .listen hs1

theorem Kept.conResume (h : Kept s₀ s) : Kept s₀ s.conResume := .modCon h

theorem Kept.conStandby (h : Kept s₀ s) : Kept s₀ s.conStandby := .when .finishAll (.dropRingTime (.leaveRing h))

/-! ### Machine/Ingress -/

theorem Kept.takeData (h : Kept s₀ s) : Kept s₀ (s.takeData p octets) := by
  unfold State.takeData
  exact .presentDescriptor (.newFrame (.takeIng h))

theorem Kept.anyResidual (h : Kept s₀ s) : Kept s₀ s.anyResidual.2 := .update h

theorem Kept.takeFrame {a : Kind} (h : Kept s₀ s) : Kept s₀ (s.takeFrame p l a) := by
  unfold State.takeFrame
  split
  · exact .ite (.xingDiscard h) (.ite h (.ite (.bump h) (.ite (.takeSync (.heardOn h)) (.heardOn h))))
  · exact .takePause h
  · exact .takeLldp h
  · exact .takeProbe (.anyResidual h)
  · exact .takePtp h
  · exact .takeData h

theorem Kept.receive (h : Kept s₀ s) : Kept s₀ (s.receive p l fcsOk) := by
  unfold State.receive
  exact .ite (.trainRx h) (.ite (.takeFrame (.macRx h)) (.macRx h))

theorem Runs.frameReceived (h : Kept s₀ s) : Runs s₀ (execFrameReceived p octets fcsOk s) :=
  .atUnit h (.when .receive h)

theorem Kept.loopBack {x : Tx} (h : Kept s₀ s) : Kept s₀ (s.loopBack p x) := by
  unfold State.loopBack
  exact .ite h (.ite (.takeVerify h) (.ite (.takeRespond h) (.receive h)))

theorem Runs.txFrameDone (h : Kept s₀ s) : Runs s₀ (execTxFrameDone p s) := by
  unfold execTxFrameDone
  refine .atUnit h ?_
  refine .ite h ?_
  split
  · exact h
  · exact .loopBack (.txDone h)

theorem Kept.dropPartial (h : Kept s₀ s) : Kept s₀ (s.dropPartial p) := .ite (.modPort (.bump h)) h

theorem Kept.endFragment {frameNo point : Nat} {last crcOk : Bool} (h : Kept s₀ s) :
    Kept s₀ (s.endFragment p frameNo count point l last crcOk) := by
  unfold State.endFragment
  exact .ite (.modPort (.receive (.modPort (.modPort h)))) (.ite (.modPort h) (.bump (.modPort h)))

theorem Kept.fragment {start : Bool} {frameNo : Nat} {last crcOk : Bool} (h : Kept s₀ s) :
    Kept s₀ (s.fragment p start frameNo count l last crcOk) := by
  unfold State.fragment
  refine .ite (.endFragment (.dropPartial h)) ?_
  split
  · exact h
  · exact .ite (.dropPartial h) (.endFragment h)

theorem Runs.continuationFragmentRx {start : Bool} {frameNo : Nat} {last crcOk : Bool} (h : Kept s₀ s) :
    Runs s₀ (execContinuationFragmentRx p start frameNo count octets last crcOk s) :=
  .atUnit h (.when .fragment h)

theorem Kept.deliver {due : Nat} {a : Cargo} (h : Kept s₀ s) : Kept s₀ (s.deliver due a) := by
  unfold State.deliver
  split
  · exact .update h
  · exact .ite (.panelOffer h) (.update h)

theorem Runs.crossingDelivery {dst : Nat} (h : Kept s₀ s) : Runs s₀ (execCrossingDelivery src dst s) := by
  unfold execCrossingDelivery
  refine .next ?_
  split
  · exact h
  · exact .deliver (.runToLt (.update h))

/-! ### Machine/Tables -/

theorem Kept.templateWrite (h : Kept s₀ s) : Kept s₀ (s.templateWrite off data) := .ite h (.setTab h)

theorem Kept.bar2Put (h : Kept s₀ s) : Kept s₀ (s.bar2Put o off data) :=
  .ite (.mixWrite (.reachMix h)) <|
  .ite (.sidWrite h) <|
  .ite (.subqWrite h) <|
  .ite (.clauseWrite h) <|
  .ite (.wakeFilterWrite h) <|
  .ite (.templateWrite h) <|
  .ite (.contribWrite h) <|
  .cxmWrite h

theorem Kept.bar2Write (h : Kept s₀ s) : Kept s₀ (s.bar2Write o off data) := .ite (.gatedTab (fun _ => .bar2Put) h) h

/-! ### Machine/Dma -/

theorem Kept.setChState (h : Kept s₀ s) : Kept s₀ (s.setChState ch v) := .setf h

theorem Kept.fetch (h : Kept s₀ s) : Kept s₀ (s.fetch ch) := by
  unfold State.fetch
  exact .ite (.setChState h) (.ite (.setChan (.setChState (.bump h))) (.setChan (.setChState h)))

theorem Runs.descriptorFetch (h : Kept s₀ s) : Runs s₀ (execDescriptorFetch ch s) := .atUnit h (.when .fetch h)

theorem Kept.chWrite {f : State → State} (hf : ∀ t, Kept s₀ t → Kept s₀ (f t)) (h : Kept s₀ s) :
    Kept s₀ (s.chWrite o ch data f) :=
  .ite (.refuse h) (hf _ h)

theorem Kept.tailWrite (h : Kept s₀ s) : Kept s₀ (s.tailWrite o ch data) := by
  unfold State.tailWrite
  exact .ite (.refuse h) (.setChan (.setf h))

theorem Runs.dmaDoorbell {tail : Nat} (h : Kept s₀ s) : Runs s₀ (execDmaDoorbell ch tail s) :=
  .atUnit h (.ite (.gated (fun _ ht => .chWrite (fun _ => .tailWrite) ht) h) h)

theorem Kept.cqTailWrite (h : Kept s₀ s) : Kept s₀ (s.cqTailWrite ch data) := by
  unfold State.cqTailWrite
  exact .ite (.setChState (.setf h)) (.setf h)

theorem Runs.cqSlotFree {tail : Nat} (h : Kept s₀ s) : Runs s₀ (execCqSlotFree ch tail s) :=
  .atUnit h (.ite (.gated (fun _ ht => .chWrite (fun _ => .cqTailWrite) ht) h) h)

theorem Kept.reachRaw (h : Kept s₀ s) : Kept s₀ (s.reachRaw a) := .when .reachEngine h

theorem Kept.reachTables (h : Kept s₀ s) : Kept s₀ (s.reachTables a n) := .foldl (fun _ _ => .reachMix) h

theorem Kept.storeRead (h : Kept s₀ s) : Kept s₀ (s.storeRead a n).2 := by
  unfold State.storeRead
  extract_lets ws
  split
  · exact h
  · dsimp only
    exact .foldl (fun _ _ => .storeParity) h

theorem Kept.dmaRead (h : Kept s₀ s) : Kept s₀ (s.dmaRead a n).2.2 := by
  unfold State.dmaRead
  split
  · exact h
  · dsimp only
    exact .countRead h
  · dsimp only
    exact .reachTables h
  · exact h
  · extract_lets s1
    have hs1 : Kept s₀ s1 := .reachRaw (.reachRaw h)
    refine .update ?_
    split
    · exact .storeRead hs1
    · dsimp only
      exact hs1
  · exact h

theorem Kept.rawByte {b : Byte} (h : Kept s₀ s) : Kept s₀ (s.rawByte a b) := .update h

theorem Kept.rawWord (h : Kept s₀ s) : Kept s₀ (s.rawWord a l) := by
  unfold State.rawWord
  extract_lets s1
  have hs1 : Kept s₀ s1 := .when .clearBad h
  split
  · split
    · exact .modMix hs1
    · exact hs1
  · exact .foldl (fun _ _ => .rawByte) hs1

theorem Kept.rawWrite (h : Kept s₀ s) : Kept s₀ (s.rawWrite a l) := .foldl (fun _ _ => .rawWord) h

theorem Kept.tableStore (h : Kept s₀ s) : Kept s₀ (s.tableStore ch a k l).2 := by
  induction k generalizing s a l with
  | zero => exact h
  | succ k ih =>
    unfold State.tableStore
    extract_lets off w
    split
    · exact .bar2Write h
    · exact ih (.bar2Write h)

theorem Kept.dmaWrite (h : Kept s₀ s) : Kept s₀ (s.dmaWrite ch a l).2 := by
  unfold State.dmaWrite
  split
  · dsimp only
    exact .modHost h
  · dsimp only
    exact .cxlWrite h
  · exact .tableStore h
  · exact h
  · dsimp only
    exact .ite (.xingDiscard h) (.rawWrite (.reachRaw h))
  · exact h

theorem Kept.burstCompare {d : Desc} (h : Kept s₀ s) : Kept s₀ (s.burstCompare ch d) := by
  unfold State.burstCompare
  extract_lets c n
  have hx : Kept s₀ (if d.cmpConst then (fillBytes d.fill (d.dstAt c.done) n, n, s) else s.dmaRead (d.srcAt c.done) n).2.2 := by
    split
    · exact h
    · exact .dmaRead h
  exact .ite (.setChan (.dmaRead hx)) (.ite (.setChan (.dmaRead hx)) (.setChan (.dmaRead hx)))

theorem Kept.burstWrite {d : Desc} (h : Kept s₀ s) : Kept s₀ (s.burstWrite ch d) := by
  unfold State.burstWrite
  extract_lets c n a
  have hx : Kept s₀ (if d.op = oFILL then (fillBytes d.fill a n, n, s) else s.dmaRead (d.srcAt c.done) n).2.2 := by
    split
    · exact h
    · exact .dmaRead h
  exact .ite (.setChan (.dmaWrite hx)) (.ite (.setChan (.dmaWrite hx)) (.setChan (.dmaWrite hx)))

theorem Kept.endRow {d : Desc} (h : Kept s₀ s) : Kept s₀ (s.endRow ch d) := by
  unfold State.endRow
  extract_lets c s1 c1 e
  have hs1 : Kept s₀ s1 := .dropRow h
  refine .ite (.setChan (.bump hs1)) <| .ite (.sidParity hs1) <| .ite (.bump hs1) ?_
  split
  next f t ht =>
    extract_lets t1
    have ht1 : Kept s₀ t1 := .countNoSeq (.snd ht (.dmaFrame hs1))
    split
    next y u hu =>
      split
      next ok w hw =>
        have hq : Kept s₀ w := .snd hw (.offerTo (.snd hu (.eshCopy ht1)))
        exact .when .bump hq

theorem Kept.beginRow {d : Desc} {t : State} (h : Kept s₀ s) (ht : s.beginRow ch d = some t) : Kept s₀ t := by
  unfold State.beginRow at ht
  dsimp only at ht
  split at ht
  · cases ht
    exact h
  · split at ht
    · cases ht
    · cases ht
      exact .setChan (.setIsland h)

theorem Kept.burstFrame {d : Desc} (h : Kept s₀ s) : Kept s₀ (s.burstFrame ch d) := by
  unfold State.burstFrame
  extract_lets start
  split
  · exact .bump (.setChState h)
  next t ht =>
    have hs : Kept s₀ t := by
      split at ht
      · exact .beginRow h ht
      · cases ht
        exact h
    exact .ite (.setChan (.dropRow (.dmaRead hs))) (.ite (.endRow (.setChan (.dmaRead hs))) (.setChan (.dmaRead hs)))

theorem Kept.burst (h : Kept s₀ s) : Kept s₀ (s.burst ch) := by
  unfold State.burst
  split
  · exact h
  · exact .ite (.burstFrame h) (.ite (.burstCompare h) (.burstWrite h))

theorem Runs.dmaBurst (h : Kept s₀ s) : Runs s₀ (execDmaBurst s) := by
  unfold execDmaBurst
  refine .next ?_
  refine .ite h ?_
  split
  · exact h
  · exact .burst (.update h)

theorem Runs.dmaPoolCellsAvailable (h : Kept s₀ s) : Runs s₀ (execDmaPoolCellsAvailable ch s) := by
  unfold execDmaPoolCellsAvailable
  refine .atUnit h ?_
  split
  · exact h
  · exact .when .setChState h

theorem Kept.beatError (h : Kept s₀ s) : Kept s₀ (s.beatError ch) := by
  unfold State.beatError
  extract_lets c
  split
  · exact h
  · exact .ite h (.ite (.setChan (.dropRow h)) (.setChan h))

theorem Runs.beatError (h : Kept s₀ s) : Runs s₀ (execBeatError ch s) := .atUnit h (.when .beatError h)

theorem Kept.chVector (h : Kept s₀ s) : Kept s₀ (s.chVector ch) := by
  unfold State.chVector
  exact .ite (.sendVec h) (.sendVec h)

theorem Kept.countBack {d : Desc} (h : Kept s₀ s) : Kept s₀ (s.countBack d) := by
  unfold State.countBack
  split
  · exact .when .countRead h
  · exact h

theorem Kept.afterRecord {status : Nat} {paused : Bool} (h : Kept s₀ s) : Kept s₀ (s.afterRecord ch status paused) := by
  unfold State.afterRecord
  extract_lets c s1 s2 s3
  have hs1 : Kept s₀ s1 := .setChan h
  have hs2 : Kept s₀ s2 := .setf (.setf hs1)
  have hs3 : Kept s₀ s3 := .setf (.setf hs2)
  exact .ite (.setChState (.setf (.setf (.bump hs3)))) (.setChState hs3)

theorem Kept.complete {d : Desc} {status good : Nat} (h : Kept s₀ s) : Kept s₀ (s.complete ch d status good) := by
  unfold State.complete
  extract_lets c paused q1 mem mem1 s1 s2 s3 s4 s5
  have hs4 : Kept s₀ s4 := .bump (.setf (.setChan (.setf (.modHost h))))
  exact .afterRecord (.when .chVector hs4)

theorem Kept.completeNext {readBackOk : Bool} (h : Kept s₀ s) : Kept s₀ (s.completeNext ch readBackOk) := by
  unfold State.completeNext
  extract_lets c
  split
  · exact .complete h
  · exact .ite h (.ite (.complete (.countBack h)) (.complete h))
  · exact h

theorem Runs.descriptorComplete {readBackOk : Bool} (h : Kept s₀ s) :
    Runs s₀ (execDescriptorComplete ch readBackOk s) :=
  .atUnit h (.when .completeNext h)

theorem Kept.setPos (h : Kept s₀ s) : Kept s₀ (s.setPos ch) := by
  unfold State.setPos
  extract_lets c
  split
  · exact h
  · exact .setf (.setf (.setf h))

theorem Runs.dmaPause (h : Kept s₀ s) : Runs s₀ (execDmaPause ch s) :=
  .atUnit h (.ite (.gated (fun _ ht => .chWrite (fun _ => .pauseChan) ht) h) h)

theorem Runs.dmaPaused (h : Kept s₀ s) : Runs s₀ (execDmaPaused ch s) := .atUnit h (.ite (.setChState (.setPos h)) h)

theorem Kept.resumeChan (h : Kept s₀ s) : Kept s₀ (s.resumeChan ch) := by
  unfold State.resumeChan
  exact .ite (.setChState (.setf (.setf h))) (.setf (.setf h))

theorem Runs.dmaResume (h : Kept s₀ s) : Runs s₀ (execDmaResume ch s) :=
  .atUnit h (.ite (.gated (fun _ ht => .chWrite (fun _ => .resumeChan) ht) h) h)

theorem Kept.disableChan (h : Kept s₀ s) : Kept s₀ (s.disableChan o ch data) := by
  unfold State.disableChan
  exact .ite (.chStop h) (.refuse h)

theorem Kept.enableChan (h : Kept s₀ s) : Kept s₀ (s.enableChan ch) := by
  unfold State.enableChan
  exact .ite (.setChState (.setf h)) (.setf h)

theorem Runs.dmaChannelDisable (h : Kept s₀ s) : Runs s₀ (execDmaChannelDisable ch s) :=
  .atUnit h (.ite (.gated (fun _ ht => .chWrite (fun _ => .disableChan) ht) h) h)

/-! ### Machine/Retain -/

theorem Kept.wipePort (h : Kept s₀ s) : Kept s₀ (s.wipePort p) := by
  unfold State.wipePort
  exact .foldl (fun _ _ => .release) (.setPort h)

theorem Kept.rewindLine (h : Kept s₀ s) : Kept s₀ (s.rewindLine n) := by
  unfold State.rewindLine
  exact .setLine (.foldl (fun _ _ => .release) h)

theorem Kept.rewindLines (h : Kept s₀ s) : Kept s₀ s.rewindLines := .foldl (fun _ _ => .rewindLine) h

theorem Kept.dropCaptures (h : Kept s₀ s) : Kept s₀ s.dropCaptures := .foldl (fun _ _ => .release) (.update h)

theorem Kept.dropWaiting (h : Kept s₀ s) : Kept s₀ s.dropWaiting := by
  unfold State.dropWaiting
  exact .settleUnblocks (.foldl (fun _ _ => .release) (.update h))

theorem Kept.wipeQueues (h : Kept s₀ s) : Kept s₀ s.wipeQueues := by
  unfold State.wipeQueues
  exact .dropWaiting (.dropCaptures (.rewindLines (.foldl (fun _ _ => .wipePort) h)))

theorem Kept.wipePanel (h : Kept s₀ s) : Kept s₀ (s.wipePanel t) := by
  unfold State.wipePanel
  exact .modPanel (.foldl (fun _ _ => .release) h)

theorem Kept.wipePanels (h : Kept s₀ s) : Kept s₀ s.wipePanels := .foldl (fun _ _ => .wipePanel) h

theorem Kept.resetPanel (h : Kept s₀ s) : Kept s₀ (s.resetPanel t) := .modPanel (.setf (.wipePanel (.panelSettle h)))

theorem Kept.panelBeacon (h : Kept s₀ s) : Kept s₀ (s.panelBeacon t) := .when .setf h

theorem Kept.sidDefaults (h : Kept s₀ s) : Kept s₀ s.sidDefaults := by
  unfold State.sidDefaults
  exact .foldl (fun _ _ => .meterFull) (.foldl (fun _ _ => .setTakeAny) h)

theorem Kept.emptyCtx (h : Kept s₀ s) : Kept s₀ (s.emptyCtx c) := .modMix (.setTab h)

theorem Kept.wipeStores {f : Nat → Bool} (h : Kept s₀ s) : Kept s₀ (s.wipeStores f) := by
  unfold State.wipeStores
  exact .update (.foldl (fun _ _ => .emptyCtx) h)

theorem Kept.mixDefaults (h : Kept s₀ s) : Kept s₀ s.mixDefaults := .modMix (.wipeStores h)

theorem Kept.stopChannels (h : Kept s₀ s) : Kept s₀ s.stopChannels := .foldl (fun _ _ ht => .ite ht (.chStop ht)) h

theorem Kept.tsuReset (h : Kept s₀ s) : Kept s₀ (s.tsuReset p) := by
  unfold State.tsuReset
  exact .newSide (.modTsu (.resetFlds h))

theorem Kept.senReset (h : Kept s₀ s) : Kept s₀ (s.senReset p) := .discardWhere (fun _ _ ht => ht) h

theorem Kept.prtReset (h : Kept s₀ s) : Kept s₀ (s.prtReset p) := .linkLost h

/-! ### Machine/Pair -/

theorem Runs.aliveStopIdle (h : Kept s₀ s) : Runs s₀ (execAliveStopIdle s) := .next (.ite (.timeAlive (.modPair h)) h)

theorem Kept.writeClaim (h : Kept s₀ s) : Kept s₀ s.writeClaim := .when .cxlWrite h

theorem Kept.enterOper (h : Kept s₀ s) : Kept s₀ s.enterOper := by
  unfold State.enterOper
  exact .ite (.writeClaim (.toOp h)) (.toOp h)

theorem Kept.dropTakeover (h : Kept s₀ s) : Kept s₀ s.dropTakeover := .ite (.setf (.modPair h)) h

theorem Kept.startTakeover (h : Kept s₀ s) : Kept s₀ s.startTakeover := .ite (.writeClaim (.modPair h)) h

theorem Kept.pairEnable {base : Nat} (h : Kept s₀ s) : Kept s₀ (s.pairEnable base) := by
  unfold State.pairEnable
  exact .setf (.setf (.setf (.setf (.setf h))))

theorem Kept.pairDisable (h : Kept s₀ s) : Kept s₀ s.pairDisable := by
  unfold State.pairDisable
  exact .modPair (.dropTakeover (.setf (.setf h)))

theorem Kept.checkpointConfig {c : Cmd} (h : Kept s₀ s) : Kept s₀ (s.checkpointConfig c) := by
  unfold State.checkpointConfig
  exact .ite (.finishOk (.pairDisable h)) (.ite (.finish h) (.startTakeover (.finishOk (.pairEnable h))))

theorem Runs.checkpointConfig (h : Kept s₀ s) : Runs s₀ (execCheckpointConfig s) :=
  .next (.xci (fun _ _ => .checkpointConfig) h)

theorem Kept.cxlZero (h : Kept s₀ s) : Kept s₀ (s.cxlZero c off n) := .setCxl h

theorem Kept.writeBody {w : CkptWrite} (h : Kept s₀ s) : Kept s₀ (s.writeBody w) := by
  unfold State.writeBody
  exact .foldl (fun _ _ => .cxlWrite) (.cxlZero h)

theorem Kept.ckptFail (h : Kept s₀ s) : Kept s₀ (s.ckptFail slot) := .raise (.bump (.modPair h))

theorem Kept.capture {final : Bool} (h : Kept s₀ s) : Kept s₀ (s.capture final) := by
  unfold State.capture
  extract_lets slot
  split
  · exact .ckptFail (.countRead h)
  · exact .ite (.raise (.modPair h)) (.ite (.ckptFail h) (.modPair (.cxlWrite h)))

theorem Runs.checkpointCapture (h : Kept s₀ s) : Runs s₀ (execCheckpointCapture s) :=
  .next (.ite h (.ite (.bump (.runToNs h)) (.capture (.runToNs h))))

theorem Kept.ckptDone {w : CkptWrite} (h : Kept s₀ s) : Kept s₀ (s.ckptDone w) := by
  unfold State.ckptDone
  exact .modPair (.bump (.setf (.setf (.cxlWrite (.writeBody h)))))

theorem Runs.checkpointWriteDone (h : Kept s₀ s) : Runs s₀ (execCheckpointWriteDone ok s) := by
  unfold execCheckpointWriteDone
  refine .next ?_
  split
  · exact h
  · exact .ite (.modPair h) (.ite (.ckptDone h) (.ckptFail h))

theorem Kept.levelLow (h : Kept s₀ s) : Kept s₀ s.levelLow := by
  unfold State.levelLow
  exact .ite h (.ite (.ite (.toOp (.capture (.modPair h))) (.capture (.modPair h))) (.dropTakeover h))

theorem Kept.roleFall (h : Kept s₀ s) : Kept s₀ s.roleFall := by
  unfold State.roleFall
  exact .ite (.modPair h) (.levelLow (.modPair h))

theorem Kept.roleRise (h : Kept s₀ s) : Kept s₀ s.roleRise := .startTakeover (.modPair h)

theorem Kept.heartbeat (h : Kept s₀ s) : Kept s₀ s.heartbeat := by
  unfold State.heartbeat
  exact .ite (.ite (.startTakeover (.modPair h)) (.levelLow (.modPair h))) h

theorem Runs.aliveToggle (h : Kept s₀ s) : Runs s₀ (execAliveToggle s) := by
  unfold execAliveToggle
  refine .next ?_
  extract_lets s1
  have hs1 : Kept s₀ s1 := .timeAlive (.heartbeat h)
  split
  · exact hs1
  · exact .modPair (.runToLt hs1)

theorem Kept.takeoverStep {f : Takeover → State} (hf : ∀ x, Kept s₀ (f x)) (h : Kept s₀ s) : Kept s₀ (s.takeoverStep f) := by
  unfold State.takeoverStep
  split
  · exact h
  · exact .ite h (.ite (hf _) (.dropTakeover h))

theorem Runs.takeoverHeadersRead (h : Kept s₀ s) : Runs s₀ (execTakeoverHeadersRead s) :=
  .next (.takeoverStep (fun _ => .modPair (.foldl (fun _ _ => .countRead) h)) h)

theorem Kept.takeGens {body : Nat → Option Nat} (h : Kept s₀ s) : Kept s₀ (s.takeGens body) :=
  .foldl (fun _ _ => .setTabBits) h

theorem Kept.putBlock {fs : List Field} {b : SenBlock} (h : Kept s₀ s) : Kept s₀ (s.putBlock p fs b) := by
  unfold State.putBlock
  exact .foldl (fun _ _ => .setf) h

theorem Kept.adoptSen {r : SenRec} (h : Kept s₀ s) : Kept s₀ (s.adoptSen p r) := by
  unfold State.adoptSen
  extract_lets had s1 s2
  have hs2 : Kept s₀ s2 := .modSen (.putBlock (.setf (.setf h)))
  split
  · exact .ite (.modSen (.setf (.putBlock hs2))) (.setf hs2)
  · exact .setf hs2

theorem Kept.resumeSen (h : Kept s₀ s) : Kept s₀ (s.resumeSen p) := .ite (.takeClause (.modSen h)) (.regate h)

theorem Kept.takeSen {nt : Nat} {r : SenRec} (h : Kept s₀ s) : Kept s₀ (s.takeSen nt p r).2 := by
  unfold State.takeSen
  extract_lets s1 r1
  have hs1 : Kept s₀ s1 := .when .doSwap h
  split
  · dsimp only
    exact hs1
  · dsimp only
    exact .resumeSen (.adoptSen hs1)

theorem Kept.dropBank {b : Nat} (h : Kept s₀ s) : Kept s₀ (s.dropBank b) := by
  unfold State.dropBank
  exact .freeStore (.modMix (.mixCells h))

theorem Kept.holdBank {b : Nat} {p : Placement} (h : Kept s₀ s) : Kept s₀ (s.holdBank b p) := by
  unfold State.holdBank
  exact .showPlacement (.ite h (.modMix (.allocate (.mixCells h))))

theorem Kept.takeBank {b last : Nat} {keep : Bool} (h : Kept s₀ s) : Kept s₀ (s.takeBank b last keep) := by
  unfold State.takeBank
  extract_lets old own place s1 s2
  have hs2 : Kept s₀ s2 := .dropBank (.modPair (.modMix (.setf h)))
  clear_value place
  split
  · exact .holdBank hs2
  · exact hs2

theorem Kept.followCommit {pend : Option Nat} (h : Kept s₀ s) : Kept s₀ (s.followCommit pend) := by
  unfold State.followCommit
  split
  · exact h
  · split
    · exact .modMix h
    · exact .dropCommit h

theorem Kept.takeMix {nt : Nat} {r : MixRec} (h : Kept s₀ s) : Kept s₀ (s.takeMix nt r).2 := by
  unfold State.takeMix
  extract_lets s1 r1 own
  have hs1 : Kept s₀ s1 := by
    unfold s1
    split
    · exact .when .activate h
    · exact h
  split
  · dsimp only
    exact hs1
  · dsimp only
    exact .when .followCommit (.when .takeBank (.when .followCommit hs1))

theorem Kept.takeoverDefaults (h : Kept s₀ s) : Kept s₀ s.takeoverDefaults :=
  .dropRemotes (.stopChannels (.mixDefaults (.sidDefaults (.wipeQueues h))))

theorem Kept.mismatch (h : Kept s₀ s) : Kept s₀ (s.mismatch n) := .ite h (.raise (.bump h))

theorem Kept.applyBody {nt : Nat} (h : Kept s₀ s) : Kept s₀ (s.applyBody nt k) :=
  .takeoverDefaults (.mismatch (.takeMix (.foldl_snd (fun _ _ => .takeSen) (.takeGens h))))

theorem Kept.releasePair {since outcome : Nat} (h : Kept s₀ s) : Kept s₀ (s.releasePair since outcome) := by
  unfold State.releasePair
  exact .enterOper (.setf (.setf (.bump (.modPair h))))

theorem Kept.loadSlot {t : Takeover} (h : Kept s₀ s) : Kept s₀ (s.loadSlot t k) := by
  unfold State.loadSlot
  exact .releasePair (.setf (.setf (.applyBody (.when .raise h))))

theorem Runs.takeoverBodyLoaded (h : Kept s₀ s) : Runs s₀ (execTakeoverBodyLoaded s) := by
  unfold execTakeoverBodyLoaded
  refine .next (.takeoverStep (fun _ => ?_) h)
  split
  · exact h
  · exact .ite h (.ite (.loadSlot h) (.modPair (.countRead h)))

theorem Kept.ownState {t : Takeover} (h : Kept s₀ s) : Kept s₀ (s.ownState t) := by
  unfold State.ownState
  exact .raise (.releasePair (.bump (.runToLt (.takeoverDefaults (.takeGens h)))))

theorem Runs.takeoverTimeout (h : Kept s₀ s) : Runs s₀ (execTakeoverTimeout s) :=
  .next (.takeoverStep (fun _ => .ownState (.runToLt h)) h)

theorem Kept.placeOperative (h : Kept s₀ s) : Kept s₀ s.placeOperative := by
  unfold State.placeOperative
  extract_lets b
  split
  · exact h
  · exact .modMix (.showPlacement (.allocate (.mixCells h)))

theorem Runs.takeoverPlacementDone (h : Kept s₀ s) : Runs s₀ (execTakeoverPlacementDone s) :=
  .next (.ite (.placeOperative (.modPair h)) h)

/-! ### Machine/Bist -/

theorem Kept.wipeMemories (h : Kept s₀ s) : Kept s₀ s.wipeMemories := by
  unfold State.wipeMemories
  exact .update (.mixDefaults (.wipePanels (.wipeQueues h)))

theorem Kept.dropWindow (h : Kept s₀ s) : Kept s₀ (s.dropWindow w) := .update h

theorem Kept.dropTabs {f : Nat → Bool} {bad : Nat × Nat → Bool} (h : Kept s₀ s) : Kept s₀ (s.dropTabs f bad) :=
  .update h

theorem Kept.dropUnit (h : Kept s₀ s) : Kept s₀ (s.dropUnit u) := .dropTabs h

theorem Kept.dropMemories (h : Kept s₀ s) : Kept s₀ (s.dropMemories u) := by
  unfold State.dropMemories
  exact .ite (.foldl (fun _ _ => .wipePort) (.dropUnit h)) (.ite (.wipeStores (.dropUnit h)) (.update (.dropUnit h)))

theorem Kept.clearKeys {mask cause : Nat} (h : Kept s₀ s) : Kept s₀ (s.clearKeys mask cause) := by
  unfold State.clearKeys
  exact .ite (.raise (.setf (.setf (.modBst h)))) h

theorem Kept.bistStart (h : Kept s₀ s) : Kept s₀ (s.bistStart m repair) := by
  unfold State.bistStart
  exact .park (.setf (.setf (.modBst (.when .clearKeys h))))

theorem Kept.bistRun {c : Cmd} (h : Kept s₀ s) : Kept s₀ (s.bistRun c) := by
  unfold State.bistRun
  exact .ite (.finish h) (.ite (.finish h) (.ite (.finish h) (.bistStart h)))

theorem Runs.bistRun (h : Kept s₀ s) : Runs s₀ (execBistRun s) := .next (.xci (fun _ _ => .bistRun) h)

theorem Kept.bistWave {baseline : Nat} (h : Kept s₀ s) : Kept s₀ (s.bistWave baseline) := by
  unfold State.bistWave
  exact .ite (.modBst (.run h)) (.setf (.modBst (.run h)))

theorem Runs.bistWaveStart {baseline : Nat} (h : Kept s₀ s) : Runs s₀ (execBistWaveStart baseline s) :=
  .next (.ite h (.bistWave h))

theorem Kept.scanned (h : Kept s₀ s) : Kept s₀ (s.scanned g u) := by
  unfold State.scanned
  split
  · exact .dropUnit (.modBst (.foldl (fun _ _ ht => .update (.dropWindow (.wipePort ht))) h))
  · exact .dropTabs (.dropUnit (.modBst (.dropWindow (.wipeStores h))))
  · exact .dropUnit (.update (.dropWindow h))
  · exact .dropTabs (.update (.dropWindow (.dropWindow h)))
  · exact .foldl (fun _ _ ht => .startEnum (.setCxl ht)) <| .dropTabs <| .update <| .dropWindow <| .dropWindow <|
      .dropCaptures <| .rewindLines h
  · exact h

theorem Kept.tested (h : Kept s₀ s) : Kept s₀ (s.tested g u) := .ite (.update (.dropMemories h)) (.scanned h)

theorem Kept.recordEnd {x : BistUnit} {start wave : Nat} (h : Kept s₀ s) : Kept s₀ (s.recordEnd x start wave) := by
  unfold State.recordEnd
  exact .modBst h

theorem Kept.recordFirst {x : BistUnit} {e : UnitEnd} (h : Kept s₀ s) : Kept s₀ (s.recordFirst x e) := by
  unfold State.recordFirst
  exact .modBst h

theorem Kept.noteUnrepaired (h : Kept s₀ s) : Kept s₀ (s.noteUnrepaired g u) := .modBst h

theorem Kept.unitFails {x : BistUnit} {e : UnitEnd} (h : Kept s₀ s) : Kept s₀ (s.unitFails x e repair) := by
  unfold State.unitFails
  extract_lets s1 first s2 s3 on s4
  have hs1 : Kept s₀ s1 := .bump h
  have hs3 : Kept s₀ s3 := .modBst (.when .recordFirst hs1)
  have hs4 : Kept s₀ s4 := .when .modBst hs3
  exact .ite (.modBst hs1) (.ite (.raise hs4) (.when .noteUnrepaired hs4))

theorem Kept.spentUnit (h : Kept s₀ s) : Kept s₀ (s.spentUnit engine u) := .foldl (fun _ _ => .noteUnrepaired) h

theorem Kept.trySpare (h : Kept s₀ s) : Kept s₀ (s.trySpare engine u) := by
  unfold State.trySpare
  split
  · exact .spentUnit h
  · exact .modBst h

theorem Kept.noteRepair {old : Nat} (h : Kept s₀ s) : Kept s₀ (s.noteRepair engine u old p g) := by
  unfold State.noteRepair
  exact .raise (.modBst h)

theorem Kept.softRepair (h : Kept s₀ s) : Kept s₀ (s.softRepair engine u p) := by
  unfold State.softRepair
  exact .foldl (fun _ _ => .noteRepair) (.bump (.modBst h))

theorem Kept.stepRepair (h : Kept s₀ s) : Kept s₀ (s.stepRepair engine u) := by
  unfold State.stepRepair
  split
  · exact .trySpare h
  · exact .ite (.trySpare (.modBst h)) (.when .softRepair h)

theorem Kept.stepRepairs (h : Kept s₀ s) : Kept s₀ s.stepRepairs :=
  .foldl (fun _ _ ht => .foldl (fun _ _ ht => .ite ht (.ite (.spentUnit ht) (.stepRepair ht))) ht) h

theorem Kept.endUnit {ends : List UnitEnd} {start wave : Nat} (h : Kept s₀ s) :
    Kept s₀ (s.endUnit ends start wave repair i) := by
  unfold State.endUnit
  split
  · exact h
  · refine .ite h ?_
    extract_lets e ok s1 s2 s3
    have hs3 : Kept s₀ s3 := .modBst (.ite (.recordEnd h) (.tested (.recordEnd h)))
    clear_value s3 ok e
    split
    · exact .ite hs3 (.unitFails hs3)
    · exact hs3

theorem Runs.bistWaveDone {ends : List UnitEnd} (h : Kept s₀ s) : Runs s₀ (execBistWaveDone ends s) := by
  unfold execBistWaveDone
  refine .next ?_
  split
  · exact h
  · exact .ite h (.when .stepRepairs (.foldl (fun _ _ => .endUnit) (.runToLt h)))

theorem Kept.raiseUnrepaired (h : Kept s₀ s) : Kept s₀ s.raiseUnrepaired := .foldl (fun _ _ ht => .ite ht (.raise ht)) h

theorem Kept.bistEnd (h : Kept s₀ s) : Kept s₀ (s.bistEnd repair) := by
  unfold State.bistEnd
  extract_lets done s1 s2 s3
  have hs3 : Kept s₀ s3 := .ite (.finishParked (.bump (.setf (.modBst h)))) (.finishParked (.setf (.modBst h)))
  exact .when .raiseUnrepaired hs3

theorem Runs.bistRunDone (h : Kept s₀ s) : Runs s₀ (execBistRunDone s) := by
  unfold execBistRunDone
  refine .next ?_
  split
  · exact h
  · exact .ite h (.bistEnd h)

theorem Runs.bistResult (h : Kept s₀ s) : Runs s₀ (execBistResult s) := .next (.xci (fun _ _ => .finishOk) h)

theorem Kept.fuseBurn (h : Kept s₀ s) : Kept s₀ (s.fuseBurn o data) := by
  unfold State.fuseBurn
  exact .ite (.refuse h) (.ite h (.setf (.modBst h)))

theorem Runs.fuseBurn (h : Kept s₀ s) : Runs s₀ (execFuseBurn s) := .next (.ite (.gated (fun _ => .fuseBurn) h) h)

theorem Kept.burnOne {r : Repair} (h : Kept s₀ s) : Kept s₀ (s.burnOne r ok) := by
  unfold State.burnOne
  extract_lets n f s1
  have hs1 : Kept s₀ s1 := .setf ⟨h.queue, h.part⟩
  exact .ite ⟨hs1.queue, hs1.part⟩ (.raise hs1)

theorem Runs.fuseBurnDone {readBacks : List Bool} (h : Kept s₀ s) : Runs s₀ (execFuseBurnDone readBacks s) := by
  unfold execFuseBurnDone
  refine .next ?_
  split
  · exact h
  · exact .setf (.modBst (.foldl (fun _ _ => .burnOne) (.runToLt h)))

/-! ### Machine/Faults -/

theorem Kept.seeCauses (h : Kept s₀ s) : Kept s₀ (s.seeCauses i) := .update h

theorem Runs.fltCauseRead (h : Kept s₀ s) : Runs s₀ (execFltCauseRead i s) :=
  .next (.ite (.modHost (.when .seeCauses h)) h)

theorem Kept.clearCause (h : Kept s₀ s) : Kept s₀ (s.clearCause src) := by
  unfold State.clearCause
  exact .ite (.ite (.setCause (.update (.setBit h))) (.update (.setBit h))) h

theorem Kept.clearCauses {data : Word} (h : Kept s₀ s) : Kept s₀ (s.clearCauses i data) :=
  .foldl (fun _ _ => .clearCause) h

theorem Runs.faultCauseClear {data : Word} (h : Kept s₀ s) : Runs s₀ (execFaultCauseClear i data s) :=
  .next (.ite (.gated (fun _ ht => .when .clearCauses ht) h) h)

theorem Kept.fltForce (h : Kept s₀ s) : Kept s₀ (s.fltForce o data) := .ite (.raise h) (.refuse h)

theorem Runs.fltForce {data : Word} (h : Kept s₀ s) : Runs s₀ (execFltForce data s) :=
  .next (.ite (.gated (fun _ => .fltForce) h) h)

theorem Kept.firstRearm (h : Kept s₀ s) : Kept s₀ s.firstRearm := .update h

theorem Runs.firstRearm (h : Kept s₀ s) : Runs s₀ (execFirstRearm s) := .next (.ite (.gated (fun _ => .firstRearm) h) h)

theorem Runs.irqHoldoffEnd (h : Kept s₀ s) : Runs s₀ (execIrqHoldoffEnd s) := by
  unfold execIrqHoldoffEnd
  split
  · exact .next h
  · exact .next (.ite (.faultIrq (.update (.runToLt h))) (.update (.runToLt h)))

/-! ### Machine/Life -/

theorem Kept.keyLoad {c : Cmd} (h : Kept s₀ s) : Kept s₀ (s.keyLoad c) := by
  unfold State.keyLoad
  exact .ite (.finish h) (.ite (.finish h) (.ite (.finish h) (.finishOk (.setBit (.modBst h)))))

theorem Runs.keyLoad (h : Kept s₀ s) : Runs s₀ (execKeyLoad s) := .next (.xci (fun _ _ => .keyLoad) h)

theorem Runs.keyClear (h : Kept s₀ s) : Runs s₀ (execKeyClear s) :=
  .next (.xci (fun _ _ ht => .finishOk (.clearKeys ht)) h)

theorem Kept.selectTap {i : TapInstr} (h : Kept s₀ s) : Kept s₀ (s.selectTap i) := by
  unfold State.selectTap
  exact .setf (.modBst h)

theorem Runs.tapInstruction {i : TapInstr} (h : Kept s₀ s) : Runs s₀ (execTapInstruction i s) := by
  unfold execTapInstruction
  refine .next ?_
  split
  · exact .ite (.selectTap h) (.bump (.selectTap h))
  · exact .ite (.selectTap h) (.bump (.selectTap h))
  · exact .ite (.selectTap h) (.bump (.selectTap h))
  · exact .ite (.selectTap h) (.selectTap h)
  · exact .selectTap h
  · exact .selectTap h
  · exact .selectTap h

theorem Runs.scanUnlock {value : Nat} (h : Kept s₀ s) : Runs s₀ (execScanUnlock value s) :=
  .next (.ite h (.ite (.modBst h) (.bump (.modBst h))))

theorem Runs.scanOpen (h : Kept s₀ s) : Runs s₀ (execScanOpen s) :=
  .next (.ite (.modBst (.wipeMemories (.clearKeys (.raise h)))) h)

theorem Runs.scanChainsConnect (h : Kept s₀ s) : Runs s₀ (execScanChainsConnect s) :=
  .next (.ite (.setf (.modBst (.run h))) (.modBst h))

theorem Kept.authFail {target : Nat} (h : Kept s₀ s) : Kept s₀ (s.authFail target) := by
  unfold State.authFail
  exact .raise (.setf (.setf (.modBst h)))

theorem Kept.startAdvance {target : Nat} (h : Kept s₀ s) : Kept s₀ (s.startAdvance target v) := by
  unfold State.startAdvance
  exact .park (.modBst (.setf (.wipeMemories (.clearKeys (.pauseAll h)))))

theorem Kept.lifecycleAdvance {c : Cmd} (h : Kept s₀ s) : Kept s₀ (s.lifecycleAdvance c) := by
  unfold State.lifecycleAdvance
  exact .ite (.finish h) <|
    .ite (.finish h) <|
    .ite (.finish h) <|
    .ite (.finish h) <|
    .ite (.finish (.authFail h)) <|
    .startAdvance h

theorem Runs.lifecycleAdvance (h : Kept s₀ s) : Runs s₀ (execLifecycleAdvance s) :=
  .next (.xci (fun _ _ => .lifecycleAdvance) h)

theorem Kept.fuseState {target key : Nat} (h : Kept s₀ s) : Kept s₀ (s.fuseState target key) := by
  unfold State.fuseState
  extract_lets owner f s1
  have hs1 : Kept s₀ s1 := ⟨h.queue, h.part⟩
  exact .raise hs1

theorem Runs.lifecycleWipeDone {failed : List Nat} (h : Kept s₀ s) : Runs s₀ (execLifecycleWipeDone failed s) := by
  unfold execLifecycleWipeDone
  refine .next ?_
  split
  · exact h
  · extract_lets lost bad s1 s2 s3
    have hs3 : Kept s₀ s3 := .setf (.modBst (.foldl (fun _ _ ht => .ite ht (.wipeCxl ht)) (.runToLt h)))
    exact .ite (.finishParked (.fuseState (.bump hs3))) (.finishParked (.foldl (fun _ _ => .raise) hs3))

/-! ### Machine/MixBuild -/

theorem Kept.buildVideo (h : Kept s₀ s) : Kept s₀ (s.buildVideo b x) := by
  unfold State.buildVideo
  exact .ite h (.setBatch h)

theorem Kept.buildVideos (h : Kept s₀ s) : Kept s₀ (s.buildVideos d) := by
  unfold State.buildVideos
  refine .foldl (fun _ _ ht => .foldl (fun _ _ ht => ?_) ht) h
  split
  · exact .buildVideo ht
  · exact ht

theorem Kept.allotDone (h : Kept s₀ s) : Kept s₀ (s.allotDone b) := by
  unfold State.allotDone
  exact .buildVideos (.setBatch (.runToNs h))

theorem Runs.allotmentDone (h : Kept s₀ s) : Runs s₀ (execAllotmentDone e d s) := by
  unfold execAllotmentDone
  refine .next ?_
  split
  · exact h
  · exact .when .allotDone h

theorem Kept.sendMixed {b : Built} {due : MixDue} (h : Kept s₀ s) : Kept s₀ (s.sendMixed b due seq e) := by
  unfold State.sendMixed
  refine .ite (.sidParity h) <| .ite (.bump h) ?_
  extract_lets p
  split
  next f t ht =>
    split
    next c u hu => exact .offerTo (.snd hu (.eshCopy (.snd ht (.newFrame h))))

theorem Kept.enqueueMixed {due : MixDue} {b : Built} (h : Kept s₀ s) : Kept s₀ (s.enqueueMixed due b) := by
  unfold State.enqueueMixed
  extract_lets g
  refine .ite (.sidParity h) ?_
  split
  next seq t ht =>
    have hg : Kept s₀ t := by
      split at ht
      · exact .snd ht (.generate h)
      · cases ht
        exact h
    exact .bump (.foldl (fun _ _ => .sendMixed) (.countNoSeq hg))

theorem Kept.enqueueBatch (h : Kept s₀ s) : Kept s₀ (s.enqueueBatch b) := by
  unfold State.enqueueBatch
  extract_lets s1
  refine .foldl (fun _ _ ht => ?_) (.dropBatch (.runToNs h))
  extract_lets fs m g
  split
  · exact ht
  · exact .ite ht (.ite (.bump ht) (.ite (.bump ht) (.foldl (fun _ _ => .enqueueMixed) ht)))

theorem Kept.enqueueLate (h : Kept s₀ s) : Kept s₀ (s.enqueueLate b) := by
  unfold State.enqueueLate
  exact .modMix (.foldl (fun _ _ ht => .ite ht (.bump ht)) (.lateSums (.runToNs h)))

theorem Runs.mixDeadlineEnqueue (h : Kept s₀ s) : Runs s₀ (execMixDeadlineEnqueue e d s) := by
  unfold execMixDeadlineEnqueue
  refine .next ?_
  split
  · exact h
  · exact .ite (.enqueueBatch h) (.when .enqueueLate h)

/-! ### Machine/Monitors -/

theorem Kept.supplyRail (h : Kept s₀ s) : Kept s₀ (s.supplyRail r v i) := by
  unfold State.supplyRail
  extract_lets t v1 step w f rest t1 info t2
  have ht2 : Kept s₀ t2 := .ite (.raise (.modPwr (.setf (.setf h)))) (.modPwr (.setf (.setf h)))
  exact .when .raise ht2

theorem Kept.supplyRails {l : List (Nat × Nat)} (h : Kept s₀ s) : Kept s₀ (s.supplyRails r l) := by
  induction l generalizing s r with
  | nil => exact h
  | cons x l ih => exact .ite (ih (.supplyRail h)) h

theorem Runs.supplySample {readings : List (Nat × Nat)} (h : Kept s₀ s) : Runs s₀ (execSupplySample readings s) :=
  .next (.ite (.runPeriod h) (.supplyRails (.runPeriod h)))

theorem Kept.storeTemps {readings : List (Nat × Int)} (h : Kept s₀ s) : Kept s₀ (s.storeTemps readings) := by
  unfold State.storeTemps
  exact .setf (.setf (.foldl (fun _ _ ht => .when .setf ht) h))

theorem Runs.thermalSample {readings : List (Nat × Int)} (h : Kept s₀ s) : Runs s₀ (execThermalSample readings s) := by
  unfold execThermalSample
  extract_lets t w c t1 t2
  have ht2 : Kept s₀ t2 := by
    unfold t2
    split
    · exact .raise (.modPwr (.storeTemps (.runPeriod h)))
    · exact .modPwr (.storeTemps (.runPeriod h))
  refine .next ?_
  split
  · exact .raise ht2
  · exact ht2

theorem Runs.powerSample {watts : Nat} {rails : List (Nat × Nat)} (h : Kept s₀ s) :
    Runs s₀ (execPowerSample watts s rails) :=
  .next (.ite (.raise (.modPwr (.runPeriod h))) (.modPwr (.runPeriod h)))

theorem Kept.avsSet {target : Int} (h : Kept s₀ s) : Kept s₀ (s.avsSet target) :=
  .when .bump (.setf (.setf (.setf (.modPwr h))))

theorem Kept.avsMargin {low : Bool} (h : Kept s₀ s) : Kept s₀ (s.avsMargin low) := by
  unfold State.avsMargin
  exact .ite (.raise (.modPwr h)) (.modPwr h)

theorem Kept.avsFail (h : Kept s₀ s) : Kept s₀ (s.avsFail n) := .ite (.modPwr h) (.raise (.setf (.modPwr h)))

theorem Runs.avsIteration {move : Int} {low answered : Bool} {failures : Nat} (h : Kept s₀ s) :
    Runs s₀ (execAvsIteration move low answered s failures) :=
  .next <|
  .ite (.setf (.runPeriod h)) <|
  .ite (.avsMargin (.runPeriod h)) <|
  .ite (.avsMargin (.avsSet (.modPwr (.runPeriod h)))) <|
  .avsMargin <| .avsFail <| .runPeriod h

theorem Runs.avsRetry {answered : Bool} (h : Kept s₀ s) : Runs s₀ (execAvsRetry answered s) := by
  unfold execAvsRetry
  exact .ite (.next (.ite (.setf (.runPeriod h)) (.runPeriod h))) (.next h)

theorem Runs.hostWake (h : Kept s₀ s) : Runs s₀ (execHostWake s) := .next (.ite (.gated (fun _ => .wakeIf) h) h)

theorem Runs.wakeTimer (h : Kept s₀ s) : Runs s₀ (execWakeTimer s) := .next (.ite (.wakeIf (.runToNs h)) h)

theorem Runs.wakeOutFall (h : Kept s₀ s) : Runs s₀ (execWakeOutFall s) := by
  unfold execWakeOutFall
  split
  · exact .next h
  · exact .ite (.next (.modPwr (.runToLt h))) (.next h)

/-! ### Machine/NetTime -/

theorem Kept.newInc (h : Kept s₀ s) : Kept s₀ (s.newInc v) := .modTime h

theorem Kept.incWrite (h : Kept s₀ s) : Kept s₀ (s.incWrite o data) := by
  unfold State.incWrite
  exact .ite (.newInc (.setf h)) (.refuse h)

theorem Runs.incrementWrite {data : Word} (h : Kept s₀ s) : Runs s₀ (execIncrementWrite data s) :=
  .next (.ite (.gated (fun _ => .incWrite) h) h)

theorem Kept.tempWrite (h : Kept s₀ s) : Kept s₀ (s.tempWrite o data) := by
  unfold State.tempWrite
  exact .ite (.modTime (.markTime (.setf h))) (.refuse h)

theorem Kept.slewWrite (h : Kept s₀ s) : Kept s₀ (s.slewWrite count) := .modTime (.markTime h)

theorem Runs.slewStart {count : Word} (h : Kept s₀ s) : Runs s₀ (execSlewStart count s) :=
  .next (.ite (.gated (fun _ => .slewWrite) h) h)

theorem Runs.slewEnd (h : Kept s₀ s) : Runs s₀ (execSlewEnd s) := .next (.run h)

theorem Kept.stepGo {mode : Nat} (h : Kept s₀ s) : Kept s₀ (s.stepGo o mode data) := by
  unfold State.stepGo
  exact .ite (.refuse h) (.ite (.refuse h) (.modTime h))

theorem Runs.stepGo {mode : Nat} (h : Kept s₀ s) : Runs s₀ (execStepGo mode s) :=
  .next (.ite (.gated (fun _ => .stepGo) h) h)

theorem Kept.correctReplicas (h : Kept s₀ s) : Kept s₀ s.correctReplicas := by
  unfold State.correctReplicas
  exact .update (.foldl (fun _ _ => .modPort) h)

theorem Runs.replicaCorrection (h : Kept s₀ s) : Runs s₀ (execReplicaCorrection s) :=
  .next (.ite (.correctReplicas (.runPeriod h)) h)

theorem Runs.ppsOutEdge (h : Kept s₀ s) : Runs s₀ (execPpsOutEdge s) := .next (.ite (.modTime (.runToNs h)) h)

theorem Runs.ppsOutFall (h : Kept s₀ s) : Runs s₀ (execPpsOutFall s) := by
  unfold execPpsOutFall
  refine .next ?_
  split
  · exact h
  · exact .modTime (.runToLt h)

theorem Runs.ppsInEdge {highNs : Nat} (h : Kept s₀ s) : Runs s₀ (execPpsInEdge highNs s) :=
  .next (.ite h (.modTime (.bump (.when .bump h))))

/-! ### Machine/Power -/

theorem Kept.outside {t : State} (h : Kept s₀ s) : Kept s₀ (s.outside t) := ⟨h.queue, h.part⟩

theorem Kept.powerOn (h : Kept s₀ s) : Kept s₀ s.powerOn := by
  unfold State.powerOn
  exact .update (.outside (.haltWipes h))

theorem Runs.powerOnReset {lowNs : Nat} (h : Kept s₀ s) : Runs s₀ (execPowerOnReset s lowNs) :=
  .next (.ite h (.powerOn h))

theorem Kept.coldReset (h : Kept s₀ s) : Kept s₀ s.coldReset := by
  unfold State.coldReset
  exact .setf (.update (.outside (.haltWipes h)))

theorem Runs.coldReset {cycles : Nat} (h : Kept s₀ s) : Runs s₀ (execColdReset s cycles) :=
  .next (.ite h (.update (.ite h (.coldReset h))))

theorem Runs.refclkLoss (h : Kept s₀ s) : Runs s₀ (execRefclkLoss s) := .next (.ite h (.update (.coldReset h)))

theorem Kept.readFuses (h : Kept s₀ s) : Kept s₀ s.readFuses := by
  unfold State.readFuses
  exact .setf (.setf (.when .update h))

theorem Runs.resetRelease (h : Kept s₀ s) : Runs s₀ (execResetRelease s) :=
  .next (.ite (.when .selectTap (.update (.readFuses (.runToLt h)))) h)

theorem Runs.startupEntry (h : Kept s₀ s) : Runs s₀ (execStartupEntry s) :=
  .next (.ite (.foldl (fun _ _ => .startEnum) (.toOp (.update (.runToLt h)))) h)

theorem Kept.wipeTested (h : Kept s₀ s) : Kept s₀ s.wipeTested := by
  unfold State.wipeTested
  exact .modBst (.foldl (fun _ _ => .dropMemories) h)

theorem Kept.goto {new : OpState} (h : Kept s₀ s) : Kept s₀ (s.goto new) := by
  unfold State.goto
  extract_lets s1
  have hs1 : Kept s₀ s1 := .dropTakeover (.when .wipeTested h)
  exact .ite (.ite (.toOp hs1) (.enterOper hs1)) (.startTakeover (.toOp hs1))

theorem Runs.resetWarm (h : Kept s₀ s) : Runs s₀ (execResetWarm s) :=
  .next (.xci (fun _ _ ht => .ite (.finish ht) (.modPwr (.finishOk ht))) h)

theorem Kept.hotReset {condemned : Bool} (h : Kept s₀ s) : Kept s₀ (s.hotReset condemned) := by
  unfold State.hotReset
  exact .ite h <| .ite (.hostReset h) (.ite (.modPwr (.hostReset h)) (.startExit (.modPwr (.hostReset h))))

theorem Kept.overtakeBlock (h : Kept s₀ s) : Kept s₀ s.overtakeBlock := .ite (.modPwr (.finishOk h)) h

theorem Kept.warmEffects (h : Kept s₀ s) : Kept s₀ s.warmEffects := by
  unfold State.warmEffects
  exact .resync (.abandonWide (.mixDefaults (.sidDefaults (.wipePanels (.wipeQueues (.conReset (.stopChannels h)))))))

theorem Kept.warmBegin {hot : Bool} (h : Kept s₀ s) : Kept s₀ (s.warmBegin hot) := by
  unfold State.warmBegin
  exact .modPwr <| .bump <| .setf <| .warmEffects <| .toOp <| .when .wipeTested <| .modPair <| .dropTakeover <|
    .bistStop <| .overtakeBlock h

theorem Kept.warmReset (h : Kept s₀ s) : Kept s₀ s.warmReset := by
  unfold State.warmReset
  split
  · exact h
  · exact .ite h <|
      .ite (.modPwr (.runToLt h)) <|
      .ite (.startExit (.runToLt h)) <|
      .warmBegin (.when .startExit (.runToLt h))

theorem Kept.blockEffects {sub : Nat} (h : Kept s₀ s) : Kept s₀ (s.blockEffects w sub) :=
  .ite (.resync h) <|
  .ite (.conReset h) <|
  .ite (.stopChannels h) <|
  .ite (.modMix (.dropCaptures (.rewindLines h))) <|
  .ite (.foldl (fun _ _ => .release) (.modMix (.mixDefaults h))) <|
  .ite (.settleUnblocks (.foldl (fun _ _ => .release) (.update (.sidDefaults h)))) <|
  .ite (.foldl (fun _ _ => .resetPanel) h) <|
  .ite (.wipeStores h) <|
  .ite (.prtReset h) <|
  .ite (.senReset h) <|
  .ite (.wipePort h) <|
  .when .tsuReset h

theorem Kept.blockBegin {c : Cmd} (h : Kept s₀ s) : Kept s₀ (s.blockBegin c) := by
  unfold State.blockBegin
  exact .modPwr (.bump (.blockEffects h))

theorem Runs.blockReset (h : Kept s₀ s) : Runs s₀ (execBlockReset s) :=
  .next (.xci (fun _ _ ht => .ite ht (.ite (.modPwr ht) (.blockBegin ht))) h)

/-- `startTakeover` is taken as a function `f` of which only the preservation is known: the kernel would otherwise run it. -/
theorem Runs.warmResetDone (h : Kept s₀ s) : Runs s₀ (execWarmResetDone s) := by
  obtain ⟨f, hf⟩ : ∃ f, f = State.startTakeover := ⟨_, rfl⟩
  have takeover : ∀ {u}, Kept s₀ u → Kept s₀ (f u) := hf ▸ .startTakeover
  refine .next ?_
  rw [← hf]
  split
  · exact h
  · extract_lets s1 s2
    have hs2 : Kept s₀ s2 := takeover (.settleS3 (.conResume (.modPwr (.runToLt h))))
    clear_value s2
    split
    · exact .blockBegin hs2
    · exact hs2

theorem Runs.blockResetDone (h : Kept s₀ s) : Runs s₀ (execBlockResetDone s) := by
  unfold execBlockResetDone
  refine .next ?_
  split
  · exact h
  · extract_lets s1 s2
    have hs1 : Kept s₀ s1 := .modPwr (.runToLt h)
    exact .settleS3 (.finishOk (.ite (.foldl (fun _ _ => .panelBeacon) hs1) (.when .conResume hs1)))

theorem Kept.lanesOff (h : Kept s₀ s) : Kept s₀ (s.lanesOff p) := .when .linkDown h

theorem Kept.enterDoze (h : Kept s₀ s) : Kept s₀ s.enterDoze := by
  unfold State.enterDoze
  exact .setf (.modPwr (.foldl (fun _ _ ht => .ite ht (.lanesOff ht)) h))

theorem Kept.narrow (h : Kept s₀ s) : Kept s₀ (s.narrow p) := .when .shedRequest h

theorem Kept.beginStandby (h : Kept s₀ s) : Kept s₀ s.beginStandby := by
  unfold State.beginStandby
  exact .foldl (fun _ _ => .narrow) (.conStandby (.pauseAll (.timeAlive (.modPwr h))))

theorem Kept.powerState {c : Cmd} (h : Kept s₀ s) : Kept s₀ (s.powerState c) := by
  unfold State.powerState
  extract_lets n
  refine .ite (.finish h) ?_
  split
  · exact .ite (.enterDoze (.finishOk h)) (.ite (.beginStandby (.finishOk h)) (.finish h))
  · exact .ite (.startExit (.finishOk h)) (.ite (.beginStandby (.finishOk h)) (.finish h))
  · exact .ite (.startExit (.finishOk h)) (.finish h)

theorem Runs.powerState (h : Kept s₀ s) : Runs s₀ (execPowerState s) := .next (.xci (fun _ _ => .powerState) h)

theorem Kept.standbyPorts (h : Kept s₀ s) : Kept s₀ s.standbyPorts := by
  unfold State.standbyPorts
  exact .foldl (fun _ _ ht => .ite ht (.lanesOff ht)) (.wipePanels (.wipeQueues h))

theorem Kept.standbyReached (h : Kept s₀ s) : Kept s₀ s.standbyReached := by
  unfold State.standbyReached
  exact .setf <| .modPwr <| .foldl (fun _ _ => .recalibrate) <| .abandonWide <| .mixDefaults <| .sidDefaults <|
    .wipePanels <| .wipeQueues h

theorem Runs.standbyEntryPhase (h : Kept s₀ s) : Runs s₀ (execStandbyEntryPhase s) := by
  unfold execStandbyEntryPhase
  refine .next ?_
  split
  · exact h
  · exact .ite (.modPwr (.standbyPorts (.runToLt h))) <| .ite (.modPwr (.runToLt h)) <| .standbyReached (.runToLt h)

theorem Kept.widen (h : Kept s₀ s) : Kept s₀ (s.widen p) := by
  unfold State.widen
  exact .ite (.shedRequest h) (.modPort h)

theorem Runs.standbyExitDone (h : Kept s₀ s) : Runs s₀ (execStandbyExitDone s) := by
  unfold execStandbyExitDone
  refine .next ?_
  split
  · exact h
  · exact .ite h <| .settleS3 (.foldl (fun _ _ ht => .regate (.widen ht)) (.timeAlive (.setf (.modPwr (.runToLt h)))))

/-! ### Machine/Steps -/

theorem Kept.stepTime {w : StepWait} (h : Kept s₀ s) : Kept s₀ (s.stepTime w) := .modTime (.markTime h)

theorem Kept.stepPort (h : Kept s₀ s) : Kept s₀ (s.stepPort p parity) := .modTsu (.newSide (.senStep h))

theorem Kept.takeStep {w : StepWait} (h : Kept s₀ s) : Kept s₀ (s.takeStep w upsets) := by
  unfold State.takeStep
  exact .raise (.bump (.abandonBatches (.foldl (fun _ _ => .stepPort) (.stepTime (.runToNs h)))))

theorem Runs.networkTimeStep (h : Kept s₀ s) : Runs s₀ (execNetworkTimeStep s upsets) := by
  unfold execNetworkTimeStep
  refine .next ?_
  split
  · exact h
  · exact .takeStep h

/-! ### Machine/RegRead -/

theorem Kept.dropWide (h : Kept s₀ s) : Kept s₀ s.dropWide := .setf (.setf (.update h))

theorem Kept.readEffect {t : Target} (h : Kept s₀ s) : Kept s₀ (s.readEffect t) := by
  unfold State.readEffect
  exact .ite (.setf h) (.ite (.seeCauses h) (.ite (.when .dropWide h) (.foldl (fun _ _ => .setf) h)))

theorem Kept.reachWindow (h : Kept s₀ s) : Kept s₀ (s.reachWindow w) := .when .reachEngine h

theorem Kept.tripCorrect {copy : Nat} (h : Kept s₀ s) : Kept s₀ (s.tripCorrect addr copy) := by
  unfold State.tripCorrect
  exact .raise (.ite (.bump h) (.setf (.setf (.setf (.bump h)))))

theorem Kept.tripFail (h : Kept s₀ s) : Kept s₀ (s.tripFail addr) := .raise (.setf (.setf h))

theorem Kept.tripCompare {x : TripUpset} (h : Kept s₀ s) : Kept s₀ (s.tripCompare x) := by
  unfold State.tripCompare
  split
  · exact h
  · exact .ite (.setf h) <|
      .ite (.tripCorrect (.setf h)) <|
      .ite (.tripCorrect (.setf h)) <|
      .ite (.tripCorrect (.setf h)) <|
      .tripFail <| .setf h

theorem Kept.tripStrike {x : TripUpset} (h : Kept s₀ s) : Kept s₀ (s.tripStrike x) := by
  unfold State.tripStrike
  split
  · exact h
  · exact .update (.setf h)

theorem Kept.compareHeld {f : Target → Bool} (h : Kept s₀ s) : Kept s₀ (s.compareHeld f) := by
  unfold State.compareHeld
  exact .foldl (fun _ _ ht => .when .tripCompare ht) (.update h)

theorem Kept.readReg (h : Kept s₀ s) : Kept s₀ (s.readReg fn a).2 := by
  unfold State.readReg
  split
  · exact h
  · extract_lets s1
    split
    · dsimp only
      exact .reachWindow h
    · dsimp only
      exact .readEffect (.compareHeld (.ite (.panelSettle (.reachWindow h)) (.reachWindow h)))

theorem Kept.hostRead (h : Kept s₀ s) : Kept s₀ (s.hostRead fn a) := .ite (.modHost (.readReg h)) h

theorem Kept.readIn {a : ReadSpace} (h : Kept s₀ s) : Kept s₀ (s.readIn fn addr a) := by
  unfold State.readIn
  split
  · exact .hostRead h
  · exact .ite (.modHost (.reachMix h)) h
  · exact .when .modHost h
  · exact .when .modHost h

theorem Runs.rcRead {space : ReadSpace} (h : Kept s₀ s) : Runs s₀ (execRcRead fn addr s space) := .next (.readIn h)

theorem Kept.capturePrt (h : Kept s₀ s) : Kept s₀ (s.capturePrt p slot).2 := by
  unfold State.capturePrt
  split
  · exact h
  · dsimp only
    exact .setf (.when .fecSync h)

theorem Kept.captureQsh (h : Kept s₀ s) : Kept s₀ (s.captureQsh p c).2 := .setPort h

theorem Kept.captureNtm (h : Kept s₀ s) : Kept s₀ (s.captureNtm slot).2 := by
  unfold State.captureNtm
  split
  · exact h
  · dsimp only
    exact .modTime h

theorem Kept.captureFlt (h : Kept s₀ s) : Kept s₀ (s.captureFlt slot).2 := by
  unfold State.captureFlt
  split
  · split
    · exact h
    · dsimp only
      exact .update h
  · split
    · exact h
    · exact h

theorem Kept.captureWide {x : List Nat × State} (h : Kept s₀ s) (hx : s.captureWide a = some x) : Kept s₀ x.2 := by
  unfold State.captureWide at hx
  dsimp only at hx
  split at hx
  · cases hx
  · split at hx
    · split at hx <;> cases hx
      · exact .capturePrt h
      · exact h
      · exact .captureQsh h
    · split at hx
      · cases hx
        exact .captureNtm h
      · split at hx
        · cases hx
          exact .captureFlt h
        · cases hx

theorem Kept.wideCapture (h : Kept s₀ s) : Kept s₀ (s.wideCapture a) := by
  unfold State.wideCapture
  extract_lets t
  have ht : Kept s₀ t := .setf (.update h)
  split
  · exact .setf ht
  next hc =>
    split at hc
    · cases hc
    · exact .setf (.setf (.update (ht.captureWide hc)))

theorem Runs.wideCaptureDone (h : Kept s₀ s) : Runs s₀ (execWideCaptureDone s) := by
  unfold execWideCaptureDone
  refine .next ?_
  split
  · exact h
  · exact .wideCapture h

theorem Runs.wideReadLastWord (h : Kept s₀ s) : Runs s₀ (execWideReadLastWord s) := .next (.hostRead h)

/-! ### Machine/Regs -/

theorem Kept.putField {t : Target} {f : Field} (h : Kept s₀ s) : Kept s₀ (s.putField t data f) := by
  unfold State.putField
  exact .ite (.setf h) (.ite h (.setf h))

theorem Kept.putDword {t : Target} (h : Kept s₀ s) : Kept s₀ (s.putDword t data) :=
  .foldl (fun _ _ => .putField) (.update h)

theorem Kept.mergeWrite (h : Kept s₀ s) : Kept s₀ (s.mergeWrite p) := by
  unfold State.mergeWrite
  exact .ite (.setf (.setf (.modPort h))) (.ite (.startMerge (.modPort h)) h)

theorem Kept.writePrtCtl {t : Target} (h : Kept s₀ s) : Kept s₀ (s.writePrtCtl t data) := by
  unfold State.writePrtCtl
  extract_lets u u1 u2
  have hu : Kept s₀ u := .putDword (.fecSync (.syncCredit h))
  have hu1 : Kept s₀ u1 := .ite (.recalibrate (.newSide (.setWidth hu))) hu
  have hu2 : Kept s₀ u2 := .when .linkLost hu1
  exact .when .linkDown hu2

theorem Kept.writeCredit {t : Target} (h : Kept s₀ s) : Kept s₀ (s.writeCredit t data) := by
  unfold State.writeCredit
  exact .modPort (.putDword (.syncCredit h))

theorem Kept.writePort {t : Target} (h : Kept s₀ s) : Kept s₀ (s.writePort o t data) := by
  unfold State.writePort
  extract_lets p put
  refine .ite (.senAdminWrite h) ?_
  split
  · exact .writePrtCtl h
  · exact .mergeWrite (.putDword h)
  · exact .ite (.blockClr (.putDword h)) (.putDword h)
  · exact .ite (.putDword h) (.senDisable h)
  · exact .regate (.putDword h)
  · exact .ite (.setf (.setCbsEn h)) (.queueDisable h)
  · exact .modPort (.putDword h)
  · exact .writeCredit h
  · exact .writeCredit h
  · exact .poolWrite h
  · exact .poolWrite h
  · exact .refreshDelay (.putDword h)
  · exact .refreshDelay (.putDword h)
  · exact .putDword h

theorem Kept.writeLock {t : Target} (h : Kept s₀ s) : Kept s₀ (s.writeLock t data) := by
  unfold State.writeLock
  exact .foldl (fun _ _ ht => .foldl (fun _ _ ht => .when .setBit ht) ht) (.update h)

theorem Kept.wideStart (h : Kept s₀ s) : Kept s₀ (s.wideStart o data) :=
  .ite (.refuse h) (.update (.setf (.setf (.setf h))))

theorem Kept.wideRelease (h : Kept s₀ s) : Kept s₀ s.wideRelease := .ite h (.dropWide h)

theorem Kept.writeReg {t : Target} (h : Kept s₀ s) : Kept s₀ (s.writeReg o t data) := by
  unfold State.writeReg
  split
  · exact .wideStart h
  · exact .when .wideRelease h
  · exact .ite (.putDword h) (.setf (.putDword h))
  · exact .putDword h
  · exact .ite (.refuse (.writeLock h)) (.writeLock h)

theorem Kept.writeHif {t : Target} (h : Kept s₀ s) : Kept s₀ (s.writeHif o t data) := by
  unfold State.writeHif
  split
  · exact .when .doorbell h
  · exact .vfDmaWrite h
  · exact .putDword h

theorem Kept.writeFlt {t : Target} (h : Kept s₀ s) : Kept s₀ (s.writeFlt o t data) := by
  unfold State.writeFlt
  split
  · exact .ite (.firstRearm (.putDword h)) (.putDword h)
  · exact .fltForce h
  · exact .clearCauses h
  · exact .putDword h

theorem Kept.writePwr {t : Target} (h : Kept s₀ s) : Kept s₀ (s.writePwr t data) := by
  unfold State.writePwr
  extract_lets u u1
  have hu1 : Kept s₀ u1 := .ite (.setf (.putDword h)) (.putDword h)
  exact .when .wakeIf hu1

theorem Kept.writeNtm {t : Target} (h : Kept s₀ s) : Kept s₀ (s.writeNtm o t data) := by
  unfold State.writeNtm
  split
  · exact .ite (.resync (.putDword h)) (.modTime (.resync (.putDword h)))
  · exact .incWrite h
  · exact .tempWrite h
  · exact .slewWrite h
  · exact .when .stepGo h
  · exact .resync (.putDword h)
  · exact .putDword h

theorem Kept.writeChCtl (h : Kept s₀ s) : Kept s₀ (s.writeChCtl o ch data) := by
  unfold State.writeChCtl
  extract_lets u u1
  have hu : Kept s₀ u := .ite h (.disableChan h)
  have hu1 : Kept s₀ u1 := .ite (.pauseChan hu) (.resumeChan hu)
  exact .when .enableChan hu1

theorem Kept.writeDma {t : Target} (h : Kept s₀ s) : Kept s₀ (s.writeDma o t data) := by
  unfold State.writeDma
  split
  · exact .putDword h
  · exact .writeChCtl h
  · exact .tailWrite h
  · exact .cqTailWrite h
  · exact .putDword h

theorem Kept.writeCxm {t : Target} (h : Kept s₀ s) : Kept s₀ (s.writeCxm o t data) :=
  .ite (.putDword h) (.when .refuse (.foldl (fun _ _ => .startEnum) (.putDword h)))

theorem Kept.writeSid {t : Target} (h : Kept s₀ s) : Kept s₀ (s.writeSid t data) := .ite (.unblock h) (.putDword h)

theorem Kept.writeBst {t : Target} (h : Kept s₀ s) : Kept s₀ (s.writeBst o t data) := .ite (.fuseBurn h) (.putDword h)

theorem Kept.writeAt {t : Target} (h : Kept s₀ s) : Kept s₀ (s.writeAt o t data) := by
  unfold State.writeAt
  refine .ite (.putDword h) <| .ite (.writePort h) ?_
  split
  · exact .writeHif h
  · exact .writeReg h
  · exact .writeFlt h
  · exact .writePwr h
  · exact .writeNtm h
  · exact .writeDma h
  · exact .writeCxm h
  · exact .writeBst h
  · exact .writeSid h
  · exact .putDword h

theorem Kept.regWrite {t : Target} (h : Kept s₀ s) : Kept s₀ (s.regWrite o t data) := by
  unfold State.regWrite
  split
  · exact .refuse h
  · refine .ite h ?_
    extract_lets u
    have hu : Kept s₀ u := by
      unfold u
      split
      · exact .refuse h
      · exact h
    exact .when .writeAt hu

theorem Kept.partialWrite {there : Bool} (h : Kept s₀ s) : Kept s₀ (s.partialWrite o data there) := by
  unfold State.partialWrite
  exact .ite (.refuse (.bump h)) (.bump h)

theorem Kept.barWrite (h : Kept s₀ s) : Kept s₀ (s.barWrite o data be) := by
  unfold State.barWrite
  split
  · exact .ite h (.partialWrite h)
  · exact .ite (.regWrite (.reachWindow h)) (.partialWrite h)

theorem Kept.tableWrite (h : Kept s₀ s) : Kept s₀ (s.tableWrite o data be) := .ite (.bar2Write h) (.partialWrite h)

theorem Kept.dwordWrite {space : Space} (h : Kept s₀ s) : Kept s₀ (s.dwordWrite space fn addr data be) := by
  unfold State.dwordWrite
  split
  · exact .when .barWrite h
  · exact .when .barWrite h
  · exact .when .tableWrite h
  · exact .when .bar2Write h

theorem Runs.registerWrite {space : Space} {data : Word} (h : Kept s₀ s) :
    Runs s₀ (execRegisterWrite space fn addr data be s) :=
  .next (.dwordWrite h)

theorem Runs.lockSet {reg bit : Nat} (h : Kept s₀ s) : Runs s₀ (execLockSet reg bit s) := .next (.dwordWrite h)

theorem Runs.wideReadStart (h : Kept s₀ s) : Runs s₀ (execWideReadStart addr s) := .next (.dwordWrite h)

theorem Runs.wideReadRelease (h : Kept s₀ s) : Runs s₀ (execWideReadRelease s) := .next (.dwordWrite h)

theorem Runs.triplicateScrub {upsets later : List TripUpset} (h : Kept s₀ s) :
    Runs s₀ (execTriplicateScrub upsets s later) :=
  .next <|
  .ite (.foldl (fun _ _ => .tripStrike) (.bump (.foldl (fun _ _ => .tripCompare) (.compareHeld (.runPeriod h))))) h

/-! ### Machine/Ties -/

theorem Kept.stateSet {c : Cmd} (h : Kept s₀ s) : Kept s₀ (s.stateSet c) := by
  unfold State.stateSet
  exact .ite (.finish h) (.ite (.finish h) (.ite (.modPwr (.finishOk h)) (.goto (.finishOk h))))

theorem Runs.stateSet (h : Kept s₀ s) : Runs s₀ (execStateSet s) := .next (.xci (fun _ _ => .stateSet) h)

theorem Kept.settleSet (h : Kept s₀ s) : Kept s₀ s.settleSet := by
  unfold State.settleSet
  split
  · exact h
  · exact .ite h (.ite (.modPwr h) (.goto (.modPwr h)))

theorem Runs.pcieHotReset (h : Kept s₀ s) : Runs s₀ (execPcieHotReset s) := .next (.hotReset h)

theorem Runs.warmReset (h : Kept s₀ s) : Runs s₀ (execWarmReset s) :=
  .next (.settleSet (.ite (.modPwr (.runToLt h)) (.warmReset h)))

theorem Kept.roleTake {high : Bool} (h : Kept s₀ s) : Kept s₀ (s.roleTake high) := by
  unfold State.roleTake
  exact .ite (.modPair h) (.ite (.roleRise h) (.roleFall h))

theorem Runs.roleActiveRise {stableNs : Nat} (h : Kept s₀ s) : Runs s₀ (execRoleActiveRise s stableNs) :=
  .next (.ite h (.settleSet (.roleTake h)))

theorem Runs.roleActiveFall {stableNs : Nat} (h : Kept s₀ s) : Runs s₀ (execRoleActiveFall s stableNs) :=
  .next (.ite h (.settleSet (.roleTake h)))

/-! ### Commands, by constructor -/

/-- Every command goes on, and keeps the queue behind it and the part. -/
theorem exec_runs (c : Instr) (h : Kept s₀ s) : Runs s₀ (exec c s) := by
  cases c with
  | powerOnReset => exact .powerOnReset h
  | coldReset => exact .coldReset h
  | resetRelease => exact .resetRelease h
  | startupEntry => exact .startupEntry h
  | refclkLoss => exact .refclkLoss h
  | crossingDelivery => exact .crossingDelivery h
  | replicaCorrection => exact .replicaCorrection h
  | frameReceived => exact .frameReceived h
  | classify => exact .classify h
  | unpackFrame => exact .unpackFrame h
  | videoPacketStore => exact .videoPacketStore h
  | frameEnqueue => exact .frameEnqueue h
  | stageCellReadDone => exact .stageCellReadDone h
  | transmissionSelection => exact .transmissionSelection h
  | txFrameDone => exact .txFrameDone h
  | ageExpiry => exact .ageExpiry h
  | depthSample => exact .depthSample h
  | dmaPoolCellsAvailable => exact .dmaPoolCellsAvailable h
  | linkUp => exact .linkUp h
  | linkDown => exact .linkDown h
  | retrain => exact .retrain h
  | verifyMpacketRx => exact .verifyMpacketRx h
  | respondMpacketRx => exact .respondMpacketRx h
  | verifyTimeout => exact .verifyTimeout h
  | continuationFragmentRx => exact .continuationFragmentRx h
  | pauseFrameRx => exact .pauseFrameRx h
  | pauseQuantaExpiry => exact .pauseQuantaExpiry h
  | pauseWatchdog => exact .pauseWatchdog h
  | lldpduTx => exact .lldpduTx h
  | lldpduRx => exact .lldpduRx h
  | partnerTtlExpiry => exact .partnerTtlExpiry h
  | utilisationWindow => exact .utilisationWindow h
  | shedRequestRx => exact .shedRequestRx h
  | shedAcceptRx => exact .shedAcceptRx h
  | shedRefuseRx => exact .shedRefuseRx h
  | shedNoack => exact .shedNoack h
  | shedInstant => exact .shedInstant h
  | shedLockCheck => exact .shedLockCheck h
  | shedFailRetrain => exact .shedFailRetrain h
  | shedForcedWiden => exact .shedForcedWiden h
  | standbyWidenRetry => exact .standbyWidenRetry h
  | blockClr => exact .blockClr h
  | panelFrameRx => exact .panelFrameRx h
  | panelFrameTx => exact .panelFrameTx h
  | panelCollision => exact .panelCollision h
  | panelBackoffExpiry => exact .panelBackoffExpiry h
  | plcaBeaconRx => exact .plcaBeaconRx h
  | plcaToTimer => exact .plcaToTimer h
  | sidEntryWrite => exact .sidEntryWrite h
  | streamBind => exact .streamBind h
  | streamUnbind => exact .streamUnbind h
  | unblockFilter => exact .unblockFilter h
  | clearMarkRed => exact .clearMarkRed h
  | recoveryResetTimer => exact .recoveryResetTimer h
  | latentTest => exact .latentTest h
  | latentResetPeriod => exact .latentResetPeriod h
  | clauseWrite => exact .clauseWrite h
  | senAdminWrite => exact .senAdminWrite h
  | sentenceStage => exact .sentenceStage h
  | sentenceArm => exact .sentenceArm h
  | sentenceAbort => exact .sentenceAbort h
  | sentenceSwap => exact .sentenceSwap h
  | cycleStart => exact .cycleStart h
  | clauseBoundary => exact .clauseBoundary h
  | holdInForce => exact .holdInForce h
  | senEnableClear => exact .senEnableClear h
  | subqEntryWrite => exact .subqEntryWrite h
  | qshPoolWrite => exact .qshPoolWrite h
  | queueDisableFlush => exact .queueDisableFlush h
  | windowFix => exact .windowFix h
  | batchCutoff => exact .batchCutoff h
  | allotmentStart => exact .allotmentStart h
  | allotmentDone => exact .allotmentDone h
  | mixDeadlineEnqueue => exact .mixDeadlineEnqueue h
  | rowFetchDone => exact .rowFetchDone h
  | rebalance => exact .rebalance h
  | mixBankWrite => exact .mixBankWrite h
  | mixLiveEntryWrite => exact .mixLiveEntryWrite h
  | mixCommit => exact .mixCommit h
  | mixWithdraw => exact .mixWithdraw h
  | mixStatus => exact .mixStatus h
  | placementLoad => exact .placementLoad h
  | mixActivation => exact .mixActivation h
  | mixDrainEnd => exact .mixDrainEnd h
  | mixPoolReturn => exact .mixPoolReturn h
  | ringJoin => exact .ringJoin h
  | ringLeave => exact .ringLeave h
  | ringLeaveDone => exact .ringLeaveDone h
  | ringCycleStart => exact .ringCycleStart h
  | ringRoundStart => exact .ringRoundStart h
  | syncFrameTx => exact .syncFrameTx h
  | syncFrameRx => exact .syncFrameRx h
  | syncCollectionEnd => exact .syncCollectionEnd h
  | coldstartEntry => exact .coldstartEntry h
  | coldstartFail => exact .coldstartFail h
  | syncMeasurementClose => exact .syncMeasurementClose h
  | syncSilenceTimeout => exact .syncSilenceTimeout h
  | contributionCutoff => exact .contributionCutoff h
  | trainLaunch => exact .trainLaunch h
  | trainFrameRx => exact .trainFrameRx h
  | trainWindowEnd => exact .trainWindowEnd h
  | beaconTx => exact .beaconTx h
  | ringPortDown => exact .ringPortDown h
  | ringWrapEnd => exact .ringWrapEnd h
  | managerTakeover => exact .managerTakeover h
  | contributionEntryWrite => exact .contributionEntryWrite h
  | ringRemote => exact .ringRemote h
  | ringRemoteDone => exact .ringRemoteDone h
  | incrementWrite => exact .incrementWrite h
  | slewStart => exact .slewStart h
  | slewEnd => exact .slewEnd h
  | stepGo => exact .stepGo h
  | networkTimeStep => exact .networkTimeStep h
  | ppsOutEdge => exact .ppsOutEdge h
  | ppsOutFall => exact .ppsOutFall h
  | ppsInEdge => exact .ppsInEdge h
  | syncTx => exact .syncTx h
  | syncRx => exact .syncRx h
  | ptpMessageRx => exact .ptpMessageRx h
  | syncTimeout => exact .syncTimeout h
  | pdelayReqTx => exact .pdelayReqTx h
  | pdelayReqRx => exact .pdelayReqRx h
  | pdelayRespRx => exact .pdelayRespRx h
  | pdelayTimeout => exact .pdelayTimeout h
  | delayStale => exact .delayStale h
  | probeTx => exact .probeTx h
  | probeRx => exact .probeRx h
  | calStart => exact .calStart h
  | calResult => exact .calResult h
  | cxmEnum => exact .cxmEnum h
  | enumerationDone => exact .enumerationDone h
  | cxlReadFail => exact .cxlReadFail h
  | cxlLinkDown => exact .cxlLinkDown h
  | cxmEntryWrite => exact .cxmEntryWrite h
  | delayRecordWritten => exact .delayRecordWritten h
  | delayRecordFetch => exact .delayRecordFetch h
  | delayRecordDue => exact .delayRecordDue h
  | dmaDoorbell => exact .dmaDoorbell h
  | descriptorFetch => exact .descriptorFetch h
  | cqSlotFree => exact .cqSlotFree h
  | dmaBurst => exact .dmaBurst h
  | beatError => exact .beatError h
  | descriptorComplete => exact .descriptorComplete h
  | dmaPause => exact .dmaPause h
  | dmaPaused => exact .dmaPaused h
  | dmaResume => exact .dmaResume h
  | dmaChannelDisable => exact .dmaChannelDisable h
  | perstnAssert => exact .perstnAssert h
  | pcieHotReset => exact .pcieHotReset h
  | flr => exact .flr h
  | hifVfDmaWrite => exact .hifVfDmaWrite h
  | mailboxDoorbell => exact .mailboxDoorbell h
  | commandDispatch => exact .commandDispatch h
  | identify => exact .identify h
  | stateSet => exact .stateSet h
  | checkpointConfig => exact .checkpointConfig h
  | roleReport => exact .roleReport h
  | resetWarm => exact .resetWarm h
  | warmReset => exact .warmReset h
  | warmResetDone => exact .warmResetDone h
  | blockReset => exact .blockReset h
  | blockResetDone => exact .blockResetDone h
  | powerState => exact .powerState h
  | standbyEntryPhase => exact .standbyEntryPhase h
  | hostWake => exact .hostWake h
  | wakeTimer => exact .wakeTimer h
  | standbyExitDone => exact .standbyExitDone h
  | measure => exact .measure h
  | registerWrite => exact .registerWrite h
  | rcRead => exact .rcRead h
  | lockSet => exact .lockSet h
  | triplicateScrub => exact .triplicateScrub h
  | wideReadStart => exact .wideReadStart h
  | wideCaptureDone => exact .wideCaptureDone h
  | wideReadLastWord => exact .wideReadLastWord h
  | wideReadRelease => exact .wideReadRelease h
  | aliveToggle => exact .aliveToggle h
  | aliveStopIdle => exact .aliveStopIdle h
  | roleActiveRise => exact .roleActiveRise h
  | roleActiveFall => exact .roleActiveFall h
  | checkpointCapture => exact .checkpointCapture h
  | checkpointWriteDone => exact .checkpointWriteDone h
  | takeoverHeadersRead => exact .takeoverHeadersRead h
  | takeoverBodyLoaded => exact .takeoverBodyLoaded h
  | takeoverTimeout => exact .takeoverTimeout h
  | takeoverPlacementDone => exact .takeoverPlacementDone h
  | faultCauseClear => exact .faultCauseClear h
  | fltForce => exact .fltForce h
  | firstRearm => exact .firstRearm h
  | irqHoldoffEnd => exact .irqHoldoffEnd h
  | supplySample => exact .supplySample h
  | thermalSample => exact .thermalSample h
  | powerSample => exact .powerSample h
  | avsIteration => exact .avsIteration h
  | avsRetry => exact .avsRetry h
  | bistRun => exact .bistRun h
  | bistWaveStart => exact .bistWaveStart h
  | bistWaveDone => exact .bistWaveDone h
  | bistRunDone => exact .bistRunDone h
  | bistResult => exact .bistResult h
  | fuseBurn => exact .fuseBurn h
  | fuseBurnDone => exact .fuseBurnDone h
  | keyLoad => exact .keyLoad h
  | keyClear => exact .keyClear h
  | tapInstruction => exact .tapInstruction h
  | scanUnlock => exact .scanUnlock h
  | scanOpen => exact .scanOpen h
  | scanChainsConnect => exact .scanChainsConnect h
  | lifecycleAdvance => exact .lifecycleAdvance h
  | lifecycleWipeDone => exact .lifecycleWipeDone h
  | wakeFilterEntryWrite => exact .wakeFilterEntryWrite h
  | plcaBeaconLoss => exact .plcaBeaconLoss h
  | beaconRx => exact .beaconRx h
  | perstnRelease => exact .perstnRelease h
  | pcieLinkDown => exact .pcieLinkDown h
  | pcieLinkUp => exact .pcieLinkUp h
  | pcieUncorrectableError => exact .pcieUncorrectableError h
  | pcieConfigurationWrite => exact .pcieConfigurationWrite h
  | msixVectorUnmask => exact .msixVectorUnmask h
  | fltCauseRead => exact .fltCauseRead h
  | wakeOutFall => exact .wakeOutFall h

end

/-! ### Absent units -/

theorem atUnit_absent {s t : State} {n u : Nat} (h : decide (n ≤ u) = true) : atUnit (decide (u < n)) s t = .next s := by
  rw [atUnit, decide_eq_false (Nat.not_lt.mpr (of_decide_eq_true h))]
  rfl

theorem exec_absent {s : State} (c : Instr) (h : Safety.absent s c = true) : exec c s = .next s := by
  cases c with
  | transmissionSelection | txFrameDone | frameEnqueue | ageExpiry | qshPoolWrite | queueDisableFlush | senAdminWrite
  | sentenceSwap | cycleStart | clauseBoundary | holdInForce | senEnableClear | linkUp | linkDown | retrain
  | verifyMpacketRx | respondMpacketRx | verifyTimeout | pauseFrameRx | pauseQuantaExpiry | pauseWatchdog | lldpduTx
  | utilisationWindow | shedRequestRx | shedAcceptRx | shedRefuseRx | shedNoack | shedInstant | shedLockCheck
  | shedFailRetrain | shedForcedWiden | standbyWidenRetry | blockClr | lldpduRx | partnerTtlExpiry | frameReceived
  | continuationFragmentRx | ptpMessageRx | syncRx | pdelayReqRx | pdelayRespRx | syncTx | pdelayReqTx
  | pdelayTimeout | delayStale | probeTx | probeRx => exact atUnit_absent h
  | rebalance => exact atUnit_absent h
  | descriptorFetch | dmaDoorbell | cqSlotFree | dmaPoolCellsAvailable | beatError | descriptorComplete | dmaPause
  | dmaPaused | dmaResume | dmaChannelDisable => exact atUnit_absent h
  | panelFrameTx | panelCollision | panelBackoffExpiry | plcaBeaconRx | plcaToTimer | plcaBeaconLoss
  | panelFrameRx => exact atUnit_absent h
  | cxmEnum | enumerationDone | cxlReadFail | cxlLinkDown => exact atUnit_absent h
  | _ => exact absurd h Bool.false_ne_true

/-! ### Reports -/

/-- A command of the sequencer whose row finishes it in the state that it finds answers, and does nothing else. -/
theorem answersOnly_of_xci {s : State} {i : Instr} {op : Nat} {c : Cmd} {f : Cmd → State → State} {st det : Nat} {ws : List Nat}
    (hx : Safety.Executes s op c) (hi : exec i s = .next (s.xci op f)) (hf : f c s = s.finish st det ws) :
    Safety.Next i s (fun t => Safety.AnswersOnly s t c st det ws) := by
  refine ⟨s.xci op f, hi, ?_⟩
  rw [xci_of s op c f hx, hf]
  obtain ⟨hc, -, hs, hd⟩ := hx
  exact finish_only s c st det ws hc hs hd

/-! ### The obligations -/

/-- Settles O5: a tick keeps the empty queue, and every command the queue behind it. -/
theorem queueInOrder : Obligations.QueueInOrder := by
  unfold Obligations.QueueInOrder
  intro s t ht
  unfold step at ht
  split at ht
  next hq =>
    obtain ⟨queue, part⟩ : Kept s (s.run ltNs) := .run .refl
    cases ht
    exact ⟨by rw [queue, hq]; rfl, part⟩
  next c rest hq =>
    obtain ⟨u, hu, queue, part⟩ := exec_runs c (s := { s with pending := rest }) .refl
    cases hu.symm.trans ht
    exact ⟨by rw [queue, hq]; rfl, part⟩

/-- Settles O22: the row of each of the three commands is one call of `finish`. -/
theorem reports : Obligations.Reports := by
  unfold Obligations.Reports
  intro s c
  refine ⟨fun hx => ?identify, fun hx => ?roleReport, fun hx hk => ?measure, fun hx hk => ?badKind⟩
  case identify =>
    have ⟨_, _, hs, _⟩ := hx
    refine answersOnly_of_xci hx rfl ?_
    rw [if_neg (Nat.ne_of_lt hs)]
    rfl
  case roleReport => exact answersOnly_of_xci hx rfl rfl
  case measure => exact answersOnly_of_xci hx rfl (if_neg (Nat.not_lt.mpr hk))
  case badKind => exact answersOnly_of_xci hx rfl (if_pos hk)

/-- Settles O60: every command runs, and what names an absent unit asks for it before it acts. -/
theorem everyCommandRuns : Obligations.EveryCommandRuns := by
  unfold Obligations.EveryCommandRuns
  intro c s
  obtain ⟨t, ht, -⟩ := exec_runs c (s := s) .refl
  exact ⟨⟨t, ht⟩, exec_absent c⟩

end Sys2Proof.Scope
end
